-- ==== Sys2Proof/Word.lean ====
section
/-! DEFINITION. The word types of the S960 model: bytes, 64-byte rows, core coordinates and the finite tables
that hold sparse state. -/

namespace Sys2Proof

/-- One byte, the smallest addressable unit of every memory (R22, R205). -/
abbrev Byte := BitVec 8

/-- The data of one 64-byte row; byte 0 is the least significant byte (R6, R110). -/
abbrev RowData := BitVec 512

/-- The position (x, y) of a logical core or router (00_scope.md, "Coordinates and identifiers"). -/
structure CoreId where
  x : BitVec 8
  y : BitVec 8
deriving DecidableEq, Repr

/-- The number y × 256 + x by which tables of cores and routers are keyed; R65 uses the same number. -/
def CoreId.key (c : CoreId) : Nat := c.y.toNat * 256 + c.x.toNat

/-- A finite table keyed by a number.  A key that is not listed holds the table's default; the canonical form
(keys rising, no entry equal to its default) is kept by every operation of Machine/Table.lean. -/
abbrev Tab (α : Type) := List (Nat × α)

end Sys2Proof
end

