-- ==== Sys2Proof/Syntax.lean ====
section
/-! DEFINITION. The commands of the block: one constructor of `Instr` for each row of spec/opcode_table.json, and the
data their operands carry. -/

namespace Sys2Proof

/-- A row on the scheduled mesh: 64 data bytes and the sideband of R150 (a row present has valid = 1). -/
structure Row where
  data : RowData
  head : Bool
  last : Bool
  poison : Bool
  tag : BitVec 8
deriving DecidableEq, Repr

/-- An errand packet: the head flit of R167 and its payload flits. -/
structure Packet where
  type : BitVec 8
  dstX : BitVec 8
  dstY : BitVec 8
  dstSub : BitVec 4
  dstUnit : BitVec 2
  vc : BitVec 1
  srcX : BitVec 8
  srcY : BitVec 8
  srcSub : BitVec 4
  srcUnit : BitVec 2
  job : BitVec 16
  jgen : BitVec 8
  inl : BitVec 40
  payload : List (BitVec 128)
deriving DecidableEq, Repr

/-- What the check of a read finds (R426): no error, a corrected one, or an uncorrectable one. -/
inductive Ecc where
  | clean | corrected | uncorrectable
deriving DecidableEq, Repr

/-- An entry of the booking file of a ledger (R194): the attribute word of CORE_BOOK_n and the term of its booked value. -/
structure BookEntry where
  attr : BitVec 64
  term : BitVec 128
deriving DecidableEq, Repr

/-- What an image loads into one core (R127, R140, R194, R252): the program, the descriptor block, the endpoint and tally entries by
number, the booking entries, and the initial slot and stage of its rank. -/
structure CoreLoad where
  core : CoreId
  im : List (BitVec 32)
  desc : List (BitVec 128)
  eps : List (BitVec 128)
  tqs : List (BitVec 768)
  books : List BookEntry
  slot : BitVec 8
  stage : BitVec 8
deriving DecidableEq, Repr

/-- The route banks of one router (R152, R158). -/
structure RouteLoad where
  router : CoreId
  bankA : List (BitVec 32)
  bankB : List (BitVec 32)
deriving DecidableEq, Repr

/-- One byte of a lane plan (R212): stack, edge router column, page and slot. -/
structure LaneByte where
  stack : BitVec 3
  x : BitVec 8
  page : BitVec 3
  slot : BitVec 12
  byte : Byte
deriving DecidableEq, Repr

/-- An entry of a port's flow table (R258 to R261): LINK_FLOW_n and, for an egress flow, the depth of the peer's ingress flow
(R260). -/
structure FlowLoad where
  port : BitVec 7
  flow : BitVec 7
  entry : BitVec 128
  peerDepth : BitVec 8
deriving DecidableEq, Repr

/-- The load set of one variant, or of one absence plan of a variant (R186, R273): everything the Warden loads per core and per
device.  `epochs` are the MESH_EPOCH_n, `ports` the LINK_PORT_CFG, `stepCfg` is WARD_STEP_CFG, and `fences` are the shard-ready
fences, by stack, that a step declares (R275). -/
structure LoadSet where
  variant : BitVec 4
  plan : BitVec 8
  cores : List CoreLoad
  routes : List RouteLoad
  epochs : List (BitVec 64)
  lanePlan : List LaneByte
  ports : List (BitVec 7 × BitVec 64)
  flows : List FlowLoad
  stepCfg : BitVec 32
  fences : List (BitVec 3 × BitVec 12)
deriving DecidableEq, Repr

/-- The part of a job image that a device loads: the load-set sections with their headers, as SHA-256 takes them (R338), and what they
hold.  `buckets` are the sizes of dimensions 1 to 7, `vars` the bucket indices of each variant (R186); `clerks` the CLERK_CTX_n of each
Clerk (R227); `pools` the credit pools of each Porter (R221); `peers` the low 64 bits of WARD_Q_n of the peer queues (R325); `parent`
and `children` the combining tree (R367); `loader` the complex and the section of the input loader, `orchestrator` the complex of
the orchestrator (R359, R361). -/
structure Image where
  bytes : List Byte
  buckets : List (List (BitVec 16))
  vars : List (List (BitVec 3))
  tiers : BitVec 64
  sets : List LoadSet
  programs : List (BitVec 4 × List (BitVec 32))
  clerks : List (BitVec 128)
  pools : List (List (BitVec 16))
  skip : BitVec 64
  peers : List (BitVec 6 × BitVec 64)
  parent : Option (BitVec 7)
  children : Nat
  loader : Option (BitVec 2 × BitVec 2048)
  orchestrator : Option (BitVec 2)
deriving DecidableEq, Repr

/-- An entry that the input loader writes, with what its configuration says of the ring (R361, R362): job, step, micro-batch, M, the
ring's virtual address, the sequence lengths, the sequence length L, the token IDs with their padding, the counter and the first-stage
cores. -/
structure InputEntry where
  job : BitVec 16
  step : BitVec 32
  micro : BitVec 16
  m : BitVec 16
  ring : BitVec 40
  lengths : List (BitVec 32)
  seqLen : BitVec 16
  tokens : List (BitVec 32)
  ctr : BitVec 6
  cores : List CoreId
deriving DecidableEq, Repr

/-- A descriptor of a state copy on VL3 flow 0 (R360, R368): HBM address of the buffer, rows, and port. -/
structure StateRows where
  addr : BitVec 48
  rows : BitVec 16
  port : BitVec 7
deriving DecidableEq, Repr

/-- Who makes a register access (R446, R448): Naeno, host software through PF0's BAR0, or a Broker hart. -/
inductive Requester where
  | naeno | pf0
  | hart (h : BitVec 6)
deriving DecidableEq, Repr

/-- A PCIe configuration request of a function, as the device can tell it apart (R307, R313): one that the endpoint's standard configuration
space answers, or a write of an MSI-X vector's mask bit. -/
inductive ConfigReq where
  | access
  | msixMask (vector : BitVec 6) (masked : Bool)
deriving DecidableEq, Repr

/-- What the probe of the boot flash finds (R322, R371): the size that a valid SFDP table gives, and by region the contents whose directory
CRC matches. -/
structure FlashProbe where
  size : Option Nat
  regions : List (BitVec 3 × List Byte)
deriving DecidableEq, Repr

/-- The commands the block takes, one constructor per row of the table.  A core instruction carries the core that its
sequencer belongs to and bits [25:0] of its word (R35); the major opcode is the constructor's.  `w` is the number of
ck that passed since the instruction was last presented and could not issue. -/
inductive Instr where

  /-- ALU (R38). Register-register integer operation selected by func. -/
  | alu (c : CoreId) (f : BitVec 26)
  /-- ADDI (R38). Adds a sign-extended immediate to a register. -/
  | addi (c : CoreId) (f : BitVec 26)
  /-- ANDI (R38). ANDs a register with an immediate. -/
  | andi (c : CoreId) (f : BitVec 26)
  /-- ORI (R38). ORs a register with an immediate. -/
  | ori (c : CoreId) (f : BitVec 26)
  /-- XORI (R38). XORs a register with an immediate. -/
  | xori (c : CoreId) (f : BitVec 26)
  /-- SHI (R38). Shifts a register by an immediate amount. -/
  | shi (c : CoreId) (f : BitVec 26)
  /-- LUI (R38). Loads an immediate shifted left by 16 into a register. -/
  | lui (c : CoreId) (f : BitVec 26)
  /-- SLTI (R38). Signed compare of a register against an immediate. -/
  | slti (c : CoreId) (f : BitVec 26)
  /-- BEQ (R39). Branches when two registers are equal. -/
  | beq (c : CoreId) (f : BitVec 26)
  /-- BNE (R39). Branches when two registers differ. -/
  | bne (c : CoreId) (f : BitVec 26)
  /-- BLT (R39). Branches on signed less than. -/
  | blt (c : CoreId) (f : BitVec 26)
  /-- BGE (R39). Branches on signed greater or equal. -/
  | bge (c : CoreId) (f : BitVec 26)
  /-- BLTU (R39). Branches on unsigned less than. -/
  | bltu (c : CoreId) (f : BitVec 26)
  /-- BGEU (R39). Branches on unsigned greater or equal. -/
  | bgeu (c : CoreId) (f : BitVec 26)
  /-- JAL (R39). Jumps by an offset and links the return index. -/
  | jal (c : CoreId) (f : BitVec 26)
  /-- JALR (R39). Jumps to a register plus an offset and links. -/
  | jalr (c : CoreId) (f : BitVec 26)
  /-- LB (R40). Loads a sign-extended byte. -/
  | lb (c : CoreId) (f : BitVec 26) (w : Nat)
  /-- LBU (R40). Loads a zero-extended byte. -/
  | lbu (c : CoreId) (f : BitVec 26) (w : Nat)
  /-- LH (R40). Loads a sign-extended halfword. -/
  | lh (c : CoreId) (f : BitVec 26) (w : Nat)
  /-- LHU (R40). Loads a zero-extended halfword. -/
  | lhu (c : CoreId) (f : BitVec 26) (w : Nat)
  /-- LW (R40). Loads a sign-extended word. -/
  | lw (c : CoreId) (f : BitVec 26) (w : Nat)
  /-- LWU (R40). Loads a zero-extended word. -/
  | lwu (c : CoreId) (f : BitVec 26) (w : Nat)
  /-- LD (R40). Loads a doubleword. -/
  | ld (c : CoreId) (f : BitVec 26) (w : Nat)
  /-- SB (R40). Issues a byte store. -/
  | sb (c : CoreId) (f : BitVec 26) (w : Nat)
  /-- SH (R40). Issues a halfword store. -/
  | sh (c : CoreId) (f : BitVec 26) (w : Nat)
  /-- SW (R40). Issues a word store. -/
  | sw (c : CoreId) (f : BitVec 26) (w : Nat)
  /-- SD (R40). Issues a doubleword store. -/
  | sd (c : CoreId) (f : BitVec 26) (w : Nat)
  /-- STORE_RETIRE (R40). The oldest issued store of the core changes its row. -/
  | storeRetire (c : CoreId)
  /-- DLD (R40). Loads a 16-byte tensor descriptor into a descriptor register. -/
  | dld (c : CoreId) (f : BitVec 26) (w : Nat)
  /-- DST (R40). Stores a descriptor register to memory. -/
  | dst (c : CoreId) (f : BitVec 26) (w : Nat)
  /-- DSET (R40). Sets one field of a descriptor register from a general register. -/
  | dset (c : CoreId) (f : BitVec 26)
  /-- VOP (R41). Runs a vector elementwise or row-reduction operation, blocking the sequencer until its last row retires. -/
  | vop (c : CoreId) (f : BitVec 26) (w : Nat)
  /-- TMM (R42). Issues a matrix tile multiply onto the matrix engine. -/
  | tmm (c : CoreId) (f : BitVec 26) (w : Nat)
  /-- TMM_COMPLETE (R175). The matrix engine finishes a tile, writes its last accumulator block and advances the counter. -/
  | tmmComplete (c : CoreId)
  /-- TCVT (R42). Issues a conversion copy onto the tensor mover. -/
  | tcvt (c : CoreId) (f : BitVec 26) (w : Nat)
  /-- TCVT_COMPLETE (R472). The tensor mover writes the last destination row of a TCVT and advances its counter. -/
  | tcvtComplete (c : CoreId)
  /-- TSCAT (R42). Issues a scatter-add of rows into PM onto the tensor mover. -/
  | tscat (c : CoreId) (f : BitVec 26) (w : Nat)
  /-- SCATTER_ROW_ADD (R102). One ck of the core's scatter path under R102; `portFree` says whether no higher requester holds the PM port in it. -/
  | scatterRowAdd (c : CoreId) (portFree : Bool)
  /-- TSCAT_COMPLETE (R102). A TSCAT's last row add ends and its counter advances. -/
  | tscatComplete (c : CoreId)
  /-- SEND (R130). Checks rank and sends a tensor as one message on a send endpoint, blocking for a credit. -/
  | send (c : CoreId) (f : BitVec 26) (w : Nat)
  /-- RECV (R134). Waits for a message on a receive endpoint and returns its descriptor, raising CSR_RANK. -/
  | recv (c : CoreId) (f : BitVec 26) (w : Nat)
  /-- RREL (R133). Frees the head message of a receive endpoint and returns its credit. -/
  | rrel (c : CoreId) (f : BitVec 26) (w : Nat)
  /-- POLL (R44). Returns the count of complete messages in an endpoint queue without blocking. -/
  | poll (c : CoreId) (f : BitVec 26)
  /-- WAITC (R30). Waits until a counter meets an immediate target. -/
  | waitc (c : CoreId) (f : BitVec 26)
  /-- WAITCR (R30). Waits until a counter meets a register target. -/
  | waitcr (c : CoreId) (f : BitVec 26)
  /-- COUNTER_WAIT_RETIRE (R30). The core's waiting WAITC or WAITCR retires after a wait of `w` ck. -/
  | counterWaitRetire (c : CoreId) (w : Nat)
  /-- CSETC (R31). Sets a counter from a register. -/
  | csetc (c : CoreId) (f : BitVec 26)
  /-- CRD (R31). Reads a counter into a register. -/
  | crd (c : CoreId) (f : BitVec 26)
  /-- PREQ (R44). Sends a Porter descriptor or Clerk request over the errand network to a stack service port. -/
  | preq (c : CoreId) (f : BitVec 26) (w : Nat)
  /-- FENCE (R44). Waits for the selected classes of outstanding work to complete. -/
  | fence (c : CoreId) (f : BitVec 26) (w : Nat)
  /-- RANKUP (R44). Raises CSR_RANK to an immediate rank. -/
  | rankup (c : CoreId) (f : BitVec 26)
  /-- SLOTNEXT (R44). Advances CSR_RANK to the next slot with stage 0. -/
  | slotnext (c : CoreId) (f : BitVec 26)
  /-- CSRR (R34). Reads a core CSR into a register. -/
  | csrr (c : CoreId) (f : BitVec 26)
  /-- CSRW (R34). Writes a core CSR under its field types. -/
  | csrw (c : CoreId) (f : BitVec 26)
  /-- ERRINC (R44). Adds an immediate to a counter of another core of the job, or votes for an epoch turn. -/
  | errinc (c : CoreId) (f : BitVec 26) (w : Nat)
  /-- HALT (R44). Waits for outstanding work, then halts the core with an exit code and closes its endpoints. -/
  | halt (c : CoreId) (f : BitVec 26) (w : Nat)
  /-- ROW_ARRIVAL (R115). A row reaches the core's network interface; `portFree` says whether no local requester and no tally release holds the target port in the arrival ck. -/
  | rowArrival (c : CoreId) (r : Row) (portFree : Bool)
  /-- REMOTE_QUEUE_RETIRE (R115). The head of the remote queue of WM, AM, PM or stock (0 to 3) takes the port. -/
  | remoteQueueRetire (c : CoreId) (m : BitVec 2)
  /-- TALLY_HEADER_CLASSIFY (R143). The oldest unclassified contribution header of tally queue `q` is classified in ck `t`. -/
  | tallyHeaderClassify (c : CoreId) (q : BitVec 3) (t : Nat)
  /-- TALLY_ROW_ADD (R144). The contribution row at the head of PM's remote queue adds into its next accumulator row. -/
  | tallyRowAdd (c : CoreId)
  /-- TALLY_DEADLINE (R145). The end of ck `t` is reached for tally queue `q`. -/
  | tallyDeadline (c : CoreId) (q : BitVec 3) (t : Nat)
  /-- TALLY_RELEASE (R146). A closed tally queue releases its rounded sums as a message to its output endpoint. -/
  | tallyRelease (c : CoreId) (q : BitVec 3)
  /-- TALLY_RELEASE_END (R146). The release's last row retires, the slot advances and CREDITs go to the contributor rectangle. -/
  | tallyReleaseEnd (c : CoreId) (q : BitVec 3)
  /-- CREDIT (R134). A CREDIT packet arrives and adds credit to matching send endpoints. -/
  | creditArrival (p : Packet)
  /-- RECEIPT (R139). A RECEIPT packet arrives and marks receivers gone at matching send endpoints. -/
  | receiptArrival (p : Packet)
  /-- ERRINC_ARRIVAL (R168). An ERRINC packet arrives at a core and adds to its counter. -/
  | errincArrival (p : Packet)
  /-- DONE (R218). A Porter or Clerk completion packet reaches its requester. -/
  | doneArrival (p : Packet)
  /-- ROUTER_SLOT (R154). Router `r` runs its slot of ck `ck`; `e` is the outcome of the check of its slot word. -/
  | routerSlot (r : CoreId) (ck : Nat) (e : Ecc)
  /-- SCHEDULE_FILL (R162). A row with tag 0xFF reaches router `c`'s L output and writes slot words into the idle bank. -/
  | scheduleFill (c : CoreId) (r : Row)
  /-- EPOCH_VOTE (R159). An ERRINC packet to 0xFEFE reaches the epoch controller in ck `ck`. -/
  | epochVote (p : Packet) (ck : Nat)
  /-- TURN (R160). The TURN packet of the pending turn reaches router `c` in ck `ck`. -/
  | turn (c : CoreId) (ck : Nat)
  /-- TURN_DRAIN_START (R160). At T_turn minus drain, routers stop taking rows from L, H and O. -/
  | turnDrainStart
  /-- BANK_TURN (R160). At T_turn every router starts slot 0 of the other bank and the turn counter gains 1. -/
  | bankTurn
  /-- SPOT_CHECK_SELECT (R106). An arcade's random count expires with the TMM last issued by core `c`, which is selected. -/
  | spotCheckSelect (c : CoreId)
  /-- CHECK_ENGINE_REQUEST (R104). The check engine of an arcade serves its next request. -/
  | checkEngineRequest (arcade : BitVec 10)
  /-- SPOT_CHECK_COMPARE (R106). A spot check of core `c` has been recomputed and is compared; `ok` says whether the bits agree. -/
  | spotCheckCompare (c : CoreId) (ok : Bool)
  /-- PATROL_READ (R427). A core patrol reads row number `row` (R22 address divided by 64) of its memories, with the outcome of the check. -/
  | patrolRead (c : CoreId) (row : Nat) (e : Ecc)
  /-- HBM_PATROL (R427). An HBM controller reads line number `line` of stack `k` in an idle slot, with the outcome of the check. -/
  | hbmPatrol (k : BitVec 3) (line : Nat) (e : Ecc)
  /-- DESCRIPTOR_ACCEPT (R211). A PREQ packet reaches a service port of a stack; a Porter checks its descriptor, and accepts or refuses it. -/
  | descriptorAccept (p : Packet)
  /-- PORTER_CREDIT (R221). A PREQ packet with a CREDIT descriptor reaches a Porter. -/
  | porterCredit (p : Packet)
  /-- TRANSFER_START (R213). The head transfer of stream `st` of Porter `p` is tried. -/
  | transferStart (p : BitVec 5) (st : BitVec 2)
  /-- TAG_GRANT (R214). One pclk of Porter `p`'s tag allocator. -/
  | tagGrant (p : BitVec 5)
  /-- PIECE_RETURN (R214). HBM returns the data of piece `n` of transfer `t` of Porter `p`, with the outcome of the check. -/
  | pieceReturn (p : BitVec 5) (t n : Nat) (e : Ecc)
  /-- PIECE_TIMEOUT (R222). piece `n` of transfer `t` of Porter `p` has not returned within the timeout. -/
  | pieceTimeout (p : BitVec 5) (t n : Nat)
  /-- GATED_CREDIT_TAKE (R221). The gated LOAD at the head of stream `st` of Porter `p` takes a credit. -/
  | gatedCreditTake (p : BitVec 5) (st : BitVec 2)
  /-- STORE_CMD (R219). A STORE's CMD is at its source network interface: its header row goes to the stream with the first command, and one row is read with each further one; `portFree` is as for ROW_ARRIVAL. -/
  | storeCmd (p : Packet) (portFree : Bool)
  /-- STORE_ROW_ARRIVAL (R219). A row reaches the Porters of stack `k` through an H output. -/
  | storeRowArrival (k : BitVec 3) (r : Row)
  /-- PIECE_WRITE_ACK (R215). HBM acknowledges the write of piece `n` of transfer `t` of Porter `p`. -/
  | pieceWriteAck (p : BitVec 5) (t n : Nat)
  /-- FENCE_POST_ARRIVAL (R220). The oldest fence post for stack `k` reaches its Porters. -/
  | fencePostArrival (k : BitVec 3)
  /-- STACK_FAIL (R224). Naeno marks stack `k` failed. -/
  | stackFail (k : BitVec 3)
  /-- CLERK_REQUEST (R230). A packet reaches the service port of a Clerk, which queues the request or refuses it. -/
  | clerkRequest (p : Packet)
  /-- UPDATE (R238). The UPDATE request at the head of the queue of Clerk `k` is started, skipped or refused. -/
  | update (k : BitVec 4)
  /-- SCAN (R239). The SCAN request at the head of the queue of Clerk `k` runs. -/
  | scan (k : BitVec 4)
  /-- NORM (R241). The NORM request at the head of the queue of Clerk `k` runs. -/
  | norm (k : BitVec 4)
  /-- EXPORT (R244). The EXPORT request at the head of the queue of Clerk `k` runs. -/
  | exportRecord (k : BitVec 4)
  /-- CLERK_ROW_COMMIT (R237). The next row of the UPDATE in service in the queue of Clerk `k` is applied. -/
  | clerkRowCommit (k : BitVec 4)
  /-- CLERK_WATCHDOG (R242). Clerk `k` has held a request and applied no row for the watchdog time. -/
  | clerkWatchdog (k : BitVec 4)
  /-- CLERK_FAIL (R242). Naeno writes CLERK_CFG.fail of Clerk `k`. -/
  | clerkFail (k : BitVec 4)
  /-- CLERK_TAKEBACK (R243). Clerk `k`, reset and checked, takes its queue back at a request boundary. -/
  | clerkTakeback (k : BitVec 4)
  /-- EGRESS_TRANSMIT (R258). The egress relay of port `p` starts to transmit the oldest message of flow `f` when it has a credit. -/
  | egressTransmit (p : BitVec 7) (f : BitVec 6)
  /-- EGRESS_MESSAGE_SENT (R258). The last flit of the message that flow `f` of port `p` transmits has left. -/
  | egressMessageSent (p : BitVec 7) (f : BitVec 6)
  /-- INGRESS_MESSAGE (R259). The ingress relay of port `p` presents the next message of flow `f` on its edge router's O lane. -/
  | ingressMessage (p : BitVec 7) (f : BitVec 6)
  /-- NULL_MESSAGE (R261). The gone ingress flow `f` of port `p` presents a null message when it has a credit. -/
  | nullMessage (p : BitVec 7) (f : BitVec 6)
  /-- FLIT_RECEIVE (R291). A flit reaches the receiver of port `p`; `e` is what FEC made of its codewords. -/
  | flitReceive (p : BitVec 7) (x : BitVec 2048) (e : Ecc)
  /-- LINK_MESSAGE (R288). The message at the front of virtual lane `vl` of port `p` is whole and is delivered or discarded. -/
  | linkMessage (p : BitVec 7) (vl : BitVec 2)
  /-- NOP_SYMBOL (R289). A NOP symbol with payload `y` and check bytes `chk` reaches port `p`. -/
  | nopSymbol (p : BitVec 7) (y : BitVec 40) (chk : BitVec 16)
  /-- ACK (R291). An ACK symbol reaches port `p` and frees acknowledged flits. -/
  | ack (p : BitVec 7) (y : BitVec 40) (chk : BitVec 16)
  /-- NAK (R291). A NAK symbol reaches port `p` and makes the transmitter replay. -/
  | nak (p : BitVec 7) (y : BitVec 40) (chk : BitVec 16)
  /-- LANE_CREDIT (R292). A LANE_CREDIT symbol reaches port `p`. -/
  | laneCredit (p : BitVec 7) (y : BitVec 40) (chk : BitVec 16)
  /-- FLOW_CREDIT (R290). A FLOW_CREDIT symbol reaches port `p`. -/
  | flowCredit (p : BitVec 7) (y : BitVec 40) (chk : BitVec 16)
  /-- EPOCH_TURN (R300). An EPOCH_TURN symbol reaches port `p`. -/
  | epochTurn (p : BitVec 7) (y : BitVec 40) (chk : BitVec 16)
  /-- ASSAY (R305). An ASSAY symbol reaches port `p`; the fourth part of a tag completes its set. -/
  | assay (p : BitVec 7) (y : BitVec 40) (chk : BitVec 16)
  /-- GOING_DOWN (R301). A GOING_DOWN symbol reaches port `p`. -/
  | goingDown (p : BitVec 7) (y : BitVec 40) (chk : BitVec 16)
  /-- DISCOVER (R299). A DISCOVER symbol reaches port `p`. -/
  | discover (p : BitVec 7) (y : BitVec 40) (chk : BitVec 16)
  /-- SPARE_REQ (R295). A SPARE_REQ symbol reaches port `p` while its transmitter sends codeword `cw`. -/
  | spareReq (p : BitVec 7) (y : BitVec 40) (chk : BitVec 16) (cw : BitVec 32)
  /-- SWAP (R296). A SWAP symbol reaches port `p` while it receives codeword `cw`. -/
  | swap (p : BitVec 7) (y : BitVec 40) (chk : BitVec 16) (cw : BitVec 32)
  /-- ALIGN (R283). An ALIGN symbol reaches port `p` in an ALIGN codeword. -/
  | align (p : BitVec 7) (y : BitVec 40) (chk : BitVec 16)
  /-- TRAIN (R297). A TRAIN symbol reaches port `p`. -/
  | train (p : BitVec 7) (y : BitVec 40) (chk : BitVec 16)
  /-- ACK_TIMER (R289). The ACK interval expires and an ACK is sent. -/
  | ackTimer (p : BitVec 7)
  /-- NAK_REPEAT (R291). The NAK repeat interval expires and the NAK is sent again. -/
  | nakRepeat (p : BitVec 7)
  /-- CREDIT_REFRESH (R289). Every 10 µs the port resends every lane and flow credit total. -/
  | creditRefresh (p : BitVec 7)
  /-- ASSAY_REPEAT (R304). The assay repeat interval expires and an ASSAY block is sent. -/
  | assayRepeat (p : BitVec 7)
  /-- DISCOVER_REPEAT (R289). DISCOVER is resent every 1 ms. -/
  | discoverRepeat (p : BitVec 7)
  /-- LANE_SPARE_TRIGGER (R295). Lane `lane` of port `p` must be spared; `tx` when the transmit ring or the laser input is at fault, with the transmitter at codeword `cw`. -/
  | laneSpareTrigger (p : BitVec 7) (lane : BitVec 4) (tx : Bool) (cw : BitVec 32)
  /-- SWAP_AT_K (R296). The receiver of port `p` reaches codeword K of the sparing of a lane. -/
  | swapAtK (p : BitVec 7) (lane : BitVec 4)
  /-- SPARE_OLD_STOP (R296). The transmitter of port `p` reaches codeword K + 256 of the sparing of a lane. -/
  | spareOldStop (p : BitVec 7) (lane : BitVec 4)
  /-- RING_LOCK_LOSS (R280). The transmit or receive ring of wavelength `wl` of port `p` loses lock, with the transmitter at codeword `cw`. -/
  | ringLockLoss (p : BitVec 7) (tx : Bool) (wl : BitVec 5) (cw : BitVec 32)
  /-- LINK_STATE_DONE (R297). The work of port `p`'s link state completes; `rings` are the rings that have locked, transmit rings in LOCK and receive rings in TRAIN. -/
  | linkStateDone (p : BitVec 7) (rings : BitVec 18)
  /-- LINK_STATE_TIMEOUT (R297). A link state's time limit expires and the port moves to LOST or TRAIN. -/
  | linkStateTimeout (p : BitVec 7)
  /-- LOST_RETRY (R297). Every 1 s a LOST port with light returns to LOCK. -/
  | lostRetry (p : BitVec 7)
  /-- PCIE_CONFIG_REQUEST (R307). Function `f` gets configuration request `r`. -/
  | pcieConfigRequest (f : BitVec 4) (r : ConfigReq)
  /-- BAR0_ACCESS (R309). The host reads `n` bytes at BAR0 address `a`, or writes them if a value is given. -/
  | bar0Access (a : BitVec 26) (n : BitVec 7) (w : Option (BitVec 64))
  /-- BAR2_ACCESS (R310). Function `f` reads `n` bytes at offset `o` of its HBM window, or writes the bytes of `w` with its EP bit. -/
  | bar2Access (f : BitVec 4) (o : BitVec 36) (n : BitVec 13) (w : Option (List Byte × Bool))
  /-- DOORBELL (R312). Function `f` writes `v` at offset `o` of doorbell page `q`. -/
  | doorbell (f : BitVec 4) (q : BitVec 6) (o : BitVec 12) (v : BitVec 32)
  /-- FLR (R314). A function-level reset of function `f`. -/
  | flr (f : BitVec 4)
  /-- HOT_RESET (R314). A PCIe hot reset, or a link-down if `down`. -/
  | hotReset (down : Bool)
  /-- PERST_N (R462). PERST_N takes a level. -/
  | perstN (high : Bool)
  /-- ETH_FRAME_RECEIVE (R318). A frame, without its FCS, arrives at port `p`; `good` says whether the FCS matches. -/
  | ethFrameReceive (p : BitVec 1) (frame : List Byte) (good : Bool)
  /-- ETH_FRAME_TRANSMIT (R317). Port `p` sends the frame of the next posted descriptor of transmit ring `q`. -/
  | ethFrameTransmit (p : BitVec 1) (q : BitVec 4)
  /-- ETH_RING_WRITE (R452). A write of the lower or upper 8 bytes of a ring register. -/
  | ethRingWrite (who : Requester) (p : BitVec 1) (tx : Bool) (q : BitVec 4) (upper : Bool) (v : BitVec 64)
  /-- ENEC (R319). I3C CCC enabling target events. -/
  | enec
  /-- DISEC (R319). I3C CCC disabling target events. -/
  | disec
  /-- RSTDAA (R319). I3C CCC resetting the dynamic address. -/
  | rstdaa
  /-- SETDASA (R319). I3C CCC setting dynamic address `a` from the static address. -/
  | setdasa (a : BitVec 7)
  /-- SETAASA (R319). I3C CCC setting the static address as dynamic address. -/
  | setaasa
  /-- GETPID (R319). I3C CCC returning the provisional ID. -/
  | getpid
  /-- GETBCR (R319). I3C CCC returning the bus characteristics register. -/
  | getbcr
  /-- GETDCR (R319). I3C CCC returning the device characteristics register. -/
  | getdcr
  /-- GETSTATUS (R319). I3C CCC returning target status. -/
  | getstatus
  /-- GETMXDS (R319). I3C CCC returning maximum data speed. -/
  | getmxds
  /-- I3C_REGISTER_ACCESS (R320). The BMC may write the pointer, writes the bytes `bs` and reads `n` bytes. -/
  | i3cRegisterAccess (ptr : Option (BitVec 8)) (bs : List Byte) (n : BitVec 9)
  /-- MBOX_GO (R321). Writing go submits the I3C mailbox command to queue 63. -/
  | mboxGo
  /-- IDCODE (R323). JTAG instruction selecting the IDCODE register. -/
  | idcode
  /-- SAMPLE_PRELOAD (R323). JTAG instruction sampling and preloading the boundary chain; `pins` are the levels of the low-speed balls. -/
  | samplePreload (pins : BitVec 33)
  /-- EXTEST (R323). JTAG instruction driving the boundary chain while reset is asserted. -/
  | extest
  /-- CLAMP (R323). JTAG instruction clamping outputs while reset is asserted. -/
  | clamp
  /-- HIGHZ (R323). JTAG instruction floating outputs while reset is asserted. -/
  | highz
  /-- BYPASS (R323). JTAG instruction selecting the bypass register. -/
  | bypass
  /-- COMMAND_FETCH (R330). Naeno fetches the next command; `x` is what host memory holds in the ring slot of a host queue. -/
  | commandFetch (x : BitVec 512)
  /-- COMMAND_START (R331). The fetched command number `n` starts once its barrier, turn and resources allow. -/
  | commandStart (n : Nat)
  /-- RESOURCE_GRANT (R340). The first waiting command whose whole resource set is free takes it. -/
  | resourceGrant
  /-- COMMAND_TIMEOUT (R332). The timeout of the waiting command number `n` expires. -/
  | commandTimeout (n : Nat)
  /-- DELEGATE_RESULT (R343). The Broker slot of the delegated command number `n` returns its result. -/
  | delegateResult (n : Nat) (status : BitVec 16) (detail : BitVec 32) (result : BitVec 192)
  /-- NOP (R336). Command number `n`, which has begun its work, does nothing. -/
  | nop (n : Nat)
  /-- DEV_INFO (R336). Command number `n` returns grade, DEVNUM, firmware version and active Warden. -/
  | devInfo (n : Nat)
  /-- SET_DEVNUM (R336). Command number `n` sets the device number. -/
  | setDevnum (n : Nat)
  /-- WARM_RESET (R385). Command number `n` resets everything outside the always-on domain. -/
  | warmReset (n : Nat)
  /-- MEM_ALLOC (R474). Command number `n` grants HBM pages to a job. -/
  | memAlloc (n : Nat)
  /-- MEM_FREE (R336). Command number `n` frees a job's HBM pages. -/
  | memFree (n : Nat)
  /-- MEM_FILL (R336). Command number `n` fills job memory with a pattern. -/
  | memFill (n : Nat)
  /-- MEM_COPY (R336). Command number `n` copies job memory. -/
  | memCopy (n : Nat)
  /-- WIN_SET (R336). Command number `n` sets a function's BAR2 window. -/
  | winSet (n : Nat)
  /-- QUOTA_SET (R341). Command number `n` sets a job's page quota. -/
  | quotaSet (n : Nat)
  /-- JOB_CREATE (R389). Command number `n` creates a job with the next ID and generation. -/
  | jobCreate (n : Nat)
  /-- IMAGE_LOAD (R338). Command number `n` loads a job image after checking its load-set digest; `img` is what the image's bytes hold for this device. -/
  | imageLoad (n : Nat) (img : Image)
  /-- JOB_START (R337). Command number `n` sets the job seed and launches the first step. -/
  | jobStart (n : Nat)
  /-- STEP_LAUNCH (R337). Command number `n` launches the next step. -/
  | stepLaunch (n : Nat)
  /-- STEP_VERDICT (R336). Command number `n` sets the step verdict under external skip. -/
  | stepVerdict (n : Nat)
  /-- JOB_KILL (R386). Command number `n` tears a job down, optionally holding it. -/
  | jobKill (n : Nat)
  /-- JOB_RELEASE (R388). Command number `n` scrubs and releases a held job. -/
  | jobRelease (n : Nat)
  /-- JOB_STATUS (R336). Command number `n` returns a job's step and gate state. -/
  | jobStatus (n : Nat)
  /-- CORE_RESET (R378). Command number `n` resets a core, arcade or hall of a job. -/
  | coreReset (n : Nat)
  /-- PLAN_LOAD (R273). Command number `n` loads an absence plan or the ring plan. -/
  | planLoad (n : Nat)
  /-- LINK_UP (R336). Command number `n` starts ports from OFF. -/
  | linkUp (n : Nat)
  /-- LINK_DOWN (R336). Command number `n` takes ports down. -/
  | linkDown (n : Nat)
  /-- FLOW_LOAD (R336). Command number `n` loads a port's flow table. -/
  | flowLoad (n : Nat)
  /-- LINK_STATUS (R336). Command number `n` returns a port's link state. -/
  | linkStatus (n : Nat)
  /-- TEL_SNAPSHOT (R450). Command number `n` writes register blocks to memory. -/
  | telSnapshot (n : Nat)
  /-- TEL_ERRORS (R336). Command number `n` returns open error counts. -/
  | telErrors (n : Nat)
  /-- CKPT_EXPORT (R364). Command number `n` exports shard records: `staging` are the serving Clerk and staging address of each shard in order, `refused` is the first shard that storage refuses. -/
  | ckptExport (n : Nat) (staging : List (BitVec 4 × BitVec 40)) (refused : Option (BitVec 16))
  /-- STATE_IMPORT (R365). Command number `n` imports shard records: `records` are the serving Clerk of each shard in order and what storage holds for it. -/
  | stateImport (n : Nat) (records : List (BitVec 4 × List Byte))
  /-- DBG_READ (R442). Command number `n` reads a debug space under an unlock. -/
  | dbgRead (n : Nat)
  /-- DBG_WRITE (R442). Command number `n` writes a debug space under an unlock. -/
  | dbgWrite (n : Nat)
  /-- DBG_CHALLENGE (R441). Command number `n` returns a debug challenge. -/
  | dbgChallenge (n : Nat)
  /-- DBG_RESPONSE (R441). Command number `n` checks a signed debug response and unlocks. -/
  | dbgResponse (n : Nat)
  /-- PWR_CAP (R417). Command number `n` sets the power cap. -/
  | pwrCap (n : Nat)
  /-- PWR_DOMAIN (R410). Command number `n` changes a power domain's state. -/
  | pwrDomain (n : Nat)
  /-- PWR_STATUS (R336). Command number `n` returns power, cap and temperature. -/
  | pwrStatus (n : Nat)
  /-- FLASH_WRITE (R372). Command number `n` writes a flash region after its checks. -/
  | flashWrite (n : Nat)
  /-- OVERLAY_LOAD (R405). Command number `n` checks and stores a calibration overlay. -/
  | overlayLoad (n : Nat)
  /-- BROKER_IMAGE (R356). Command number `n` loads a Broker image into complexes. -/
  | brokerImage (n : Nat)
  /-- OWNER_KEY_SET (R439). Command number `n` installs an owner key certificate. -/
  | ownerKeySet (n : Nat)
  /-- WARDEN_HEARTBEAT (R344). A millisecond ends: the active Warden writes its heartbeat and mirrors its state. -/
  | wardenHeartbeat
  /-- WARDEN_TAKEOVER (R345). A standby has seen no heartbeat for 3 ms, takes over and resolves the journal. -/
  | wardenTakeover
  /-- STEP_START (R251). The Warden starts every core of job `job` for the launched step in ck `ck`, once the gate conditions hold. -/
  | stepStart (job : BitVec 16) (ck : Nat)
  /-- VARIANT_LOAD (R188). The Warden loads the variant and absence plan that the pending launch of job `job` needs. -/
  | variantLoad (job : BitVec 16)
  /-- STEP_RESOLVE (R384). Naeno goes on with the resolution of the step that job `job` lost to a reset. -/
  | stepResolve (job : BitVec 16)
  /-- CORE_FAULT_REPORT (R49). The REPORT packet `p` of a core reaches Naeno through its arcade controller. -/
  | coreFaultReport (p : Packet)
  /-- REMAP (R401). At a step boundary the row of core `c`, whose matrix engine is faulty, begins to shift its state to a spare. -/
  | remap (c : CoreId)
  /-- REMAP_END (R401). The remap copy of row record `row` completes and the running map changes. -/
  | remapEnd (row : BitVec 8)
  /-- STEP_RECEIPT (R275). Naeno writes the oldest receipt of job `job` whose fences have posted. -/
  | stepReceipt (job : BitVec 16)
  /-- KILL_DRAIN_END (R386). A killed job's drain ends and the SRAM scrub starts. -/
  | killDrainEnd (job : BitVec 16)
  /-- SRAM_SCRUB_END (R386). The SRAM scrub ends and the HBM scrub starts. -/
  | sramScrubEnd (job : BitVec 16)
  /-- HBM_SCRUB_END (R386). The HBM scrub ends, resources are released and the kill is replied. -/
  | hbmScrubEnd (job : BitVec 16)
  /-- QUIET_END (R390). A job ID's quiet period expires and it becomes reusable. -/
  | quietEnd (job : BitVec 16)
  /-- REJOIN_PAUSE (R274). Job `job` pauses for the state copy of a rejoin: the orchestrator posts `sends` on VL3 flow 0, and on the rejoining device writes arrived rows into the buffers of `into`. -/
  | rejoinPause (job : BitVec 16) (sends : List StateRows) (into : List StateRows)
  /-- RD_S (R353). Complex `cpx` asks the home of line `line` (physical address ÷ 64) for the line as a sharer. -/
  | rdS (cpx : BitVec 2) (line : BitVec 34)
  /-- RD_O (R353). Complex `cpx` asks the home of line `line` for the line as owner. -/
  | rdO (cpx : BitVec 2) (line : BitVec 34)
  /-- EVICT_C (R354). A clean line: with `home` = false it leaves complex `cpx` into the eviction buffer, with `home` = true its EVICT_C reaches home. -/
  | evictC (cpx : BitVec 2) (line : BitVec 34) (home : Bool)
  /-- EVICT_D (R354). A dirty line with its data: with `home` = false it leaves complex `cpx` into the eviction buffer, with `home` = true its EVICT_D reaches home (`data` counts only when it leaves). -/
  | evictD (cpx : BitVec 2) (line : BitVec 34) (data : RowData) (home : Bool)
  /-- SNP_S (R353). A SNP_S of home reaches complex `cpx`, whose caches hold the line dirty with the data given, if any. -/
  | snpS (cpx : BitVec 2) (line : BitVec 34) (dirty : Option RowData)
  /-- SNP_I (R353). A SNP_I of home reaches complex `cpx`, whose caches hold the line dirty with the data given, if any. -/
  | snpI (cpx : BitVec 2) (line : BitVec 34) (dirty : Option RowData)
  /-- WB_ACK (R354). Home acknowledges an eviction and the buffer entry frees. -/
  | wbAck (cpx : BitVec 2) (line : BitVec 34)
  /-- SNOOP_RESPONSE (R354). A snoop response reaches home and is used or discarded. -/
  | snoopResponse (cpx : BitVec 2) (line : BitVec 34)
  /-- ERRAND_SEND (R358). Hart `h` writes go of its BRK_ESEND register, whose head and payload stand as written. -/
  | errandSend (h : BitVec 6)
  /-- INPUT_ENTRY_READY (R362). The input loader completes an input ring entry and signals the first-stage cores. -/
  | inputEntryReady (x : InputEntry)
  /-- ABSENT (R272). The orchestrator takes the oldest ABSENT message that has arrived. -/
  | absent
  /-- REJOIN (R274). The orchestrator takes the oldest REJOIN message that has arrived. -/
  | rejoin
  /-- ACCEPT (R368). The orchestrator takes the oldest ACCEPT message that has arrived. -/
  | accept
  /-- NFSUM (R367). The orchestrator takes the oldest NFSUM message that has arrived. -/
  | nfsum
  /-- VERDICT (R367). The orchestrator takes the oldest VERDICT message that has arrived. -/
  | verdict
  /-- TELEMETRY_COPY (R369). The telemetry agent copies the latched account of core `c`, or the last receipt when no core is named. -/
  | telemetryCopy (c : Option CoreId)
  /-- ACCOUNT_RELEASE (R203). `who` writes 1 to CORE_ACCT_HDR.valid of the core that its CORE_SEL names. -/
  | accountRelease (who : Requester)
  /-- QUEUE_ENABLE (R326). `who` writes the first 8 bytes of WARD_Q_q. -/
  | queueEnable (who : Requester) (q : BitVec 6) (v : BitVec 64)
  /-- QUEUE_TAIL_WRITE (R325). Hart `h` writes WARD_Q_q.tail. -/
  | queueTailWrite (h q : BitVec 6) (tail : BitVec 16)
  /-- ERR_ACK (R433). `who` writes `v` to ERR_ACK. -/
  | errAck (who : Requester) (v : BitVec 32)
  /-- RC_READ (R8). `who` reads the 4, or 8 if `wide`, bytes at address `a`. -/
  | rcRead (who : Requester) (a : BitVec 26) (wide : Bool)
  /-- SCHEDULE_WINDOW_WRITE (R449). Naeno writes at address `a`, which lies in the schedule window or in a stack's page. -/
  | scheduleWindowWrite (a : BitVec 26) (wide : Bool) (v : BitVec 64)
  /-- REGISTER_WRITE (R446). `who` writes the 4, or 8 if `wide`, bytes at address `a` of BAR0 or the Broker register space. -/
  | registerWrite (who : Requester) (a : BitVec 26) (wide : Bool) (v : BitVec 64)
  /-- BOOT_STEP_CLOCKS (R375). Host-requested boot step 0x2, which takes `ms` milliseconds; `fail` is the domain of a PLL that does not lock. -/
  | bootStepClocks (ms : BitVec 32) (fail : Option (BitVec 8))
  /-- BOOT_STEP_SRAM (R375). Host-requested boot step 0x3; `fail` is the code of a block beyond repair. -/
  | bootStepSram (ms : BitVec 32) (fail : Option (BitVec 8))
  /-- BOOT_STEP_HBM (R375). Host-requested boot step 0x4; `fail` is a stack that fails. -/
  | bootStepHbm (ms : BitVec 32) (fail : Option (BitVec 3))
  /-- BOOT_STEP_LINKS (R375). Host-requested boot step 0x5. -/
  | bootStepLinks (ms : BitVec 32)
  /-- BOOT_STEP_CORES (R375). Host-requested boot step 0x6; `engines` and `bad` as for BOOT_CORES. -/
  | bootStepCores (ms : BitVec 32) (engines : List (BitVec 10)) (bad : List (BitVec 8 × BitVec 6))
  /-- BOOT_STEP_WARDEN (R376). Host-requested step 0x7 starting Naeno from the flash, where the probe finds `x`, or from BOOT_STAGE. -/
  | bootStepWarden (ms : BitVec 32) (x : FlashProbe)
  /-- BOOT_STAGE_WRITE (R377). A host write of bytes at an offset of the BOOT_STAGE window. -/
  | bootStageWrite (o : BitVec 23) (bs : List Byte)
  /-- BOOT_ROM (R373). Stage 0x1 reads fuses, probes the flash, finding `x`, and verifies and starts Naeno. -/
  | bootRom (x : FlashProbe)
  /-- BOOT_CLOCKS (R373). Stage 0x2 locks PLLs and starts the networks; `fail` is the domain of a PLL that does not lock. -/
  | bootClocks (fail : Option (BitVec 8))
  /-- BOOT_SRAM (R373). Stage 0x3 runs SRAM BIST and repair; `fail` is the code of a block beyond repair. -/
  | bootSram (fail : Option (BitVec 8))
  /-- BOOT_HBM (R373). Stage 0x4 trains and tests the HBM stacks; `fail` is a stack that fails. -/
  | bootHbm (fail : Option (BitVec 3))
  /-- BOOT_LINKS (R373). Stage 0x5 trains the optical ports. -/
  | bootLinks
  /-- BOOT_CORES (R373). Stage 0x6 runs core self-test and loads the Brokers; `engines` are arcades whose check engine fails its signature, `bad` the cores that fail, by row record and column, `warden` a die without a working Warden. -/
  | bootCores (engines : List (BitVec 10)) (bad : List (BitVec 8 × BitVec 6)) (warden : Option (BitVec 2))
  /-- BOOT_READY (R373). Boot sets READY and serves all BARs. -/
  | bootReady
  /-- BOOT_STAGE_TIMEOUT (R373). The boot stage that has begun, or the host's step, passes its limit and boot fails. -/
  | bootStageTimeout
  /-- COLD_RESET (R461). RESET_N falls and resets every domain, or rises with the straps BOOT_SRC and LINK_AUTO and restarts boot. -/
  | coldReset (straps : Option (Bool × Bool))
  /-- RAIL_FAULT (R463). A monitored rail, one of the always-on domain if `ao`, is below its range for 2 µs. -/
  | railFault (ao : Bool)
  /-- THERMAL_TRIP (R469). Two consecutive raw samples `a` and `b` of sensor `n`, in 0.125 °C, reach the trip comparators. -/
  | thermalTrip (n : BitVec 6) (a b : BitVec 16)
  /-- TRIP_DOMAINS_OFF (R469). 20 µs after a trip the domains turn off and TRIP_N falls. -/
  | tripDomainsOff
  /-- POWER_SAMPLE (R418). Package power in watts is sampled, and the cap limit may fall. -/
  | powerSample (w : BitVec 12)
  /-- CAP_LIMIT_RAISE (R419). After 1 ms of samples below the margin the cap limit rises one step. -/
  | capLimitRaise
  /-- THERMAL_LIMIT_STEP (R422). A timer of the thermal limit, the 1 ms one if `slow`, finds the readings `raw` of the sensors from 0 on, without offset. -/
  | thermalLimitStep (raw : List (BitVec 16)) (slow : Bool)
  /-- CLOCK_STEP (R414). f_core moves one 25 MHz step toward its limit; `reached` says whether every die rail has the voltage of a higher frequency. -/
  | clockStep (reached : Bool)
  /-- VOLTAGE_UPDATE (R415). The voltage loop of a die: `want` are the voltages that hold the margin of its four halls, `failed` the AVSBus frames without a good response before one was answered with `status` (four: none was). -/
  | voltageUpdate (die : BitVec 2) (want : List (BitVec 12)) (failed : BitVec 3) (status : BitVec 8)
  /-- DROOP_TRIP (R416). A droop detector trips and the clock spine stretches cycles. -/
  | droopTrip
  /-- DOMAIN_TRANSITION_END (R408). Power domain `n` completes its state transition and any queued change starts. -/
  | domainTransitionEnd (n : BitVec 7)
  /-- BELL_FIRE (R425). The market bell of a job expires; `since` are the ck since the last retirement of each core of the job, in (y, x) order. -/
  | bellFire (job : BitVec 16) (since : List (BitVec 32))
  /-- UNLOCK_EXPIRE (R442). The duration of the debug unlock of a job ends. -/
  | unlockExpire (job : BitVec 16)
  /-- CHALLENGE_EXPIRE (R441). The unused debug challenge is 60 s old. -/
  | challengeExpire
  /-- ERRAND_INJECT (R171). A packet at the head of a network interface's injection queue is accepted onto the errand network, freeing a place for a waiting PREQ, ERRINC or FENCE bit 3. -/
  | errandInject (c : CoreId)
  /-- VOP_COMPLETE (R41). The vector unit of core `c` retires the last result row of its VOP and releases the sequencer. -/
  | vopComplete (c : CoreId)
  /-- PCIE_LINK_UP (R307). The PCIe link has trained. -/
  | pcieLinkUp (rate : BitVec 3) (width : BitVec 5) (flit : Bool)
  /-- ETH_LINK (R315). The PCS of port `p` aligns or loses alignment. -/
  | ethLink (p : BitVec 1) (up : Bool)
  /-- CLERK_SELF_CHECK (R242). The self-check of Clerk `k` reports a fault, or passes after its reset. -/
  | clerkSelfCheck (k : BitVec 4) (ok : Bool)
deriving DecidableEq, Repr

end Sys2Proof
end

