-- ==== Sys2Proof/Decode.lean ====
section
/-! DEFINITION. The commands that words spell.  No row of the opcode table gives its command bits: a command comes from
outside as an event with operands, and a core instruction comes from a sequencer with bits [25:0] of its word. -/

namespace Sys2Proof

/-- The command a word spells by the table's bits: none, because no row of the table gives bits. -/
def decodeTableWord (_nbits _w : Nat) : Option Instr := none

end Sys2Proof
end

