-- ==== Sys2Proof/Machine/Table.lean ====
section
/-! DEFINITION. Operations over finite tables and byte memories, bit fields of numbers, and the byte order of R6. -/

namespace Sys2Proof

/-- The value a table holds at a key; `dflt` gives what an unlisted key holds. -/
def Tab.get {α : Type} (dflt : Nat → α) : Tab α → Nat → α
  | [], k => dflt k
  | (k', v) :: t, k => if k' = k then v else Tab.get dflt t k

/-- Removes a key. -/
def Tab.erase {α : Type} : Tab α → Nat → Tab α
  | [], _ => []
  | (k', v) :: t, k => if k' = k then Tab.erase t k else (k', v) :: Tab.erase t k

/-- Lists a key in its place by rising key. -/
def Tab.insert {α : Type} : Tab α → Nat → α → Tab α
  | [], k, v => [(k, v)]
  | (k', v') :: t, k, v =>
    if k < k' then (k, v) :: (k', v') :: t
    else if k = k' then (k, v) :: t
    else (k', v') :: Tab.insert t k v

/-- Writes a key.  Writing the default removes the entry, so equal tables are equal lists. -/
def Tab.set {α : Type} [DecidableEq α] (dflt : Nat → α) (t : Tab α) (k : Nat) (v : α) : Tab α :=
  if v = dflt k then Tab.erase t k else Tab.insert t k v

/-- The canonical form of a table. -/
abbrev Tab.wf {α : Type} [DecidableEq α] (dflt : Nat → α) (t : Tab α) : Prop :=
  t.Pairwise (fun p q => p.1 < q.1) ∧ ∀ p ∈ t, p.2 ≠ dflt p.1

/-- Keeps the entries whose key lies outside `[lo, lo + n)`, which so return to their defaults. -/
def Tab.clear {α : Type} (t : Tab α) (lo n : Nat) : Tab α :=
  t.filter (fun p => !(decide (lo ≤ p.1) && decide (p.1 < lo + n)))

/-- Writes a list of consecutive keys from `k`. -/
def Tab.setAll {α : Type} [DecidableEq α] (dflt : Nat → α) (t : Tab α) (k : Nat) : List α → Tab α
  | [] => t
  | v :: vs => Tab.setAll dflt (Tab.set dflt t k v) (k + 1) vs

/-- Writes one value to the keys in `[lo, lo + n)`. -/
def Tab.fill {α : Type} [DecidableEq α] (dflt : Nat → α) (t : Tab α) (lo n : Nat) (v : α) : Tab α :=
  t.filter (fun p => decide (p.1 < lo)) ++ ((((List.range n).map (lo + ·)).map (fun k => (k, v))).filter (fun p => decide (p.2 ≠ dflt p.1))
    ++ t.filter (fun p => decide (lo + n ≤ p.1)))

/-- A byte memory: a list of (address, byte) pairs.  An unlisted byte reads as zero (R51, R123, R373). -/
abbrev Memory := List Host.Cell

/-- What an unlisted byte of a memory reads as. -/
def Memory.unlisted (_ : Nat) : Byte := 0

/-- One byte of a memory. -/
def Memory.read (m : Memory) (a : Nat) : Byte := Tab.get Memory.unlisted m a

/-- Writes one byte. -/
def Memory.write (m : Memory) (a : Nat) (v : Byte) : Memory := Tab.set Memory.unlisted m a v

/-- The canonical form of a memory. -/
abbrev Memory.wf (m : Memory) : Prop := Tab.wf Memory.unlisted m

/-- The number that `n` bytes from `a` hold, byte 0 the least significant (R6). -/
def Memory.readN (m : Memory) (a : Nat) : Nat → Nat
  | 0 => 0
  | n + 1 => (Memory.read m a).toNat + 256 * Memory.readN m (a + 1) n

/-- Writes the low `n` bytes of `v` from `a`, byte 0 the least significant (R6). -/
def Memory.writeN (m : Memory) (a : Nat) : Nat → Nat → Memory
  | 0, _ => m
  | n + 1, v => Memory.writeN (Memory.write m a (BitVec.ofNat 8 v)) (a + 1) n (v / 256)

/-- The bytes of a span, as a list. -/
def Memory.bytes (m : Memory) (a : Nat) : Nat → List Byte
  | 0 => []
  | n + 1 => Memory.read m a :: Memory.bytes m (a + 1) n

/-- Writes a list of bytes from `a`. -/
def Memory.writeBytes (m : Memory) (a : Nat) : List Byte → Memory
  | [] => m
  | b :: bs => Memory.writeBytes (Memory.write m a b) (a + 1) bs

/-- Makes a span read as zero. -/
def Memory.zero (m : Memory) (a n : Nat) : Memory := Tab.clear m a n

namespace Machine

/-- Bits `[lo + w - 1 : lo]` of a number (R6). -/
def bits (v lo w : Nat) : Nat := v / 2 ^ lo % 2 ^ w

/-- `v` with bits `[lo + w - 1 : lo]` replaced by the low `w` bits of `x`. -/
def setBits (v lo w x : Nat) : Nat :=
  v % 2 ^ lo + (x % 2 ^ w) * 2 ^ lo + v / 2 ^ (lo + w) * 2 ^ (lo + w)

/-- Whether bit `i` of a number is 1. -/
def bit (v i : Nat) : Bool := bits v i 1 == 1

/-- The two's-complement value of the low `w` bits. -/
def signed (w v : Nat) : Int :=
  if bits v (w - 1) 1 = 1 then (v % 2 ^ w : Nat) - (2 ^ w : Nat) else ((v % 2 ^ w : Nat) : Int)

/-- The low `w` bits of an integer. -/
def wrap (w : Nat) (x : Int) : Nat := (x % ((2 ^ w : Nat) : Int)).toNat

/-- ⌈n ÷ d⌉. -/
def cdiv (n d : Nat) : Nat := (n + d - 1) / d

/-- `v` saturated at the largest value of a `w`-bit count. -/
def sat (w v : Nat) : Nat := min v (2 ^ w - 1)

/-- The bytes of a number, byte 0 first. -/
def toBytes : Nat → Nat → List Byte
  | 0, _ => []
  | n + 1, v => BitVec.ofNat 8 v :: toBytes n (v / 256)

/-- The number a list of bytes holds, byte 0 the least significant. -/
def ofBytes : List Byte → Nat
  | [] => 0
  | b :: bs => b.toNat + 256 * ofBytes bs

end Machine
end Sys2Proof
end

