-- ==== Sys2Proof/Machine/Numbers.lean ====
section
/-! DEFINITION. Element formats and exact values: how each encoding of R74 to R81 reads, and how an exact value
enters each format (R61, R62, R66, R82 to R86). -/

namespace Sys2Proof.Machine

/-- An exact value: a NaN, an infinity, or (−1)^neg × m × 2^e; `m = 0` is a signed zero. -/
inductive Val where
  | nan
  | inf (neg : Bool)
  | fin (neg : Bool) (m : Nat) (e : Int)
deriving DecidableEq, Repr

/-- Rounding directions: the five of CSR_FRM (R34), and stochastic rounding with its 16-bit draw (R62). -/
inductive Round where
  | even | zero | down | up | away
  | stoch (r : Nat)
deriving DecidableEq, Repr

/-- A float layout of R74: widths of the exponent and fraction fields, bias, and whether the all-ones exponent
encodes Inf and NaN (`ieee`), or NaN only as S.1111.111 (`e4m3`). -/
structure FloatFmt where
  exp : Nat
  frac : Nat
  bias : Nat
  ieee : Bool
  e4m3 : Bool
deriving DecidableEq, Repr

def fp64 : FloatFmt := ⟨11, 52, 1023, true, false⟩
def fp32 : FloatFmt := ⟨8, 23, 127, true, false⟩
def ef19 : FloatFmt := ⟨8, 10, 127, true, false⟩
def bf16 : FloatFmt := ⟨8, 7, 127, true, false⟩
def fp16 : FloatFmt := ⟨5, 10, 15, true, false⟩
def e5m2 : FloatFmt := ⟨5, 2, 15, true, false⟩
def e4m3 : FloatFmt := ⟨4, 3, 7, false, true⟩
def e3m2 : FloatFmt := ⟨3, 2, 3, false, false⟩
def e2m3 : FloatFmt := ⟨2, 3, 1, false, false⟩
def e2m1 : FloatFmt := ⟨2, 1, 1, false, false⟩

/-- The element formats of R28. -/
inductive Fmt where
  | fp32 | fp64 | bf16 | fp16 | fp8e4m3 | fp8e5m2 | mx8e4m3 | mx8e5m2 | mx6e3m2 | mx6e2m3 | mx4e2m1
  | int8 | int4 | ef19 | u16
deriving DecidableEq, Repr

/-- The format of a code of R28; codes 0x0F to 0x1F are reserved. -/
def Fmt.ofCode : Nat → Option Fmt
  | 0 => some .fp32 | 1 => some .fp64 | 2 => some .bf16 | 3 => some .fp16 | 4 => some .fp8e4m3
  | 5 => some .fp8e5m2 | 6 => some .mx8e4m3 | 7 => some .mx8e5m2 | 8 => some .mx6e3m2 | 9 => some .mx6e2m3
  | 10 => some .mx4e2m1 | 11 => some .int8 | 12 => some .int4 | 13 => some .ef19 | 14 => some .u16
  | _ => none

/-- Element width in bits (R73). -/
def Fmt.width : Fmt → Nat
  | .fp32 => 32 | .fp64 => 64 | .bf16 => 16 | .fp16 => 16
  | .fp8e4m3 => 8 | .fp8e5m2 => 8 | .mx8e4m3 => 8 | .mx8e5m2 => 8 | .mx6e3m2 => 6 | .mx6e2m3 => 6
  | .mx4e2m1 => 4 | .int8 => 8 | .int4 => 4 | .ef19 => 32 | .u16 => 16

/-- The float layout of a format's elements; none for INT8, INT4 and U16 (R74). -/
def Fmt.float : Fmt → Option FloatFmt
  | .fp32 => some Machine.fp32 | .fp64 => some Machine.fp64 | .bf16 => some Machine.bf16
  | .fp16 => some Machine.fp16 | .fp8e4m3 => some e4m3 | .fp8e5m2 => some e5m2 | .mx8e4m3 => some e4m3
  | .mx8e5m2 => some e5m2 | .mx6e3m2 => some e3m2 | .mx6e2m3 => some e2m3 | .mx4e2m1 => some e2m1
  | .ef19 => some Machine.ef19 | .int8 => none | .int4 => none | .u16 => none

/-- The microscaling formats (R77). -/
def Fmt.mx : Fmt → Bool
  | .mx8e4m3 => true | .mx8e5m2 => true | .mx6e3m2 => true | .mx6e2m3 => true | .mx4e2m1 => true
  | _ => false

/-- The integer formats with zero point (R81). -/
def Fmt.isInt : Fmt → Bool
  | .int8 => true | .int4 => true | _ => false

/-- The rate class of R53: 4, 8, 16 or 32; none for FP64 and U16. -/
def Fmt.cls : Fmt → Option Nat
  | .mx4e2m1 => some 4 | .int4 => some 4
  | .fp8e4m3 => some 8 | .fp8e5m2 => some 8 | .mx8e4m3 => some 8 | .mx8e5m2 => some 8 | .mx6e3m2 => some 8
  | .mx6e2m3 => some 8 | .int8 => some 8
  | .bf16 => some 16 | .fp16 => some 16 | .ef19 => some 32 | .fp32 => some 32
  | .fp64 => none | .u16 => none

/-- emax_elem of R85. -/
def Fmt.emaxElem : Fmt → Int
  | .mx8e4m3 => 8 | .mx8e5m2 => 15 | .mx6e3m2 => 4 | .mx6e2m3 => 2 | .mx4e2m1 => 2 | _ => 0

/-- The exponent ⌊log₂ (m × 2^e)⌋ of a nonzero value. -/
def Val.log (m : Nat) (e : Int) : Int := (Nat.log2 m : Int) + e

/-- The exponent of the lowest subnormal's unit, 1 − bias − frac (R74). -/
def FloatFmt.qmin (p : FloatFmt) : Int := 1 - (p.bias : Int) - (p.frac : Int)

/-- The largest biased exponent field that holds finite values. -/
def FloatFmt.emaxField (p : FloatFmt) : Nat := if p.ieee then 2 ^ p.exp - 2 else 2 ^ p.exp - 1

/-- The magnitude bits of the largest finite value (R74, R76). -/
def FloatFmt.maxBits (p : FloatFmt) : Nat :=
  if p.e4m3 then p.emaxField * 2 ^ p.frac + (2 ^ p.frac - 2) else p.emaxField * 2 ^ p.frac + (2 ^ p.frac - 1)

/-- The magnitude bits of infinity in a format that has it. -/
def FloatFmt.infBits (p : FloatFmt) : Nat := (2 ^ p.exp - 1) * 2 ^ p.frac

/-- The canonical NaN of R76 of a format that has one. -/
def FloatFmt.nanBits (p : FloatFmt) : Nat :=
  if p.e4m3 then 2 ^ (p.exp + p.frac) - 1 else p.infBits + 2 ^ (p.frac - 1)

/-- Sets the sign bit of a magnitude. -/
def FloatFmt.sign (p : FloatFmt) (neg : Bool) (mag : Nat) : Nat :=
  if neg then mag + 2 ^ (p.exp + p.frac) else mag

/-- The value of an encoding (R74, R75). -/
def FloatFmt.decode (p : FloatFmt) (raw : Nat) : Val :=
  let neg := bit raw (p.exp + p.frac)
  let e := bits raw p.frac p.exp
  let f := bits raw 0 p.frac
  if p.ieee && e == 2 ^ p.exp - 1 then (if f = 0 then .inf neg else .nan)
  else if p.e4m3 && e == 2 ^ p.exp - 1 && f == 2 ^ p.frac - 1 then .nan
  else if e = 0 then .fin neg f p.qmin
  else .fin neg (2 ^ p.frac + f) ((e : Int) - (p.bias : Int) - (p.frac : Int))

/-- Whether an encoding is a signalling NaN (R66). -/
def FloatFmt.snan (p : FloatFmt) (raw : Nat) : Bool :=
  p.ieee && bits raw p.frac p.exp == 2 ^ p.exp - 1 && bits raw 0 p.frac != 0 && !(bit raw (p.frac - 1))

/-- ⌊m × 2^e ÷ 2^q⌋ and whether anything nonzero lies below, with the first 16 bits below (R62) and the
comparison of what lies below with one half: 0 below, 1 equal, 2 above. -/
def scaleDown (m : Nat) (e q : Int) : Nat × Bool × Nat × Nat :=
  if q ≤ e then (m * 2 ^ (e - q).toNat, false, 0, 0)
  else
    let s := (q - e).toNat
    let r := m % 2 ^ s
    (m / 2 ^ s, r != 0, r * 2 ^ 16 / 2 ^ s, if 2 * r < 2 ^ s then 0 else if 2 * r = 2 ^ s then 1 else 2)

/-- The magnitude m × 2^e in units of 2^q, rounded (R61, R62, R66), and whether it is inexact. -/
def roundUnits (rm : Round) (neg : Bool) (m : Nat) (e q : Int) : Nat × Bool :=
  let (n, inexact, f, half) := scaleDown m e q
  let inc : Bool := match rm with
    | .even => half == 2 || (half == 1 && n % 2 == 1)
    | .zero => false
    | .down => inexact && neg
    | .up => inexact && !neg
    | .away => half != 0
    | .stoch r => decide (65536 ≤ f + r)
  (if inc then n + 1 else n, inexact)

/-- The encoding magnitude of `n` units of 2^q, where q is the unit that `FloatFmt.unit` gives; a carry into the
next binade encodes itself. -/
def FloatFmt.pack (p : FloatFmt) (n : Nat) (q : Int) : Nat :=
  if q = p.qmin then n else n + ((q - p.qmin).toNat) * 2 ^ p.frac

/-- The exponent of the kept last place at the result's exponent, subnormals included (R61). -/
def FloatFmt.unit (p : FloatFmt) (m : Nat) (e : Int) : Int := max (Val.log m e - (p.frac : Int)) p.qmin

/-- A narrowing conversion into a float format under dD.rnd (R83, R84); `zero` truncates. -/
def FloatFmt.narrow (p : FloatFmt) (rm : Round) (v : Val) : Nat :=
  match v with
  | .nan => p.nanBits
  | .inf neg => if p.e4m3 then p.nanBits else p.sign neg p.infBits
  | .fin neg m e =>
    if m = 0 then p.sign neg 0
    else
      let q := p.unit m e
      let b := p.pack (roundUnits rm neg m e q).1 q
      if b ≤ p.maxBits then p.sign neg b
      else if p.e4m3 || rm = .zero then p.sign neg p.maxBits
      else p.sign neg p.infBits

/-- Rounding into an MX element format: saturates in every mode and has no specials (R85). -/
def FloatFmt.narrowSat (p : FloatFmt) (rm : Round) (neg : Bool) (m : Nat) (e : Int) : Nat :=
  if m = 0 then p.sign neg 0
  else
    let q := p.unit m e
    let b := p.pack (roundUnits rm neg m e q).1 q
    p.sign neg (min b p.maxBits)

/-- The IEEE 754 exception flags in the bit order of CSR_FFLAGS: nx, uf, of, dz, nv (R34, R66). -/
structure Flags where
  nx : Bool := false
  uf : Bool := false
  of : Bool := false
  dz : Bool := false
  nv : Bool := false
deriving DecidableEq, Repr

def Flags.none : Flags := ⟨false, false, false, false, false⟩
def Flags.invalid : Flags := ⟨false, false, false, false, true⟩
def Flags.or (a b : Flags) : Flags := ⟨a.nx || b.nx, a.uf || b.uf, a.of || b.of, a.dz || b.dz, a.nv || b.nv⟩

/-- The five bits of CSR_FFLAGS (R34). -/
def Flags.toBits (f : Flags) : BitVec 5 :=
  BitVec.ofNat 5 (f.nx.toNat + 2 * f.uf.toNat + 4 * f.of.toNat + 8 * f.dz.toNat + 16 * f.nv.toNat)

/-- Rounds an exact value to FP32 or FP64 under IEEE 754, tininess detected after rounding (R66, R89). -/
def FloatFmt.ieeeRound (p : FloatFmt) (rm : Round) (v : Val) : Nat × Flags :=
  match v with
  | .nan => (p.nanBits, Flags.none)
  | .inf neg => (p.sign neg p.infBits, Flags.none)
  | .fin neg m e =>
    if m = 0 then (p.sign neg 0, Flags.none)
    else
      let q := p.unit m e
      let (n, inexact) := roundUnits rm neg m e q
      let b := p.pack n q
      if b ≤ p.maxBits then
        let qn := Val.log m e - (p.frac : Int)
        let nn := (roundUnits rm neg m e qn).1
        let tiny : Bool := decide (qn < p.qmin) && decide (Val.log nn qn < 1 - (p.bias : Int))
        (p.sign neg b, { nx := inexact, uf := tiny && inexact })
      else
        let toInf : Bool := match rm with
          | .zero => false
          | .down => neg
          | .up => !neg
          | _ => true
        (p.sign neg (if toInf then p.infBits else p.maxBits), { nx := true, of := true })

/-- Whether a value is zero. -/
def Val.isZero : Val → Bool
  | .fin _ m _ => m == 0
  | _ => false

def Val.isNan : Val → Bool
  | .nan => true
  | _ => false

def Val.isInf : Val → Bool
  | .inf _ => true
  | _ => false

def Val.neg : Val → Bool
  | .nan => false
  | .inf s => s
  | .fin s _ _ => s

/-- The value with its sign set. -/
def Val.withSign (s : Bool) : Val → Val
  | .nan => .nan
  | .inf _ => .inf s
  | .fin _ m e => .fin s m e

/-- A signed magnitude as an integer multiple of 2^q, for q at most the value's exponent. -/
def Val.units (neg : Bool) (m : Nat) (e q : Int) : Int :=
  let n : Int := ((m * 2 ^ (e - q).toNat : Nat) : Int)
  if neg then -n else n

/-- The value n × 2^q; an exact zero takes the sign given. -/
def Val.ofUnits (zeroNeg : Bool) (n q : Int) : Val :=
  if n = 0 then .fin zeroNeg 0 q else .fin (n < 0) n.natAbs q

/-- The exact sum under IEEE 754: an exact zero sum of unlike signs is −0 only when rounding down (R66). -/
def Val.add (rm : Round) (a b : Val) : Val × Flags :=
  match a, b with
  | .nan, _ => (.nan, Flags.none)
  | _, .nan => (.nan, Flags.none)
  | .inf s, .inf t => if s = t then (.inf s, Flags.none) else (.nan, Flags.invalid)
  | .inf s, .fin _ _ _ => (.inf s, Flags.none)
  | .fin _ _ _, .inf t => (.inf t, Flags.none)
  | .fin s m e, .fin t n f =>
    let q := min e f
    let zs := if s = t then s else decide (rm = .down)
    (Val.ofUnits zs (Val.units s m e q + Val.units t n f q) q, Flags.none)

/-- The exact product under IEEE 754. -/
def Val.mul (a b : Val) : Val × Flags :=
  match a, b with
  | .nan, _ => (.nan, Flags.none)
  | _, .nan => (.nan, Flags.none)
  | .inf s, .inf t => (.inf (s != t), Flags.none)
  | .inf s, .fin t n _ => if n = 0 then (.nan, Flags.invalid) else (.inf (s != t), Flags.none)
  | .fin s m _, .inf t => if m = 0 then (.nan, Flags.invalid) else (.inf (s != t), Flags.none)
  | .fin s m e, .fin t n f => (.fin (s != t) (m * n) (e + f), Flags.none)

/-- a × b + c as one exact value; 0 × Inf is invalid even with a NaN addend (R66, R89). -/
def Val.fma (rm : Round) (a b c : Val) : Val × Flags :=
  let (p, f) := Val.mul a b
  if f.nv then (.nan, Flags.invalid)
  else if c.isNan then (.nan, Flags.none)
  else let (r, g) := Val.add rm p c; (r, Flags.or f g)

/-- The quotient, kept with 128 bits more than any format holds and a low bit that stands for the rest, so that
every rounding of it is the correctly rounded quotient (R66). -/
def Val.div (a b : Val) : Val × Flags :=
  match a, b with
  | .nan, _ => (.nan, Flags.none)
  | _, .nan => (.nan, Flags.none)
  | .inf _, .inf _ => (.nan, Flags.invalid)
  | .inf s, .fin t _ _ => (.inf (s != t), Flags.none)
  | .fin s _ _, .inf t => (.fin (s != t) 0 0, Flags.none)
  | .fin s m e, .fin t n f =>
    if n = 0 then
      if m = 0 then (.nan, Flags.invalid) else (.inf (s != t), { dz := true })
    else
      let k := Nat.log2 n + 128
      let x := m * 2 ^ k
      (.fin (s != t) (2 * (x / n) + (if x % n = 0 then 0 else 1)) (e - f - (k : Int) - 1), Flags.none)

/-- The square root, kept with more bits than any format holds and a low bit for the rest (R66). -/
def Val.sqrt (a : Val) : Val × Flags :=
  match a with
  | .nan => (.nan, Flags.none)
  | .inf s => if s then (.nan, Flags.invalid) else (.inf false, Flags.none)
  | .fin s m e =>
    if m = 0 then (.fin s 0 0, Flags.none)
    else if s then (.nan, Flags.invalid)
    else
      let odd : Nat := (e % 2).toNat
      let x := m * 2 ^ (odd + 256)
      let r := Nat.sqrt x
      (.fin false (2 * r + (if r * r = x then 0 else 1)) ((e - (odd : Int) - 256) / 2 - 1), Flags.none)

/-- `a` below `b` for values that are not NaN; −0 lies below +0 (R66). -/
def Val.lt (a b : Val) : Bool :=
  match a, b with
  | .nan, _ => false
  | _, .nan => false
  | .inf s, .inf t => s && !t
  | .inf s, .fin _ _ _ => s
  | .fin _ _ _, .inf t => !t
  | .fin s m e, .fin t n f =>
    let q := min e f
    let x := Val.units s m e q
    let y := Val.units t n f q
    decide (x < y) || (m == 0 && n == 0 && s && !t)

/-- IEEE 754 minimum: propagates NaN and orders −0 below +0 (R66). -/
def Val.minimum (a b : Val) : Val :=
  if a.isNan || b.isNan then .nan else if Val.lt b a then b else a

/-- IEEE 754 maximum. -/
def Val.maximum (a b : Val) : Val :=
  if a.isNan || b.isNan then .nan else if Val.lt a b then b else a

/-- The integer a value rounds to, for the INT formats: units of 2⁰ (R86). -/
def Val.toInt (rm : Round) : Val → Option Int
  | .fin neg m e =>
    let n := (roundUnits rm neg m e 0).1
    some (if neg then -(n : Int) else (n : Int))
  | _ => none

/-- Clamps to a signed range of `w` bits. -/
def clampInt (w : Nat) (x : Int) : Int := max (-(2 ^ (w - 1) : Nat)) (min x ((2 ^ (w - 1) : Nat) - 1))

/-- Conversion into INT8 or INT4 with zero point `zp` (R84, R86). -/
def narrowInt (w : Nat) (zp : Int) (rm : Round) (v : Val) : Nat :=
  match v with
  | .nan => wrap w (clampInt w zp)
  | .inf neg => wrap w (if neg then -(2 ^ (w - 1) : Nat) else ((2 ^ (w - 1) : Nat) - 1))
  | .fin _ _ _ => wrap w (clampInt w ((Val.toInt rm v).getD 0 + zp))

/-- Conversion into a format other than the MX formats and U16, under dD.rnd (R82 to R86). -/
def Fmt.narrow (f : Fmt) (zp : Int) (rm : Round) (v : Val) : Nat :=
  match f.float with
  | some p => p.narrow rm v
  | none => narrowInt f.width zp rm v

/-- The E8M0 scale byte that R85 gives a block: `none` among the values marks a NaN or an Inf. -/
def mxScale (f : Fmt) (vals : List Val) : Nat :=
  if vals.any (fun v => v.isNan || v.isInf) then 0xFF
  else
    let logs := vals.filterMap (fun v => match v with
      | .fin _ m e => if m = 0 then none else some (Val.log m e)
      | _ => none)
    match logs with
    | [] => 0
    | l :: ls =>
      let x := ls.foldl max l - f.emaxElem
      ((max (-127) (min x 127)) + 127).toNat

/-- One element of an MX block with scale byte `s` (R85): +0 under the NaN scale, else x ÷ 2^X rounded. -/
def mxElem (f : Fmt) (s : Nat) (rm : Round) (v : Val) : Nat :=
  if s = 0xFF then 0
  else match f.float, v with
    | some p, .fin neg m e => p.narrowSat rm neg m (e - ((s : Int) - 127))
    | _, _ => 0

/-- The value of an element of a non-MX format, or of an MX element before its scale (R54, R81). -/
def Fmt.value (f : Fmt) (zp : Int) (raw : Nat) : Val :=
  match f.float with
  | some p => p.decode raw
  | none =>
    let n := signed f.width raw - zp
    .fin (n < 0) n.natAbs 0

/-- A value times the block scale of byte `s`; the NaN scale makes it NaN (R78). -/
def Val.scale (s : Nat) (v : Val) : Val :=
  if s = 0xFF then .nan
  else match v with
    | .fin neg m e => .fin neg m (e + ((s : Int) - 127))
    | v => v

/-- Widening to FP32: exact, but a scaled value of 2¹²⁸ or more becomes Inf (R82). -/
def Val.widen32 (v : Val) : Val :=
  match v with
  | .fin neg m e => if m != 0 && decide (128 ≤ Val.log m e) then .inf neg else v
  | v => v

/-- A pad value: its own encoding for formats of 16 bits or fewer, else a BF16 value widened exactly; an MX pad
has scale 2⁰ (R88). -/
def Fmt.padValue (f : Fmt) (zp : Int) (pad : Nat) : Val :=
  if f.width ≤ 16 then f.value zp (bits pad 0 f.width) else Machine.bf16.decode pad

/-- One step of the Galois LFSR of R63. -/
def lfsrStep (s : BitVec 32) : BitVec 32 :=
  if s.getLsbD 0 then (s >>> 1) ^^^ 0x80200003#32 else s >>> 1

/-- `n` steps of the LFSR. -/
def lfsrSteps : Nat → BitVec 32 → BitVec 32
  | 0, s => s
  | n + 1, s => lfsrSteps n (lfsrStep s)

/-- Draw `n` from a start state: 16 steps are taken after each draw (R63, R64). -/
def lfsrDraw (start : BitVec 32) (n : Nat) : Nat := ((lfsrSteps (16 * n) start) >>> 16).toNat

/-- The rounding that dD.rnd selects for the element of draw number `n` (R61, R64); 0b11 faults before. -/
def rndMode (rnd : Nat) (start : BitVec 32) (n : Nat) : Round :=
  if rnd = 0 then .even else if rnd = 1 then .zero else .stoch (lfsrDraw start n)

/-- The rounding direction of CSR_FRM (R34). -/
def frmMode (frm : Nat) : Round :=
  if frm = 0 then .even else if frm = 1 then .zero else if frm = 2 then .down else if frm = 3 then .up else .away

end Sys2Proof.Machine
end

