-- ==== Sys2Proof/Machine/Regs.lean ====
section
/-! DEFINITION. The register map of 23_register_map.md: each register of every block with its place, its fields, their
access types, reset values and writers (R8, R443, R446), and the named fields through which the model reads and writes
them. -/

namespace Sys2Proof.Machine

/-- The access types of R8 that the register tables use. -/
inductive Acc where
  | ro | rw | w1c | w1s | wo | rc
deriving DecidableEq, Repr

/-- Who besides Naeno may write a field (R446). -/
inductive Writers where
  | naeno | pf0 | pf0AndHarts | harts | queue | ownHart
deriving DecidableEq, Repr

/-- A field of a register: lowest bit, width, access type, reset value and writers. -/
structure FieldDesc where
  lo : Nat
  w : Nat
  acc : Acc
  reset : Nat
  writers : Writers
deriving DecidableEq, Repr

/-- A register or an array of registers: address of the first, (stride, count) of each index, bytes and fields. -/
structure RegDesc where
  base : Nat
  dims : List (Nat × Nat)
  bytes : Nat
  fields : List FieldDesc
deriving DecidableEq, Repr

/-- A named field: the register's address in BAR0 (or its offset in a core's window), lowest bit and width. -/
structure Fld where
  key : Nat
  lo : Nat
  w : Nat
deriving DecidableEq, Repr

/-- The offset of `off` inside an array with these strides: 0 at the start of an element. -/
def dimsRest : List (Nat × Nat) → Nat → Nat
  | [], off => off
  | (s, c) :: ds, off => if off / s < c then dimsRest ds (off % s) else dimsRest ds (off - (c - 1) * s)

/-- Whether an address is the start of a register of this description. -/
def RegDesc.starts (r : RegDesc) (a : Nat) : Bool := decide (r.base ≤ a) && dimsRest r.dims (a - r.base) == 0

/-- Whether an address lies inside a register of this description, and the address that register starts at. -/
def RegDesc.find (r : RegDesc) (a : Nat) : Option Nat :=
  if r.base ≤ a ∧ dimsRest r.dims (a - r.base) < r.bytes then some (a - dimsRest r.dims (a - r.base)) else none

/-- The value of a register at reset. -/
def RegDesc.resetValue (r : RegDesc) : Nat := r.fields.foldl (fun v f => v + f.reset * 2 ^ f.lo) 0

/-- The reset value of the register that starts at an address of a register table; 0 elsewhere (R444). -/
def tableReset : List RegDesc → Nat → Nat
  | [], _ => 0
  | r :: rs, a => if r.starts a then r.resetValue else tableReset rs a

/-- Part 0 of the registers of BAR0 outside the fuse and factory calibration blocks. -/
def regTable0 : List RegDesc := [
  -- WARD_SPOT_CFG (R109)
  ⟨0x11A0200, [], 4,
    [⟨0, 1, .rw, 0, .pf0⟩, ⟨8, 5, .rw, 20, .pf0⟩]⟩,
  -- WARD_SPOT_CHECKS (R109)
  ⟨0x11A0204, [], 4,
    [⟨0, 32, .rc, 0, .naeno⟩]⟩,
  -- WARD_SPOT_FAILS (R109)
  ⟨0x11A0208, [], 4,
    [⟨0, 16, .rc, 0, .naeno⟩]⟩,
  -- WARD_SPOT_LAST (R109)
  ⟨0x11A020C, [], 4,
    [⟨0, 10, .ro, 0, .naeno⟩, ⟨10, 4, .ro, 0, .naeno⟩]⟩,
  -- PWR_STOCK_ON_LO (R122)
  ⟨0x1020100, [], 4,
    [⟨0, 32, .ro, 0, .naeno⟩]⟩,
  -- PWR_STOCK_ON_HI (R122)
  ⟨0x1020104, [], 4,
    [⟨0, 32, .ro, 0, .naeno⟩]⟩,
  -- MESH_SLOT (R171)
  ⟨0x1040000, [], 4,
    [⟨0, 12, .ro, 0, .naeno⟩, ⟨12, 1, .ro, 0, .naeno⟩, ⟨16, 16, .ro, 0, .naeno⟩]⟩,
  -- MESH_EPOCH_CTL (R171)
  ⟨0x1040004, [], 4,
    [⟨0, 3, .rw, 0, .naeno⟩, ⟨3, 3, .ro, 0, .naeno⟩, ⟨6, 1, .rw, 0, .naeno⟩, ⟨8, 16, .rw, 0, .naeno⟩, ⟨24, 8, .rw, 0, .naeno⟩]⟩,
  -- MESH_VOTES (R171)
  ⟨0x1040008, [], 4,
    [⟨0, 16, .ro, 0, .naeno⟩]⟩,
  -- MESH_STAT (R171)
  ⟨0x104000C, [], 4,
    [⟨0, 8, .rc, 0, .naeno⟩, ⟨8, 8, .rc, 0, .naeno⟩, ⟨16, 8, .rc, 0, .naeno⟩, ⟨24, 8, .rc, 0, .naeno⟩]⟩,
  -- MESH_EPOCH (R171)
  ⟨0x1040040, [(8, 8)], 8,
    [⟨0, 14, .rw, 0, .naeno⟩, ⟨16, 16, .rw, 0, .naeno⟩, ⟨32, 12, .rw, 0, .naeno⟩, ⟨44, 6, .rw, 0, .naeno⟩, ⟨50, 1, .rw, 0, .naeno⟩, ⟨52, 10, .rw, 0, .naeno⟩]⟩,
  -- ERRAND_STAT (R171)
  ⟨0x1050000, [], 4,
    [⟨0, 16, .rc, 0, .naeno⟩, ⟨16, 16, .rc, 0, .naeno⟩]⟩,
  -- WARD_BUCKET_STAT (R189)
  ⟨0x11A0220, [], 4,
    [⟨0, 4, .ro, 0, .naeno⟩, ⟨4, 21, .ro, 0, .naeno⟩]⟩,
  -- WARD_BUCKET_REJ (R189)
  ⟨0x11A0224, [], 4,
    [⟨0, 16, .rc, 0, .naeno⟩]⟩,
  -- PORTER_STAT (R224)
  ⟨0x1080000, [(4096, 32)], 4,
    [⟨0, 11, .ro, 0, .naeno⟩, ⟨11, 11, .rc, 0, .naeno⟩]⟩,
  -- PORTER_WAITS (R224)
  ⟨0x1080004, [(4096, 32)], 4,
    [⟨0, 16, .rc, 0, .naeno⟩, ⟨16, 16, .rc, 0, .naeno⟩]⟩,
  -- PORTER_ERR (R224)
  ⟨0x1080008, [(4096, 32)], 4,
    [⟨0, 8, .rc, 0, .naeno⟩, ⟨8, 8, .rc, 0, .naeno⟩, ⟨16, 4, .ro, 0, .naeno⟩]⟩,
  -- PORTER_CFG (R224)
  ⟨0x108000C, [(4096, 32)], 4,
    [⟨0, 16, .rw, 100, .pf0⟩]⟩,
  -- PORTER_CTX (R224)
  ⟨0x1080100, [(4096, 32), (16, 8)], 8,
    [⟨0, 1, .rw, 0, .naeno⟩, ⟨1, 1, .rw, 0, .naeno⟩, ⟨8, 8, .rw, 0, .naeno⟩, ⟨16, 16, .rw, 0, .naeno⟩, ⟨32, 8, .rw, 64, .naeno⟩]⟩,
  -- PORTER_PTBASE (R224)
  ⟨0x1080108, [(4096, 32), (16, 8)], 8,
    [⟨22, 17, .rw, 0, .naeno⟩]⟩,
  -- PORTER_POOL (R224)
  ⟨0x1080400, [(4096, 32), (64, 8), (4, 16)], 4,
    [⟨0, 16, .rw, 0, .naeno⟩]⟩,
  -- CLERK_STAT (R244)
  ⟨0x10A0000, [(256, 16)], 4,
    [⟨0, 2, .ro, 0, .naeno⟩, ⟨2, 7, .ro, 0, .naeno⟩, ⟨9, 4, .ro, 0, .naeno⟩, ⟨13, 8, .rc, 0, .naeno⟩]⟩,
  -- CLERK_PROG (R244)
  ⟨0x10A0004, [(256, 16)], 4,
    [⟨0, 32, .ro, 0, .naeno⟩]⟩,
  -- CLERK_CNT (R244)
  ⟨0x10A0008, [(256, 16)], 8,
    [⟨0, 16, .rc, 0, .naeno⟩, ⟨16, 16, .rc, 0, .naeno⟩, ⟨32, 32, .rc, 0, .naeno⟩]⟩,
  -- CLERK_CFG (R244)
  ⟨0x10A0010, [(256, 16)], 4,
    [⟨0, 16, .rw, 1000, .pf0⟩, ⟨16, 1, .w1s, 0, .naeno⟩]⟩,
  -- CLERK_CTX (R244)
  ⟨0x10A0020, [(256, 16), (16, 8)], 16,
    [⟨0, 40, .rw, 0, .naeno⟩, ⟨40, 16, .rw, 0, .naeno⟩, ⟨64, 40, .rw, 0, .naeno⟩]⟩,
  -- CLERK_SKIP (R244)
  ⟨0x10A4000, [], 8,
    [⟨0, 1, .rw, 0, .naeno⟩, ⟨1, 1, .rw, 0, .naeno⟩, ⟨16, 16, .rw, 0, .naeno⟩, ⟨32, 32, .rw, 0, .naeno⟩]⟩,
  -- CLERK_SKIP_STAT (R244)
  ⟨0x10A4008, [], 8,
    [⟨0, 2, .ro, 0, .naeno⟩, ⟨2, 2, .ro, 0, .naeno⟩, ⟨16, 16, .rc, 0, .naeno⟩, ⟨32, 32, .ro, 0, .naeno⟩]⟩,
  -- WARD_STEP_CFG (R254)
  ⟨0x11A0240, [], 4,
    [⟨0, 16, .rw, 0, .naeno⟩, ⟨16, 4, .rw, 0, .naeno⟩]⟩,
  -- WARD_STEP_GATE (R254)
  ⟨0x11A0244, [], 4,
    [⟨0, 14, .ro, 0, .naeno⟩, ⟨14, 1, .ro, 0, .naeno⟩, ⟨15, 1, .ro, 0, .naeno⟩, ⟨16, 1, .ro, 0, .naeno⟩, ⟨17, 1, .ro, 0, .naeno⟩]⟩]

/-- Part 1 of the registers of BAR0 outside the fuse and factory calibration blocks. -/
def regTable1 : List RegDesc := [
  -- WARD_STEP_NOW (R254)
  ⟨0x11A0248, [], 4,
    [⟨0, 32, .ro, 0, .naeno⟩]⟩,
  -- WARD_STEP_REFUSED (R254)
  ⟨0x11A024C, [], 4,
    [⟨0, 16, .rc, 0, .naeno⟩]⟩,
  -- LINK_PORT_CFG (R257)
  ⟨0x1100000, [(4096, 96)], 8,
    [⟨0, 1, .rw, 0, .naeno⟩, ⟨1, 3, .rw, 0, .naeno⟩, ⟨4, 1, .rw, 0, .naeno⟩, ⟨5, 1, .rw, 0, .naeno⟩, ⟨8, 18, .rw, 0, .naeno⟩, ⟨32, 7, .rw, 0, .naeno⟩]⟩,
  -- LINK_FLOW (R261)
  ⟨0x1100100, [(4096, 96), (16, 128)], 16,
    [⟨0, 1, .rw, 0, .naeno⟩, ⟨1, 1, .rw, 0, .naeno⟩, ⟨2, 1, .rw, 0, .naeno⟩, ⟨3, 1, .ro, 0, .naeno⟩, ⟨4, 2, .rw, 0, .naeno⟩, ⟨8, 8, .rw, 0, .naeno⟩, ⟨16, 6, .rw, 0, .naeno⟩, ⟨24, 8, .rw, 0, .naeno⟩, ⟨32, 8, .rw, 0, .naeno⟩, ⟨40, 8, .ro, 0, .naeno⟩, ⟨48, 8, .rw, 0, .naeno⟩, ⟨56, 8, .rw, 0, .naeno⟩, ⟨64, 6, .rw, 0, .naeno⟩, ⟨70, 1, .rw, 0, .naeno⟩, ⟨72, 6, .rw, 0, .naeno⟩, ⟨80, 8, .ro, 0, .naeno⟩, ⟨88, 8, .rw, 0, .naeno⟩]⟩,
  -- WARD_RCPT_BASE (R276)
  ⟨0x11A0260, [], 8,
    [⟨9, 31, .rw, 0, .naeno⟩]⟩,
  -- WARD_RCPT_CFG (R276)
  ⟨0x11A0268, [], 4,
    [⟨0, 5, .rw, 0, .naeno⟩, ⟨5, 1, .rw, 0, .naeno⟩]⟩,
  -- WARD_RCPT_HEAD (R276)
  ⟨0x11A026C, [], 4,
    [⟨0, 32, .ro, 0, .naeno⟩]⟩,
  -- WARD_ROSTER (R276)
  ⟨0x11A0280, [], 8,
    [⟨0, 7, .rw, 0, .harts⟩, ⟨8, 6, .rw, 0, .harts⟩, ⟨14, 1, .rw, 0, .harts⟩, ⟨16, 6, .rw, 0, .harts⟩, ⟨24, 8, .rw, 3, .harts⟩, ⟨32, 32, .rw, 0, .harts⟩]⟩,
  -- LINK_STATE (R305)
  ⟨0x1100010, [(4096, 96)], 4,
    [⟨0, 4, .ro, 0, .naeno⟩, ⟨4, 3, .ro, 0, .naeno⟩, ⟨8, 4, .ro, 0, .naeno⟩]⟩,
  -- LINK_PEER (R305)
  ⟨0x1100018, [(4096, 96)], 8,
    [⟨0, 18, .ro, 0, .naeno⟩, ⟨18, 7, .ro, 0, .naeno⟩, ⟨25, 8, .ro, 0, .naeno⟩, ⟨33, 1, .ro, 0, .naeno⟩, ⟨34, 1, .ro, 0, .naeno⟩]⟩,
  -- LINK_TXMAP (R305)
  ⟨0x1100020, [(4096, 96)], 16,
    [⟨0, 80, .ro, 0, .naeno⟩, ⟨80, 36, .ro, 0, .naeno⟩]⟩,
  -- LINK_RXMAP (R305)
  ⟨0x1100030, [(4096, 96)], 16,
    [⟨0, 80, .ro, 0, .naeno⟩, ⟨80, 36, .ro, 0, .naeno⟩]⟩,
  -- LINK_ERR (R305)
  ⟨0x1100040, [(4096, 96)], 8,
    [⟨0, 32, .rc, 0, .naeno⟩, ⟨32, 16, .rc, 0, .naeno⟩, ⟨48, 8, .rc, 0, .naeno⟩, ⟨56, 8, .rc, 0, .naeno⟩]⟩,
  -- LINK_RETRY (R305)
  ⟨0x1100048, [(4096, 96)], 4,
    [⟨0, 16, .rc, 0, .naeno⟩, ⟨16, 8, .rc, 0, .naeno⟩, ⟨24, 2, .ro, 0, .naeno⟩, ⟨26, 2, .ro, 0, .naeno⟩]⟩,
  -- LINK_ASSAY_RX (R305)
  ⟨0x1100050, [(4096, 96)], 16,
    [⟨0, 128, .ro, 0, .naeno⟩]⟩,
  -- LINK_ASSAY_ST (R305)
  ⟨0x1100060, [(4096, 96)], 4,
    [⟨0, 6, .ro, 0, .naeno⟩, ⟨6, 1, .ro, 0, .naeno⟩, ⟨7, 1, .ro, 0, .naeno⟩, ⟨8, 8, .rc, 0, .naeno⟩]⟩,
  -- LINK_PEER_EPOCH (R305)
  ⟨0x1100068, [(4096, 96)], 4,
    [⟨0, 16, .ro, 0, .naeno⟩, ⟨16, 16, .ro, 0, .naeno⟩]⟩,
  -- LINK_ASSAY (R305)
  ⟨0x1160000, [(4, 8)], 4,
    [⟨0, 32, .ro, 0, .naeno⟩]⟩,
  -- LINK_ASSAY_PREV (R305)
  ⟨0x1160020, [(4, 8)], 4,
    [⟨0, 32, .ro, 0, .naeno⟩]⟩,
  -- LINK_CFG (R305)
  ⟨0x1160040, [], 8,
    [⟨0, 8, .rw, 20, .pf0⟩, ⟨8, 8, .rw, 16, .pf0⟩, ⟨16, 8, .rw, 10, .pf0⟩, ⟨24, 8, .rw, 10, .pf0⟩, ⟨32, 16, .rw, 4096, .pf0⟩]⟩,
  -- OPT_LASER_STAT (R305)
  ⟨0x10C0000, [(4096, 8)], 4,
    [⟨0, 18, .ro, 0, .naeno⟩]⟩,
  -- PCIE_STAT (R314)
  ⟨0x1190000, [], 4,
    [⟨0, 1, .ro, 0, .naeno⟩, ⟨1, 3, .ro, 0, .naeno⟩, ⟨4, 5, .ro, 0, .naeno⟩, ⟨9, 1, .ro, 0, .naeno⟩]⟩,
  -- PCIE_ERR (R314)
  ⟨0x1190004, [], 4,
    [⟨0, 8, .rc, 0, .naeno⟩, ⟨8, 8, .rc, 0, .naeno⟩, ⟨16, 8, .rc, 0, .naeno⟩, ⟨24, 8, .rc, 0, .naeno⟩]⟩,
  -- PCIE_QMAP (R314)
  ⟨0x1190100, [(4, 64)], 4,
    [⟨0, 1, .rw, 0, .naeno⟩, ⟨1, 4, .rw, 0, .naeno⟩, ⟨5, 6, .rw, 0, .naeno⟩]⟩,
  -- PCIE_WIN (R314)
  ⟨0x1190200, [(8, 16)], 8,
    [⟨0, 18, .rw, 0, .naeno⟩, ⟨32, 16, .rw, 0, .naeno⟩]⟩,
  -- ETH_STAT (R318)
  ⟨0x1180000, [(4096, 2)], 8,
    [⟨0, 1, .ro, 0, .naeno⟩, ⟨16, 16, .rc, 0, .naeno⟩, ⟨32, 32, .rc, 0, .naeno⟩]⟩,
  -- WARD_Q (R348)
  ⟨0x11A1000, [(32, 64)], 32,
    [⟨0, 1, .rw, 0, .queue⟩, ⟨1, 2, .rw, 0, .queue⟩, ⟨3, 2, .rw, 0, .queue⟩, ⟨5, 1, .rw, 0, .queue⟩, ⟨6, 4, .rw, 0, .queue⟩, ⟨10, 4, .rw, 0, .queue⟩, ⟨14, 6, .rw, 0, .queue⟩, ⟨20, 8, .rw, 16, .queue⟩, ⟨28, 4, .ro, 0, .queue⟩, ⟨32, 7, .rw, 0, .queue⟩, ⟨64, 64, .rw, 0, .queue⟩, ⟨128, 64, .rw, 0, .queue⟩, ⟨192, 16, .rw, 0, .queue⟩, ⟨208, 16, .ro, 0, .queue⟩, ⟨224, 16, .ro, 0, .queue⟩, ⟨240, 16, .ro, 0, .queue⟩]⟩,
  -- WARD_LOAD (R348)
  ⟨0x11A0300, [], 4,
    [⟨0, 10, .ro, 0, .naeno⟩, ⟨10, 10, .ro, 0, .naeno⟩, ⟨20, 12, .rc, 0, .naeno⟩]⟩,
  -- WARD_ACTIVE (R348)
  ⟨0x11A0304, [], 4,
    [⟨0, 2, .ro, 0, .naeno⟩, ⟨2, 4, .ro, 0, .naeno⟩, ⟨6, 8, .rc, 0, .naeno⟩]⟩,
  -- WARD_DELEG (R348)
  ⟨0x11A0308, [], 4,
    [⟨0, 1, .rw, 0, .pf0⟩, ⟨1, 1, .rw, 0, .pf0⟩, ⟨2, 1, .rw, 1, .pf0⟩, ⟨3, 1, .rw, 1, .pf0⟩]⟩]

/-- Part 2 of the registers of BAR0 outside the fuse and factory calibration blocks. -/
def regTable2 : List RegDesc := [
  -- BRK_CPX_STAT (R369)
  ⟨0x11B0000, [(256, 4)], 8,
    [⟨0, 2, .ro, 0, .naeno⟩, ⟨2, 4, .ro, 0, .naeno⟩, ⟨8, 8, .ro, 0, .naeno⟩, ⟨16, 16, .rc, 0, .naeno⟩, ⟨32, 32, .ro, 0, .naeno⟩]⟩,
  -- BRK_REGION (R369)
  ⟨0x11B0010, [(256, 4), (8, 16)], 8,
    [⟨0, 18, .rw, 0, .naeno⟩, ⟨32, 18, .rw, 0, .naeno⟩]⟩,
  -- BRK_BIND (R369)
  ⟨0x11B0090, [(256, 4)], 16,
    [⟨0, 16, .rw, 0, .naeno⟩, ⟨24, 16, .rw, 0, .naeno⟩, ⟨48, 16, .rw, 0, .naeno⟩, ⟨72, 16, .rw, 0, .naeno⟩, ⟨16, 8, .rw, 0, .naeno⟩, ⟨40, 8, .rw, 0, .naeno⟩, ⟨64, 8, .rw, 0, .naeno⟩, ⟨88, 8, .rw, 0, .naeno⟩]⟩,
  -- BRK_ESEND (R369)
  ⟨0x11B2000, [(64, 64)], 64,
    [⟨0, 128, .rw, 0, .ownHart⟩, ⟨128, 128, .rw, 0, .ownHart⟩, ⟨256, 128, .rw, 0, .ownHart⟩, ⟨384, 1, .w1s, 0, .ownHart⟩, ⟨385, 1, .ro, 0, .ownHart⟩, ⟨386, 1, .w1c, 0, .ownHart⟩]⟩,
  -- BOOT_STRAP (R377)
  ⟨0x0, [], 4,
    [⟨0, 1, .ro, 0, .naeno⟩, ⟨1, 1, .ro, 0, .naeno⟩]⟩,
  -- BOOT_STAT (R377)
  ⟨0x4, [], 4,
    [⟨0, 4, .ro, 0, .naeno⟩, ⟨4, 4, .ro, 0, .naeno⟩, ⟨8, 8, .ro, 0, .naeno⟩, ⟨16, 1, .ro, 0, .naeno⟩]⟩,
  -- BOOT_STEP (R377)
  ⟨0x8, [], 4,
    [⟨0, 4, .rw, 0, .pf0⟩, ⟨4, 4, .rw, 0, .pf0⟩, ⟨8, 1, .w1s, 0, .pf0⟩, ⟨9, 3, .ro, 0, .pf0⟩, ⟨16, 16, .ro, 0, .pf0⟩]⟩,
  -- WARD_RESET_CFG (R391)
  ⟨0x11A0320, [], 4,
    [⟨0, 1, .rw, 0, .pf0⟩, ⟨16, 16, .rw, 100, .pf0⟩]⟩,
  -- WARD_KILL_STAT (R391)
  ⟨0x11A0324, [], 4,
    [⟨0, 16, .ro, 0, .naeno⟩, ⟨16, 8, .ro, 0, .naeno⟩, ⟨24, 3, .ro, 0, .naeno⟩]⟩,
  -- WARD_JOB_NEXT (R391)
  ⟨0x11A0328, [], 4,
    [⟨0, 16, .rw, 1, .pf0AndHarts⟩, ⟨16, 8, .rw, 1, .pf0AndHarts⟩]⟩,
  -- MESH_ROWMAP (R399)
  ⟨0x1041000, [(16, 192)], 16,
    [⟨0, 50, .rw, 0, .naeno⟩, ⟨64, 50, .rw, 0, .naeno⟩, ⟨114, 1, .ro, 0, .naeno⟩]⟩,
  -- CAL_STAT (R405)
  ⟨0x1010000, [], 4,
    [⟨0, 2, .ro, 0, .naeno⟩, ⟨2, 1, .ro, 0, .naeno⟩, ⟨3, 13, .ro, 0, .naeno⟩, ⟨16, 4, .ro, 0, .naeno⟩]⟩,
  -- PWR_CAP_CFG (R425)
  ⟨0x1020010, [], 8,
    [⟨0, 12, .ro, 3600, .naeno⟩, ⟨12, 12, .ro, 800, .naeno⟩, ⟨24, 8, .rw, 100, .pf0⟩, ⟨32, 8, .rw, 200, .pf0⟩]⟩,
  -- PWR_STAT (R425)
  ⟨0x1020014, [], 4,
    [⟨0, 12, .ro, 0, .naeno⟩, ⟨12, 1, .w1c, 0, .pf0AndHarts⟩, ⟨16, 4, .ro, 0, .naeno⟩, ⟨20, 8, .ro, 0, .naeno⟩]⟩,
  -- PWR_THERM (R425)
  ⟨0x1020018, [], 4,
    [⟨0, 16, .ro, 0, .naeno⟩, ⟨16, 8, .rw, 95, .pf0⟩]⟩,
  -- PWR_DOM (R425)
  ⟨0x1020200, [(4, 102)], 4,
    [⟨0, 2, .ro, 3, .naeno⟩, ⟨2, 1, .ro, 0, .naeno⟩, ⟨3, 1, .ro, 0, .naeno⟩, ⟨4, 16, .ro, 0, .naeno⟩]⟩,
  -- CLK_CORE (R425)
  ⟨0x1030000, [], 8,
    [⟨0, 12, .rw, 1500, .pf0⟩, ⟨12, 12, .ro, 0, .naeno⟩, ⟨24, 12, .ro, 800, .naeno⟩]⟩,
  -- CLK_STAT (R425)
  ⟨0x1030008, [], 4,
    [⟨0, 3, .ro, 0, .naeno⟩, ⟨8, 24, .rc, 0, .naeno⟩]⟩,
  -- CLK_AVS (R425)
  ⟨0x1030010, [(4, 4)], 4,
    [⟨0, 12, .ro, 0, .naeno⟩, ⟨12, 8, .rc, 0, .naeno⟩]⟩,
  -- WARD_BELL_CFG (R425)
  ⟨0x11A0340, [], 4,
    [⟨0, 16, .rw, 10000, .pf0⟩, ⟨16, 1, .rw, 0, .pf0⟩]⟩,
  -- WARD_BELL_STAT (R425)
  ⟨0x11A0344, [], 4,
    [⟨0, 16, .ro, 0, .naeno⟩, ⟨16, 8, .ro, 0, .naeno⟩, ⟨24, 1, .w1c, 0, .pf0AndHarts⟩, ⟨25, 7, .rc, 0, .naeno⟩]⟩,
  -- ERR_OPEN (R442)
  ⟨0x11E0000, [], 8,
    [⟨0, 16, .ro, 0, .naeno⟩, ⟨16, 16, .ro, 0, .naeno⟩, ⟨32, 16, .ro, 0, .naeno⟩, ⟨48, 16, .ro, 0, .naeno⟩]⟩,
  -- ERR_STAT (R442)
  ⟨0x11E0008, [], 8,
    [⟨0, 16, .ro, 0, .naeno⟩, ⟨16, 3, .ro, 0, .naeno⟩, ⟨32, 32, .ro, 0, .naeno⟩]⟩,
  -- ERR_ACK (R442)
  ⟨0x11E0010, [], 4,
    [⟨0, 32, .wo, 0, .pf0AndHarts⟩]⟩,
  -- ERR_CFG (R442)
  ⟨0x11E0018, [], 4,
    [⟨0, 1, .rw, 0, .pf0⟩, ⟨8, 8, .rw, 16, .pf0⟩, ⟨16, 16, .rw, 256, .pf0⟩]⟩,
  -- ERR_REC (R442)
  ⟨0x11E1000, [(32, 256)], 32,
    [⟨0, 256, .ro, 0, .naeno⟩]⟩,
  -- SEC_STAT (R442)
  ⟨0x11C0000, [], 8,
    [⟨0, 2, .ro, 0, .naeno⟩, ⟨2, 1, .ro, 0, .naeno⟩, ⟨3, 4, .ro, 0, .naeno⟩, ⟨16, 16, .ro, 0, .naeno⟩, ⟨32, 32, .ro, 0, .naeno⟩]⟩,
  -- SEC_ARB (R442)
  ⟨0x11C0008, [], 4,
    [⟨0, 7, .ro, 0, .naeno⟩, ⟨8, 7, .ro, 0, .naeno⟩, ⟨16, 5, .ro, 0, .naeno⟩]⟩,
  -- CORE_SEL (R448)
  ⟨0x1060000, [], 4,
    [⟨0, 8, .rw, 0, .naeno⟩, ⟨8, 8, .rw, 0, .naeno⟩, ⟨16, 1, .ro, 1, .naeno⟩]⟩,
  -- MESH_SCHED_SEL (R449)
  ⟨0x1042000, [], 4,
    [⟨0, 8, .rw, 0, .naeno⟩, ⟨8, 8, .rw, 0, .naeno⟩, ⟨16, 1, .rw, 0, .naeno⟩, ⟨17, 1, .ro, 1, .naeno⟩]⟩]

/-- Part 3 of the registers of BAR0 outside the fuse and factory calibration blocks. -/
def regTable3 : List RegDesc := [
  -- HBM_WIN_SEL (R449)
  ⟨0x10B0010, [(8192, 8)], 4,
    [⟨0, 2, .rw, 0, .naeno⟩, ⟨2, 3, .rw, 0, .naeno⟩, ⟨5, 5, .rw, 0, .naeno⟩, ⟨10, 1, .ro, 1, .naeno⟩]⟩,
  -- HBM_STAT (R449)
  ⟨0x10B0000, [(8192, 8)], 4,
    [⟨0, 2, .ro, 0, .naeno⟩, ⟨2, 1, .ro, 0, .naeno⟩, ⟨16, 16, .ro, 0, .naeno⟩]⟩,
  -- HBM_ERR (R449)
  ⟨0x10B0008, [(8192, 8)], 8,
    [⟨0, 32, .rc, 0, .naeno⟩, ⟨32, 16, .rc, 0, .naeno⟩]⟩,
  -- TEL_SENSOR (R449)
  ⟨0x11D0000, [(4, 64)], 4,
    [⟨0, 16, .ro, 0, .naeno⟩]⟩,
  -- ETH_CFG (R451)
  ⟨0x1180008, [(4096, 2)], 4,
    [⟨0, 1, .rw, 0, .harts⟩, ⟨8, 8, .rw, 0, .harts⟩, ⟨16, 16, .rw, 16, .harts⟩]⟩,
  -- ETH_RSS_KEY (R451)
  ⟨0x1180040, [(4096, 2), (4, 10)], 4,
    [⟨0, 32, .rw, 0, .harts⟩]⟩,
  -- ETH_RSS_TBL (R451)
  ⟨0x1180080, [(4096, 2), (4, 16)], 4,
    [⟨0, 32, .rw, 0, .harts⟩]⟩,
  -- ETH_RXR (R451)
  ⟨0x1180100, [(4096, 2), (16, 16)], 16,
    [⟨0, 48, .rw, 0, .harts⟩, ⟨48, 4, .rw, 0, .harts⟩, ⟨52, 1, .rw, 0, .harts⟩, ⟨64, 16, .rw, 0, .harts⟩, ⟨80, 16, .ro, 0, .harts⟩]⟩,
  -- ETH_TXR (R451)
  ⟨0x1180200, [(4096, 2), (16, 16)], 16,
    [⟨0, 48, .rw, 0, .harts⟩, ⟨48, 4, .rw, 0, .harts⟩, ⟨52, 1, .rw, 0, .harts⟩, ⟨64, 16, .rw, 0, .harts⟩, ⟨80, 16, .ro, 0, .harts⟩]⟩]

/-- The registers of BAR0 outside the fuse and factory calibration blocks. -/
def regTable : List RegDesc := regTable0 ++ regTable1 ++ regTable2 ++ regTable3

/-- Part 0 of the fuses and the factory calibration (R392, R402), at the values of log 6. -/
def fuseTable0 : List RegDesc := [
  -- FUSE_GRADE (R4)
  ⟨0x1000000, [], 4,
    [⟨0, 8, .ro, 96, .naeno⟩, ⟨8, 8, .ro, 96, .naeno⟩, ⟨16, 8, .ro, 96, .naeno⟩, ⟨24, 8, .ro, 48, .naeno⟩]⟩,
  -- FUSE_HALL_ROWS (R14)
  ⟨0x1000004, [], 4,
    [⟨0, 8, .ro, 24, .naeno⟩, ⟨8, 8, .ro, 24, .naeno⟩, ⟨16, 8, .ro, 24, .naeno⟩, ⟨24, 8, .ro, 24, .naeno⟩]⟩,
  -- FUSE_ROW (R392)
  ⟨0x1000100, [(16, 192)], 16,
    [⟨0, 50, .ro, 50331648, .naeno⟩, ⟨64, 50, .ro, 0, .naeno⟩, ⟨114, 1, .ro, 0, .naeno⟩]⟩,
  -- FUSE_PORT_EN (R398)
  ⟨0x1000010, [], 12,
    [⟨0, 96, .ro, 79228162514264337593543950335, .naeno⟩]⟩,
  -- FUSE_MAC (R398)
  ⟨0x1000020, [], 8,
    [⟨0, 48, .ro, 0, .naeno⟩]⟩,
  -- FUSE_SERIAL (R398)
  ⟨0x1000028, [], 8,
    [⟨0, 64, .ro, 0, .naeno⟩]⟩,
  -- CAL_VF (R451)
  ⟨0x1010100, [(64, 16)], 4,
    [⟨0, 12, .ro, 800, .naeno⟩, ⟨12, 12, .ro, 800, .naeno⟩]⟩,
  ⟨0x1010104, [(64, 16), (4, 15)], 4,
    [⟨0, 12, .ro, 1800, .naeno⟩, ⟨12, 12, .ro, 800, .naeno⟩]⟩,
  -- CAL_VLIM (R451)
  ⟨0x1010500, [(4, 16)], 4,
    [⟨0, 12, .ro, 600, .naeno⟩, ⟨12, 12, .ro, 1000, .naeno⟩]⟩,
  -- CAL_TSENS (R451)
  ⟨0x1010600, [(4, 64)], 4,
    [⟨0, 16, .ro, 0, .naeno⟩]⟩,
  -- CAL_RING (R451)
  ⟨0x1011000, [(4, 3456)], 4,
    [⟨0, 10, .ro, 0, .naeno⟩]⟩,
  -- CAL_HBMDLY (R451)
  ⟨0x1014800, [(4, 512)], 4,
    [⟨0, 8, .ro, 0, .naeno⟩]⟩]

/-- The fuses and the factory calibration (R392, R402), at the values of log 6. -/
def fuseTable : List RegDesc := fuseTable0

/-- Part 0 of the registers of a core's window. -/
def winTable0 : List RegDesc := [
  -- CORE_SCAT_STAT (R103)
  ⟨0x40, [], 4,
    [⟨0, 16, .rc, 0, .naeno⟩]⟩,
  -- CORE_MEM_STAT (R125)
  ⟨0x44, [], 4,
    [⟨0, 5, .rc, 0, .naeno⟩, ⟨8, 8, .rc, 0, .naeno⟩, ⟨16, 8, .rc, 0, .naeno⟩]⟩,
  -- CORE_TIER_MASK (R125)
  ⟨0x48, [], 4,
    [⟨0, 4, .ro, 0, .naeno⟩]⟩,
  -- CORE_CHAN_STAT (R147)
  ⟨0x4C, [], 4,
    [⟨0, 8, .rc, 0, .naeno⟩, ⟨8, 8, .rc, 0, .naeno⟩, ⟨16, 8, .rc, 0, .naeno⟩, ⟨24, 8, .rc, 0, .naeno⟩]⟩,
  -- CORE_EP (R127)
  ⟨0x100, [(16, 32)], 16,
    [⟨0, 1, .ro, 0, .naeno⟩, ⟨1, 1, .ro, 0, .naeno⟩, ⟨2, 1, .ro, 0, .naeno⟩, ⟨8, 8, .ro, 0, .naeno⟩, ⟨16, 6, .ro, 0, .naeno⟩, ⟨24, 8, .ro, 0, .naeno⟩, ⟨32, 5, .ro, 0, .naeno⟩, ⟨37, 3, .ro, 0, .naeno⟩, ⟨40, 7, .ro, 0, .naeno⟩, ⟨48, 10, .ro, 0, .naeno⟩, ⟨64, 16, .ro, 0, .naeno⟩, ⟨96, 8, .ro, 0, .naeno⟩, ⟨104, 7, .ro, 0, .naeno⟩, ⟨111, 1, .ro, 0, .naeno⟩, ⟨112, 8, .ro, 0, .naeno⟩, ⟨120, 8, .ro, 0, .naeno⟩]⟩,
  -- CORE_TQ (R140)
  ⟨0x300, [(96, 8)], 96,
    [⟨0, 1, .ro, 0, .naeno⟩, ⟨1, 1, .ro, 0, .naeno⟩, ⟨8, 5, .ro, 0, .naeno⟩, ⟨16, 5, .ro, 0, .naeno⟩, ⟨21, 11, .ro, 0, .naeno⟩, ⟨32, 16, .ro, 0, .naeno⟩, ⟨48, 16, .ro, 0, .naeno⟩, ⟨64, 16, .rw, 0, .naeno⟩, ⟨80, 16, .rw, 0, .naeno⟩, ⟨96, 32, .ro, 0, .naeno⟩, ⟨128, 8, .ro, 0, .naeno⟩, ⟨136, 8, .ro, 0, .naeno⟩, ⟨144, 8, .ro, 0, .naeno⟩, ⟨152, 8, .ro, 0, .naeno⟩, ⟨160, 8, .ro, 0, .naeno⟩, ⟨168, 6, .ro, 0, .naeno⟩, ⟨176, 8, .ro, 0, .naeno⟩, ⟨184, 8, .ro, 0, .naeno⟩, ⟨192, 16, .ro, 0, .naeno⟩, ⟨208, 16, .ro, 0, .naeno⟩, ⟨224, 1, .ro, 0, .naeno⟩, ⟨225, 1, .ro, 0, .naeno⟩, ⟨256, 512, .ro, 0, .naeno⟩]⟩,
  -- CORE_BOOK (R196)
  ⟨0x1000, [(8, 256)], 8,
    [⟨0, 12, .ro, 0, .naeno⟩, ⟨12, 4, .ro, 0, .naeno⟩, ⟨16, 4, .ro, 0, .naeno⟩, ⟨20, 1, .ro, 0, .naeno⟩, ⟨24, 32, .ro, 0, .naeno⟩]⟩,
  -- CORE_ACCT_HDR (R204)
  ⟨0x600, [], 4,
    [⟨0, 16, .ro, 0, .naeno⟩, ⟨16, 4, .ro, 0, .naeno⟩, ⟨24, 1, .w1c, 0, .pf0AndHarts⟩, ⟨25, 1, .w1c, 0, .pf0AndHarts⟩, ⟨26, 1, .w1c, 0, .pf0AndHarts⟩]⟩,
  -- CORE_ACCT_CYCLES (R204)
  ⟨0x604, [], 4,
    [⟨0, 32, .ro, 0, .naeno⟩]⟩,
  -- CORE_ACCT_ISSUE (R204)
  ⟨0x608, [], 4,
    [⟨0, 32, .ro, 0, .naeno⟩]⟩,
  -- CORE_ACCT_COMPUTE (R204)
  ⟨0x60C, [], 4,
    [⟨0, 32, .ro, 0, .naeno⟩]⟩,
  -- CORE_ACCT_BOOKED (R204)
  ⟨0x610, [], 4,
    [⟨0, 32, .ro, 0, .naeno⟩]⟩,
  -- CORE_ACCT_RECOVERED (R204)
  ⟨0x614, [], 4,
    [⟨0, 32, .ro, 0, .naeno⟩]⟩,
  -- CORE_ACCT_LAG (R204)
  ⟨0x618, [], 4,
    [⟨0, 32, .ro, 0, .naeno⟩]⟩,
  -- CORE_ACCT_SLOTS (R204)
  ⟨0x620, [(4, 4)], 4,
    [⟨0, 32, .ro, 0, .naeno⟩]⟩,
  -- CORE_ACCT_INJECT (R204)
  ⟨0x630, [], 4,
    [⟨0, 32, .ro, 0, .naeno⟩]⟩,
  -- CORE_ACCT_DELIVER (R204)
  ⟨0x634, [], 4,
    [⟨0, 32, .ro, 0, .naeno⟩]⟩,
  -- CORE_ACCT_STALL (R204)
  ⟨0x640, [(4, 13)], 4,
    [⟨0, 32, .ro, 0, .naeno⟩]⟩,
  -- CORE_ACCT_IDLE (R204)
  ⟨0x680, [(4, 9)], 4,
    [⟨0, 32, .ro, 0, .naeno⟩]⟩]

/-- The registers of a core's window. -/
def winTable : List RegDesc := winTable0

/-- What a register of BAR0 holds at reset. -/
def regReset (a : Nat) : Nat := tableReset regTable a

/-- What a fuse or factory calibration register holds as fabricated. -/
def fuseReset (a : Nat) : Nat := tableReset fuseTable a

/-- What a register of a core's window holds at reset. -/
def winReset (a : Nat) : Nat := tableReset winTable a

/-! The named fields. -/

def FUSE_GRADE_grade : Fld := ⟨0x1000000, 0, 8⟩
def FUSE_GRADE_rows : Fld := ⟨0x1000000, 8, 8⟩
def FUSE_GRADE_ports : Fld := ⟨0x1000000, 16, 8⟩
def FUSE_GRADE_hbm_gb : Fld := ⟨0x1000000, 24, 8⟩
def FUSE_HALL_ROWS_d0_north : Fld := ⟨0x1000004, 0, 8⟩
def FUSE_HALL_ROWS_d1_north : Fld := ⟨0x1000004, 8, 8⟩
def FUSE_HALL_ROWS_d2_north : Fld := ⟨0x1000004, 16, 8⟩
def FUSE_HALL_ROWS_d3_north : Fld := ⟨0x1000004, 24, 8⟩
def WARD_SPOT_CFG_en : Fld := ⟨0x11A0200, 0, 1⟩
def WARD_SPOT_CFG_period : Fld := ⟨0x11A0200, 8, 5⟩
def WARD_SPOT_CHECKS_count : Fld := ⟨0x11A0204, 0, 32⟩
def WARD_SPOT_FAILS_count : Fld := ⟨0x11A0208, 0, 16⟩
def WARD_SPOT_LAST_arcade : Fld := ⟨0x11A020C, 0, 10⟩
def WARD_SPOT_LAST_core : Fld := ⟨0x11A020C, 10, 4⟩
def PWR_STOCK_ON_LO_on : Fld := ⟨0x1020100, 0, 32⟩
def PWR_STOCK_ON_HI_on : Fld := ⟨0x1020104, 0, 32⟩
def MESH_SLOT_slot : Fld := ⟨0x1040000, 0, 12⟩
def MESH_SLOT_bank : Fld := ⟨0x1040000, 12, 1⟩
def MESH_SLOT_epoch : Fld := ⟨0x1040000, 16, 16⟩
def MESH_EPOCH_CTL_entries : Fld := ⟨0x1040004, 0, 3⟩
def MESH_EPOCH_CTL_next : Fld := ⟨0x1040004, 3, 3⟩
def MESH_EPOCH_CTL_owner_valid : Fld := ⟨0x1040004, 6, 1⟩
def MESH_EPOCH_CTL_owner_job : Fld := ⟨0x1040004, 8, 16⟩
def MESH_EPOCH_CTL_owner_gen : Fld := ⟨0x1040004, 24, 8⟩
def MESH_VOTES_votes : Fld := ⟨0x1040008, 0, 16⟩
def MESH_STAT_orphan : Fld := ⟨0x104000C, 0, 8⟩
def MESH_STAT_turn_drop : Fld := ⟨0x104000C, 8, 8⟩
def MESH_STAT_fill_short : Fld := ⟨0x104000C, 16, 8⟩
def MESH_STAT_late_turn : Fld := ⟨0x104000C, 24, 8⟩
def MESH_EPOCH_votes (i : Nat) : Fld := ⟨0x1040040 + i * 8, 0, 14⟩
def MESH_EPOCH_turn_lead (i : Nat) : Fld := ⟨0x1040040 + i * 8, 16, 16⟩
def MESH_EPOCH_period (i : Nat) : Fld := ⟨0x1040040 + i * 8, 32, 12⟩
def MESH_EPOCH_cnt (i : Nat) : Fld := ⟨0x1040040 + i * 8, 44, 6⟩
def MESH_EPOCH_cnt_en (i : Nat) : Fld := ⟨0x1040040 + i * 8, 50, 1⟩
def MESH_EPOCH_drain (i : Nat) : Fld := ⟨0x1040040 + i * 8, 52, 10⟩
def ERRAND_STAT_absorbed : Fld := ⟨0x1050000, 0, 16⟩
def ERRAND_STAT_turn_lat_max : Fld := ⟨0x1050000, 16, 16⟩
def WARD_BUCKET_STAT_variant : Fld := ⟨0x11A0220, 0, 4⟩
def WARD_BUCKET_STAT_idx : Fld := ⟨0x11A0220, 4, 21⟩
def WARD_BUCKET_REJ_count : Fld := ⟨0x11A0224, 0, 16⟩
def PORTER_STAT_tags_busy (i : Nat) : Fld := ⟨0x1080000 + i * 4096, 0, 11⟩
def PORTER_STAT_tags_hwm (i : Nat) : Fld := ⟨0x1080000 + i * 4096, 11, 11⟩
def PORTER_WAITS_tag_waits (i : Nat) : Fld := ⟨0x1080004 + i * 4096, 0, 16⟩
def PORTER_WAITS_a2_waits (i : Nat) : Fld := ⟨0x1080004 + i * 4096, 16, 16⟩
def PORTER_ERR_poisoned (i : Nat) : Fld := ⟨0x1080008 + i * 4096, 0, 8⟩
def PORTER_ERR_refused (i : Nat) : Fld := ⟨0x1080008 + i * 4096, 8, 8⟩
def PORTER_ERR_reason (i : Nat) : Fld := ⟨0x1080008 + i * 4096, 16, 4⟩
def PORTER_CFG_timeout (i : Nat) : Fld := ⟨0x108000C + i * 4096, 0, 16⟩
def PORTER_CTX_valid (i j : Nat) : Fld := ⟨0x1080100 + i * 4096 + j * 16, 0, 1⟩
def PORTER_CTX_a2 (i j : Nat) : Fld := ⟨0x1080100 + i * 4096 + j * 16, 1, 1⟩
def PORTER_CTX_jgen (i j : Nat) : Fld := ⟨0x1080100 + i * 4096 + j * 16, 8, 8⟩
def PORTER_CTX_job (i j : Nat) : Fld := ⟨0x1080100 + i * 4096 + j * 16, 16, 16⟩
def PORTER_CTX_hold (i j : Nat) : Fld := ⟨0x1080100 + i * 4096 + j * 16, 32, 8⟩
def PORTER_PTBASE_base (i j : Nat) : Fld := ⟨0x1080108 + i * 4096 + j * 16, 22, 17⟩
def PORTER_POOL_credits (i j k : Nat) : Fld := ⟨0x1080400 + i * 4096 + j * 64 + k * 4, 0, 16⟩
def CLERK_STAT_state (i : Nat) : Fld := ⟨0x10A0000 + i * 256, 0, 2⟩
def CLERK_STAT_queued (i : Nat) : Fld := ⟨0x10A0000 + i * 256, 2, 7⟩
def CLERK_STAT_reason (i : Nat) : Fld := ⟨0x10A0000 + i * 256, 9, 4⟩
def CLERK_STAT_refused (i : Nat) : Fld := ⟨0x10A0000 + i * 256, 13, 8⟩
def CLERK_PROG_rows (i : Nat) : Fld := ⟨0x10A0004 + i * 256, 0, 32⟩
def CLERK_CNT_nf_grad (i : Nat) : Fld := ⟨0x10A0008 + i * 256, 0, 16⟩
def CLERK_CNT_nf_result (i : Nat) : Fld := ⟨0x10A0008 + i * 256, 16, 16⟩
def CLERK_CNT_clamped (i : Nat) : Fld := ⟨0x10A0008 + i * 256, 32, 32⟩
def CLERK_CFG_watchdog (i : Nat) : Fld := ⟨0x10A0010 + i * 256, 0, 16⟩
def CLERK_CFG_fail (i : Nat) : Fld := ⟨0x10A0010 + i * 256, 16, 1⟩
def CLERK_CTX_stbase (i j : Nat) : Fld := ⟨0x10A0020 + i * 256 + j * 16, 0, 40⟩
def CLERK_CTX_nshard (i j : Nat) : Fld := ⟨0x10A0020 + i * 256 + j * 16, 40, 16⟩
def CLERK_CTX_hbase (i j : Nat) : Fld := ⟨0x10A0020 + i * 256 + j * 16, 64, 40⟩
def CLERK_SKIP_en : Fld := ⟨0x10A4000, 0, 1⟩
def CLERK_SKIP_ext : Fld := ⟨0x10A4000, 1, 1⟩
def CLERK_SKIP_nscan : Fld := ⟨0x10A4000, 16, 16⟩
def CLERK_SKIP_threshold : Fld := ⟨0x10A4000, 32, 32⟩
def CLERK_SKIP_STAT_v0 : Fld := ⟨0x10A4008, 0, 2⟩
def CLERK_SKIP_STAT_v1 : Fld := ⟨0x10A4008, 2, 2⟩
def CLERK_SKIP_STAT_skipped : Fld := ⟨0x10A4008, 16, 16⟩
def CLERK_SKIP_STAT_total : Fld := ⟨0x10A4008, 32, 32⟩
def WARD_STEP_CFG_span : Fld := ⟨0x11A0240, 0, 16⟩
def WARD_STEP_CFG_tps : Fld := ⟨0x11A0240, 16, 4⟩
def WARD_STEP_GATE_running : Fld := ⟨0x11A0244, 0, 14⟩
def WARD_STEP_GATE_pending : Fld := ⟨0x11A0244, 14, 1⟩
def WARD_STEP_GATE_drained : Fld := ⟨0x11A0244, 15, 1⟩
def WARD_STEP_GATE_turn_wait : Fld := ⟨0x11A0244, 16, 1⟩
def WARD_STEP_GATE_variant_wait : Fld := ⟨0x11A0244, 17, 1⟩
def WARD_STEP_NOW_step : Fld := ⟨0x11A0248, 0, 32⟩
def WARD_STEP_REFUSED_count : Fld := ⟨0x11A024C, 0, 16⟩
def LINK_PORT_CFG_valid (i : Nat) : Fld := ⟨0x1100000 + i * 4096, 0, 1⟩
def LINK_PORT_CFG_axis (i : Nat) : Fld := ⟨0x1100000 + i * 4096, 1, 3⟩
def LINK_PORT_CFG_dir (i : Nat) : Fld := ⟨0x1100000 + i * 4096, 4, 1⟩
def LINK_PORT_CFG_dateline (i : Nat) : Fld := ⟨0x1100000 + i * 4096, 5, 1⟩
def LINK_PORT_CFG_peer_dev (i : Nat) : Fld := ⟨0x1100000 + i * 4096, 8, 18⟩
def LINK_PORT_CFG_peer_port (i : Nat) : Fld := ⟨0x1100000 + i * 4096, 32, 7⟩
def LINK_FLOW_valid (i j : Nat) : Fld := ⟨0x1100100 + i * 4096 + j * 16, 0, 1⟩
def LINK_FLOW_dir (i j : Nat) : Fld := ⟨0x1100100 + i * 4096 + j * 16, 1, 1⟩
def LINK_FLOW_pass (i j : Nat) : Fld := ⟨0x1100100 + i * 4096 + j * 16, 2, 1⟩
def LINK_FLOW_gone (i j : Nat) : Fld := ⟨0x1100100 + i * 4096 + j * 16, 3, 1⟩
def LINK_FLOW_lane (i j : Nat) : Fld := ⟨0x1100100 + i * 4096 + j * 16, 4, 2⟩
def LINK_FLOW_ltag (i j : Nat) : Fld := ⟨0x1100100 + i * 4096 + j * 16, 8, 8⟩
def LINK_FLOW_rflow (i j : Nat) : Fld := ⟨0x1100100 + i * 4096 + j * 16, 16, 6⟩
def LINK_FLOW_gen (i j : Nat) : Fld := ⟨0x1100100 + i * 4096 + j * 16, 24, 8⟩
def LINK_FLOW_depth (i j : Nat) : Fld := ⟨0x1100100 + i * 4096 + j * 16, 32, 8⟩
def LINK_FLOW_credits (i j : Nat) : Fld := ⟨0x1100100 + i * 4096 + j * 16, 40, 8⟩
def LINK_FLOW_ax (i j : Nat) : Fld := ⟨0x1100100 + i * 4096 + j * 16, 48, 8⟩
def LINK_FLOW_ay (i j : Nat) : Fld := ⟨0x1100100 + i * 4096 + j * 16, 56, 8⟩
def LINK_FLOW_aep (i j : Nat) : Fld := ⟨0x1100100 + i * 4096 + j * 16, 64, 6⟩
def LINK_FLOW_tally (i j : Nat) : Fld := ⟨0x1100100 + i * 4096 + j * 16, 70, 1⟩
def LINK_FLOW_sstep (i j : Nat) : Fld := ⟨0x1100100 + i * 4096 + j * 16, 72, 6⟩
def LINK_FLOW_slot (i j : Nat) : Fld := ⟨0x1100100 + i * 4096 + j * 16, 80, 8⟩
def LINK_FLOW_islot (i j : Nat) : Fld := ⟨0x1100100 + i * 4096 + j * 16, 88, 8⟩
def WARD_RCPT_BASE_va : Fld := ⟨0x11A0260, 9, 31⟩
def WARD_RCPT_CFG_log2n : Fld := ⟨0x11A0268, 0, 5⟩
def WARD_RCPT_CFG_en : Fld := ⟨0x11A0268, 5, 1⟩
def WARD_RCPT_HEAD_count : Fld := ⟨0x11A026C, 0, 32⟩
def WARD_ROSTER_n : Fld := ⟨0x11A0280, 0, 7⟩
def WARD_ROSTER_pos : Fld := ⟨0x11A0280, 8, 6⟩
def WARD_ROSTER_absent_valid : Fld := ⟨0x11A0280, 14, 1⟩
def WARD_ROSTER_absent : Fld := ⟨0x11A0280, 16, 6⟩
def WARD_ROSTER_late_limit : Fld := ⟨0x11A0280, 24, 8⟩
def WARD_ROSTER_eff_step : Fld := ⟨0x11A0280, 32, 32⟩
def LINK_STATE_state (i : Nat) : Fld := ⟨0x1100010 + i * 4096, 0, 4⟩
def LINK_STATE_fence (i : Nat) : Fld := ⟨0x1100010 + i * 4096, 4, 3⟩
def LINK_STATE_down (i : Nat) : Fld := ⟨0x1100010 + i * 4096, 8, 4⟩
def LINK_PEER_devnum (i : Nat) : Fld := ⟨0x1100018 + i * 4096, 0, 18⟩
def LINK_PEER_port (i : Nat) : Fld := ⟨0x1100018 + i * 4096, 18, 7⟩
def LINK_PEER_grade (i : Nat) : Fld := ⟨0x1100018 + i * 4096, 25, 8⟩
def LINK_PEER_valid (i : Nat) : Fld := ⟨0x1100018 + i * 4096, 33, 1⟩
def LINK_PEER_seen (i : Nat) : Fld := ⟨0x1100018 + i * 4096, 34, 1⟩
def LINK_TXMAP_lane (i : Nat) : Fld := ⟨0x1100020 + i * 4096, 0, 80⟩
def LINK_TXMAP_wstate (i : Nat) : Fld := ⟨0x1100020 + i * 4096, 80, 36⟩
def LINK_RXMAP_lane (i : Nat) : Fld := ⟨0x1100030 + i * 4096, 0, 80⟩
def LINK_RXMAP_wstate (i : Nat) : Fld := ⟨0x1100030 + i * 4096, 80, 36⟩
def LINK_ERR_fec_corr (i : Nat) : Fld := ⟨0x1100040 + i * 4096, 0, 32⟩
def LINK_ERR_fec_unc (i : Nat) : Fld := ⟨0x1100040 + i * 4096, 32, 16⟩
def LINK_ERR_crc_bad (i : Nat) : Fld := ⟨0x1100040 + i * 4096, 48, 8⟩
def LINK_ERR_bad (i : Nat) : Fld := ⟨0x1100040 + i * 4096, 56, 8⟩
def LINK_RETRY_replays (i : Nat) : Fld := ⟨0x1100048 + i * 4096, 0, 16⟩
def LINK_RETRY_realigns (i : Nat) : Fld := ⟨0x1100048 + i * 4096, 16, 8⟩
def LINK_RETRY_tx_spares (i : Nat) : Fld := ⟨0x1100048 + i * 4096, 24, 2⟩
def LINK_RETRY_rx_spares (i : Nat) : Fld := ⟨0x1100048 + i * 4096, 26, 2⟩
def LINK_ASSAY_RX_assay (i : Nat) : Fld := ⟨0x1100050 + i * 4096, 0, 128⟩
def LINK_ASSAY_ST_tag (i : Nat) : Fld := ⟨0x1100060 + i * 4096, 0, 6⟩
def LINK_ASSAY_ST_held (i : Nat) : Fld := ⟨0x1100060 + i * 4096, 6, 1⟩
def LINK_ASSAY_ST_match (i : Nat) : Fld := ⟨0x1100060 + i * 4096, 7, 1⟩
def LINK_ASSAY_ST_mism (i : Nat) : Fld := ⟨0x1100060 + i * 4096, 8, 8⟩
def LINK_PEER_EPOCH_epoch (i : Nat) : Fld := ⟨0x1100068 + i * 4096, 0, 16⟩
def LINK_PEER_EPOCH_step (i : Nat) : Fld := ⟨0x1100068 + i * 4096, 16, 16⟩
def LINK_ASSAY_bytes (i : Nat) : Fld := ⟨0x1160000 + i * 4, 0, 32⟩
def LINK_ASSAY_PREV_bytes (i : Nat) : Fld := ⟨0x1160020 + i * 4, 0, 32⟩
def LINK_CFG_nak_us : Fld := ⟨0x1160040, 0, 8⟩
def LINK_CFG_replay_max : Fld := ⟨0x1160040, 8, 8⟩
def LINK_CFG_realign : Fld := ⟨0x1160040, 16, 8⟩
def LINK_CFG_assay : Fld := ⟨0x1160040, 24, 8⟩
def LINK_CFG_corr_max : Fld := ⟨0x1160040, 32, 16⟩
def OPT_LASER_STAT_ok (i : Nat) : Fld := ⟨0x10C0000 + i * 4096, 0, 18⟩
def PCIE_STAT_ready : Fld := ⟨0x1190000, 0, 1⟩
def PCIE_STAT_rate : Fld := ⟨0x1190000, 1, 3⟩
def PCIE_STAT_width : Fld := ⟨0x1190000, 4, 5⟩
def PCIE_STAT_flit : Fld := ⟨0x1190000, 9, 1⟩
def PCIE_ERR_bad_acc : Fld := ⟨0x1190004, 0, 8⟩
def PCIE_ERR_win_miss : Fld := ⟨0x1190004, 8, 8⟩
def PCIE_ERR_db_foreign : Fld := ⟨0x1190004, 16, 8⟩
def PCIE_ERR_db_bad : Fld := ⟨0x1190004, 24, 8⟩
def PCIE_QMAP_valid (i : Nat) : Fld := ⟨0x1190100 + i * 4, 0, 1⟩
def PCIE_QMAP_func (i : Nat) : Fld := ⟨0x1190100 + i * 4, 1, 4⟩
def PCIE_QMAP_vector (i : Nat) : Fld := ⟨0x1190100 + i * 4, 5, 6⟩
def PCIE_WIN_start (i : Nat) : Fld := ⟨0x1190200 + i * 8, 0, 18⟩
def PCIE_WIN_pages (i : Nat) : Fld := ⟨0x1190200 + i * 8, 32, 16⟩
def ETH_STAT_link (i : Nat) : Fld := ⟨0x1180000 + i * 4096, 0, 1⟩
def ETH_STAT_rx_fcs (i : Nat) : Fld := ⟨0x1180000 + i * 4096, 16, 16⟩
def ETH_STAT_rx_drop (i : Nat) : Fld := ⟨0x1180000 + i * 4096, 32, 32⟩
def WARD_Q_en (i : Nat) : Fld := ⟨0x11A1000 + i * 32, 0, 1⟩
def WARD_Q_loc (i : Nat) : Fld := ⟨0x11A1000 + i * 32, 1, 2⟩
def WARD_Q_cls (i : Nat) : Fld := ⟨0x11A1000 + i * 32, 3, 2⟩
def WARD_Q_a2 (i : Nat) : Fld := ⟨0x11A1000 + i * 32, 5, 1⟩
def WARD_Q_log2n (i : Nat) : Fld := ⟨0x11A1000 + i * 32, 6, 4⟩
def WARD_Q_func (i : Nat) : Fld := ⟨0x11A1000 + i * 32, 10, 4⟩
def WARD_Q_vector (i : Nat) : Fld := ⟨0x11A1000 + i * 32, 14, 6⟩
def WARD_Q_limit (i : Nat) : Fld := ⟨0x11A1000 + i * 32, 20, 8⟩
def WARD_Q_err (i : Nat) : Fld := ⟨0x11A1000 + i * 32, 28, 4⟩
def WARD_Q_port (i : Nat) : Fld := ⟨0x11A1000 + i * 32, 32, 7⟩
def WARD_Q_cbase (i : Nat) : Fld := ⟨0x11A1000 + i * 32, 64, 64⟩
def WARD_Q_rbase (i : Nat) : Fld := ⟨0x11A1000 + i * 32, 128, 64⟩
def WARD_Q_tail (i : Nat) : Fld := ⟨0x11A1000 + i * 32, 192, 16⟩
def WARD_Q_head (i : Nat) : Fld := ⟨0x11A1000 + i * 32, 208, 16⟩
def WARD_Q_rindex (i : Nat) : Fld := ⟨0x11A1000 + i * 32, 224, 16⟩
def WARD_Q_pending (i : Nat) : Fld := ⟨0x11A1000 + i * 32, 240, 16⟩
def WARD_LOAD_busy : Fld := ⟨0x11A0300, 0, 10⟩
def WARD_LOAD_pending : Fld := ⟨0x11A0300, 10, 10⟩
def WARD_LOAD_busy_replies : Fld := ⟨0x11A0300, 20, 12⟩
def WARD_ACTIVE_die : Fld := ⟨0x11A0304, 0, 2⟩
def WARD_ACTIVE_alive : Fld := ⟨0x11A0304, 2, 4⟩
def WARD_ACTIVE_takeovers : Fld := ⟨0x11A0304, 6, 8⟩
def WARD_DELEG_fill : Fld := ⟨0x11A0308, 0, 1⟩
def WARD_DELEG_copy : Fld := ⟨0x11A0308, 1, 1⟩
def WARD_DELEG_export : Fld := ⟨0x11A0308, 2, 1⟩
def WARD_DELEG_import : Fld := ⟨0x11A0308, 3, 1⟩
def BRK_CPX_STAT_state (i : Nat) : Fld := ⟨0x11B0000 + i * 256, 0, 2⟩
def BRK_CPX_STAT_slots (i : Nat) : Fld := ⟨0x11B0000 + i * 256, 2, 4⟩
def BRK_CPX_STAT_evb (i : Nat) : Fld := ⟨0x11B0000 + i * 256, 8, 8⟩
def BRK_CPX_STAT_binv (i : Nat) : Fld := ⟨0x11B0000 + i * 256, 16, 16⟩
def BRK_CPX_STAT_svn (i : Nat) : Fld := ⟨0x11B0000 + i * 256, 32, 32⟩
def BRK_REGION_start (i j : Nat) : Fld := ⟨0x11B0010 + i * 256 + j * 8, 0, 18⟩
def BRK_REGION_pages (i j : Nat) : Fld := ⟨0x11B0010 + i * 256 + j * 8, 32, 18⟩
def BRK_BIND_job0 (i : Nat) : Fld := ⟨0x11B0090 + i * 256, 0, 16⟩
def BRK_BIND_job1 (i : Nat) : Fld := ⟨0x11B0090 + i * 256, 24, 16⟩
def BRK_BIND_job2 (i : Nat) : Fld := ⟨0x11B0090 + i * 256, 48, 16⟩
def BRK_BIND_job3 (i : Nat) : Fld := ⟨0x11B0090 + i * 256, 72, 16⟩
def BRK_BIND_jgen0 (i : Nat) : Fld := ⟨0x11B0090 + i * 256, 16, 8⟩
def BRK_BIND_jgen1 (i : Nat) : Fld := ⟨0x11B0090 + i * 256, 40, 8⟩
def BRK_BIND_jgen2 (i : Nat) : Fld := ⟨0x11B0090 + i * 256, 64, 8⟩
def BRK_BIND_jgen3 (i : Nat) : Fld := ⟨0x11B0090 + i * 256, 88, 8⟩
def BRK_ESEND_head (i : Nat) : Fld := ⟨0x11B2000 + i * 64, 0, 128⟩
def BRK_ESEND_pay0 (i : Nat) : Fld := ⟨0x11B2000 + i * 64, 128, 128⟩
def BRK_ESEND_pay1 (i : Nat) : Fld := ⟨0x11B2000 + i * 64, 256, 128⟩
def BRK_ESEND_go (i : Nat) : Fld := ⟨0x11B2000 + i * 64, 384, 1⟩
def BRK_ESEND_busy (i : Nat) : Fld := ⟨0x11B2000 + i * 64, 385, 1⟩
def BRK_ESEND_dropped (i : Nat) : Fld := ⟨0x11B2000 + i * 64, 386, 1⟩
def BOOT_STRAP_boot_src : Fld := ⟨0x0, 0, 1⟩
def BOOT_STRAP_link_auto : Fld := ⟨0x0, 1, 1⟩
def BOOT_STAT_stage : Fld := ⟨0x4, 0, 4⟩
def BOOT_STAT_cause : Fld := ⟨0x4, 4, 4⟩
def BOOT_STAT_detail : Fld := ⟨0x4, 8, 8⟩
def BOOT_STAT_copy : Fld := ⟨0x4, 16, 1⟩
def BOOT_STEP_step : Fld := ⟨0x8, 0, 4⟩
def BOOT_STEP_arg : Fld := ⟨0x8, 4, 4⟩
def BOOT_STEP_go : Fld := ⟨0x8, 8, 1⟩
def BOOT_STEP_status : Fld := ⟨0x8, 9, 3⟩
def BOOT_STEP_elapsed : Fld := ⟨0x8, 16, 16⟩
def WARD_RESET_CFG_auto : Fld := ⟨0x11A0320, 0, 1⟩
def WARD_RESET_CFG_quiet : Fld := ⟨0x11A0320, 16, 16⟩
def WARD_KILL_STAT_job : Fld := ⟨0x11A0324, 0, 16⟩
def WARD_KILL_STAT_jgen : Fld := ⟨0x11A0324, 16, 8⟩
def WARD_KILL_STAT_phase : Fld := ⟨0x11A0324, 24, 3⟩
def WARD_JOB_NEXT_id : Fld := ⟨0x11A0328, 0, 16⟩
def WARD_JOB_NEXT_gen : Fld := ⟨0x11A0328, 16, 8⟩
def FUSE_ROW_hidden (i : Nat) : Fld := ⟨0x1000100 + i * 16, 0, 50⟩
def FUSE_ROW_bad (i : Nat) : Fld := ⟨0x1000100 + i * 16, 64, 50⟩
def FUSE_ROW_retired (i : Nat) : Fld := ⟨0x1000100 + i * 16, 114, 1⟩
def FUSE_PORT_EN_en : Fld := ⟨0x1000010, 0, 96⟩
def FUSE_MAC_addr : Fld := ⟨0x1000020, 0, 48⟩
def FUSE_SERIAL_serial : Fld := ⟨0x1000028, 0, 64⟩
def MESH_ROWMAP_hidden (i : Nat) : Fld := ⟨0x1041000 + i * 16, 0, 50⟩
def MESH_ROWMAP_faulty (i : Nat) : Fld := ⟨0x1041000 + i * 16, 64, 50⟩
def MESH_ROWMAP_retired (i : Nat) : Fld := ⟨0x1041000 + i * 16, 114, 1⟩
def CAL_STAT_overlay : Fld := ⟨0x1010000, 0, 2⟩
def CAL_STAT_key : Fld := ⟨0x1010000, 2, 1⟩
def CAL_STAT_items : Fld := ⟨0x1010000, 3, 13⟩
def CAL_STAT_reason : Fld := ⟨0x1010000, 16, 4⟩
def PWR_CAP_CFG_cap : Fld := ⟨0x1020010, 0, 12⟩
def PWR_CAP_CFG_min : Fld := ⟨0x1020010, 12, 12⟩
def PWR_CAP_CFG_margin : Fld := ⟨0x1020010, 24, 8⟩
def PWR_CAP_CFG_hall_w : Fld := ⟨0x1020010, 32, 8⟩
def PWR_STAT_power : Fld := ⟨0x1020014, 0, 12⟩
def PWR_STAT_over : Fld := ⟨0x1020014, 12, 1⟩
def PWR_STAT_vr_fail : Fld := ⟨0x1020014, 16, 4⟩
def PWR_STAT_vr_status : Fld := ⟨0x1020014, 20, 8⟩
def PWR_THERM_hottest : Fld := ⟨0x1020018, 0, 16⟩
def PWR_THERM_throttle : Fld := ⟨0x1020018, 16, 8⟩
def PWR_DOM_state (i : Nat) : Fld := ⟨0x1020200 + i * 4, 0, 2⟩
def PWR_DOM_busy (i : Nat) : Fld := ⟨0x1020200 + i * 4, 2, 1⟩
def PWR_DOM_held (i : Nat) : Fld := ⟨0x1020200 + i * 4, 3, 1⟩
def PWR_DOM_job (i : Nat) : Fld := ⟨0x1020200 + i * 4, 4, 16⟩
def CLK_CORE_target : Fld := ⟨0x1030000, 0, 12⟩
def CLK_CORE_current : Fld := ⟨0x1030000, 12, 12⟩
def CLK_CORE_floor : Fld := ⟨0x1030000, 24, 12⟩
def CLK_STAT_limit : Fld := ⟨0x1030008, 0, 3⟩
def CLK_STAT_stretch : Fld := ⟨0x1030008, 8, 24⟩
def CLK_AVS_mv (i : Nat) : Fld := ⟨0x1030010 + i * 4, 0, 12⟩
def CLK_AVS_crc_fail (i : Nat) : Fld := ⟨0x1030010 + i * 4, 12, 8⟩
def WARD_BELL_CFG_ms : Fld := ⟨0x11A0340, 0, 16⟩
def WARD_BELL_CFG_hold : Fld := ⟨0x11A0340, 16, 1⟩
def WARD_BELL_STAT_job : Fld := ⟨0x11A0344, 0, 16⟩
def WARD_BELL_STAT_jgen : Fld := ⟨0x11A0344, 16, 8⟩
def WARD_BELL_STAT_fired : Fld := ⟨0x11A0344, 24, 1⟩
def WARD_BELL_STAT_count : Fld := ⟨0x11A0344, 25, 7⟩
def ERR_OPEN_corrected : Fld := ⟨0x11E0000, 0, 16⟩
def ERR_OPEN_deferred : Fld := ⟨0x11E0000, 16, 16⟩
def ERR_OPEN_step_lost : Fld := ⟨0x11E0000, 32, 16⟩
def ERR_OPEN_job_lost : Fld := ⟨0x11E0000, 48, 16⟩
def ERR_STAT_device_lost : Fld := ⟨0x11E0008, 0, 16⟩
def ERR_STAT_worst : Fld := ⟨0x11E0008, 16, 3⟩
def ERR_STAT_seq : Fld := ⟨0x11E0008, 32, 32⟩
def ERR_ACK_seq : Fld := ⟨0x11E0010, 0, 32⟩
def ERR_CFG_hold : Fld := ⟨0x11E0018, 0, 1⟩
def ERR_CFG_row_ce : Fld := ⟨0x11E0018, 8, 8⟩
def ERR_CFG_page_ce : Fld := ⟨0x11E0018, 16, 16⟩
def ERR_REC_record (i : Nat) : Fld := ⟨0x11E1000 + i * 32, 0, 256⟩
def SEC_STAT_debug : Fld := ⟨0x11C0000, 0, 2⟩
def SEC_STAT_owner_key : Fld := ⟨0x11C0000, 2, 1⟩
def SEC_STAT_revoked : Fld := ⟨0x11C0000, 3, 4⟩
def SEC_STAT_unlock_job : Fld := ⟨0x11C0000, 16, 16⟩
def SEC_STAT_unlock_left : Fld := ⟨0x11C0000, 32, 32⟩
def SEC_ARB_naeno : Fld := ⟨0x11C0008, 0, 7⟩
def SEC_ARB_broker : Fld := ⟨0x11C0008, 8, 7⟩
def SEC_ARB_owner : Fld := ⟨0x11C0008, 16, 5⟩
def CORE_SEL_x : Fld := ⟨0x1060000, 0, 8⟩
def CORE_SEL_y : Fld := ⟨0x1060000, 8, 8⟩
def CORE_SEL_valid : Fld := ⟨0x1060000, 16, 1⟩
def MESH_SCHED_SEL_x : Fld := ⟨0x1042000, 0, 8⟩
def MESH_SCHED_SEL_y : Fld := ⟨0x1042000, 8, 8⟩
def MESH_SCHED_SEL_bank : Fld := ⟨0x1042000, 16, 1⟩
def MESH_SCHED_SEL_valid : Fld := ⟨0x1042000, 17, 1⟩
def HBM_WIN_SEL_kind (i : Nat) : Fld := ⟨0x10B0010 + i * 8192, 0, 2⟩
def HBM_WIN_SEL_sel (i : Nat) : Fld := ⟨0x10B0010 + i * 8192, 2, 3⟩
def HBM_WIN_SEL_idx (i : Nat) : Fld := ⟨0x10B0010 + i * 8192, 5, 5⟩
def HBM_WIN_SEL_valid (i : Nat) : Fld := ⟨0x10B0010 + i * 8192, 10, 1⟩
def HBM_STAT_state (i : Nat) : Fld := ⟨0x10B0000 + i * 8192, 0, 2⟩
def HBM_STAT_marked (i : Nat) : Fld := ⟨0x10B0000 + i * 8192, 2, 1⟩
def HBM_STAT_retired (i : Nat) : Fld := ⟨0x10B0000 + i * 8192, 16, 16⟩
def HBM_ERR_ce (i : Nat) : Fld := ⟨0x10B0008 + i * 8192, 0, 32⟩
def HBM_ERR_ue (i : Nat) : Fld := ⟨0x10B0008 + i * 8192, 32, 16⟩
def TEL_SENSOR_temp (i : Nat) : Fld := ⟨0x11D0000 + i * 4, 0, 16⟩
def ETH_CFG_en (i : Nat) : Fld := ⟨0x1180008 + i * 4096, 0, 1⟩
def ETH_CFG_pfc_en (i : Nat) : Fld := ⟨0x1180008 + i * 4096, 8, 8⟩
def ETH_CFG_pfc_low (i : Nat) : Fld := ⟨0x1180008 + i * 4096, 16, 16⟩
def ETH_RSS_KEY_key (i j : Nat) : Fld := ⟨0x1180040 + i * 4096 + j * 4, 0, 32⟩
def ETH_RSS_TBL_ring (i j : Nat) : Fld := ⟨0x1180080 + i * 4096 + j * 4, 0, 32⟩
def ETH_RXR_base (i j : Nat) : Fld := ⟨0x1180100 + i * 4096 + j * 16, 0, 48⟩
def ETH_RXR_log2n (i j : Nat) : Fld := ⟨0x1180100 + i * 4096 + j * 16, 48, 4⟩
def ETH_RXR_en (i j : Nat) : Fld := ⟨0x1180100 + i * 4096 + j * 16, 52, 1⟩
def ETH_RXR_tail (i j : Nat) : Fld := ⟨0x1180100 + i * 4096 + j * 16, 64, 16⟩
def ETH_RXR_head (i j : Nat) : Fld := ⟨0x1180100 + i * 4096 + j * 16, 80, 16⟩
def ETH_TXR_base (i j : Nat) : Fld := ⟨0x1180200 + i * 4096 + j * 16, 0, 48⟩
def ETH_TXR_log2n (i j : Nat) : Fld := ⟨0x1180200 + i * 4096 + j * 16, 48, 4⟩
def ETH_TXR_en (i j : Nat) : Fld := ⟨0x1180200 + i * 4096 + j * 16, 52, 1⟩
def ETH_TXR_tail (i j : Nat) : Fld := ⟨0x1180200 + i * 4096 + j * 16, 64, 16⟩
def ETH_TXR_head (i j : Nat) : Fld := ⟨0x1180200 + i * 4096 + j * 16, 80, 16⟩
def CAL_VF_freq (i j : Nat) : Fld := ⟨0x1010100 + i * 64 + j * 4, 0, 12⟩
def CAL_VF_mv (i j : Nat) : Fld := ⟨0x1010100 + i * 64 + j * 4, 12, 12⟩
def CAL_VLIM_vmin (i : Nat) : Fld := ⟨0x1010500 + i * 4, 0, 12⟩
def CAL_VLIM_vmax (i : Nat) : Fld := ⟨0x1010500 + i * 4, 12, 12⟩
def CAL_TSENS_offset (i : Nat) : Fld := ⟨0x1010600 + i * 4, 0, 16⟩
def CAL_RING_code (i : Nat) : Fld := ⟨0x1011000 + i * 4, 0, 10⟩
def CAL_HBMDLY_taps (i : Nat) : Fld := ⟨0x1014800 + i * 4, 0, 8⟩
def CORE_SCAT_STAT_oob : Fld := ⟨0x40, 0, 16⟩
def CORE_MEM_STAT_q_hwm : Fld := ⟨0x44, 0, 5⟩
def CORE_MEM_STAT_ovf : Fld := ⟨0x44, 8, 8⟩
def CORE_MEM_STAT_offmask_wr : Fld := ⟨0x44, 16, 8⟩
def CORE_TIER_MASK_mask : Fld := ⟨0x48, 0, 4⟩
def CORE_CHAN_STAT_stale : Fld := ⟨0x4C, 0, 8⟩
def CORE_CHAN_STAT_absorbed : Fld := ⟨0x4C, 8, 8⟩
def CORE_CHAN_STAT_late_fold : Fld := ⟨0x4C, 16, 8⟩
def CORE_CHAN_STAT_late_drop : Fld := ⟨0x4C, 24, 8⟩
def CORE_EP_valid (i : Nat) : Fld := ⟨0x100 + i * 16, 0, 1⟩
def CORE_EP_dir (i : Nat) : Fld := ⟨0x100 + i * 16, 1, 1⟩
def CORE_EP_tally (i : Nat) : Fld := ⟨0x100 + i * 16, 2, 1⟩
def CORE_EP_stage (i : Nat) : Fld := ⟨0x100 + i * 16, 8, 8⟩
def CORE_EP_sstep (i : Nat) : Fld := ⟨0x100 + i * 16, 16, 6⟩
def CORE_EP_gen (i : Nat) : Fld := ⟨0x100 + i * 16, 24, 8⟩
def CORE_EP_dst (i : Nat) : Fld := ⟨0x100 + i * 16, 32, 5⟩
def CORE_EP_fanout (i : Nat) : Fld := ⟨0x100 + i * 16, 37, 3⟩
def CORE_EP_depth (i : Nat) : Fld := ⟨0x100 + i * 16, 40, 7⟩
def CORE_EP_cap_rows (i : Nat) : Fld := ⟨0x100 + i * 16, 48, 10⟩
def CORE_EP_peer_x (i : Nat) : Fld := ⟨0x100 + i * 16, 32, 8⟩
def CORE_EP_peer_y (i : Nat) : Fld := ⟨0x100 + i * 16, 40, 8⟩
def CORE_EP_peer_ep (i : Nat) : Fld := ⟨0x100 + i * 16, 48, 5⟩
def CORE_EP_rx_index (i : Nat) : Fld := ⟨0x100 + i * 16, 53, 3⟩
def CORE_EP_cnt (i : Nat) : Fld := ⟨0x100 + i * 16, 56, 6⟩
def CORE_EP_cnt_en (i : Nat) : Fld := ⟨0x100 + i * 16, 62, 1⟩
def CORE_EP_tcols (i : Nat) : Fld := ⟨0x100 + i * 16, 64, 16⟩
def CORE_EP_qbase (i : Nat) : Fld := ⟨0x100 + i * 16, 64, 11⟩
def CORE_EP_qdepth (i : Nat) : Fld := ⟨0x100 + i * 16, 75, 6⟩
def CORE_EP_entry_rows (i : Nat) : Fld := ⟨0x100 + i * 16, 81, 10⟩
def CORE_EP_slot (i : Nat) : Fld := ⟨0x100 + i * 16, 96, 8⟩
def CORE_EP_credits (i : Nat) : Fld := ⟨0x100 + i * 16, 104, 7⟩
def CORE_EP_gone (i : Nat) : Fld := ⟨0x100 + i * 16, 111, 1⟩
def CORE_EP_rx_gone (i : Nat) : Fld := ⟨0x100 + i * 16, 112, 8⟩
def CORE_EP_held (i : Nat) : Fld := ⟨0x100 + i * 16, 104, 7⟩
def CORE_EP_closed (i : Nat) : Fld := ⟨0x100 + i * 16, 111, 1⟩
def CORE_EP_tag (i : Nat) : Fld := ⟨0x100 + i * 16, 120, 8⟩
def CORE_TQ_valid (i : Nat) : Fld := ⟨0x300 + i * 96, 0, 1⟩
def CORE_TQ_late_fold (i : Nat) : Fld := ⟨0x300 + i * 96, 1, 1⟩
def CORE_TQ_out_ep (i : Nat) : Fld := ⟨0x300 + i * 96, 8, 5⟩
def CORE_TQ_ofmt (i : Nat) : Fld := ⟨0x300 + i * 96, 16, 5⟩
def CORE_TQ_pm_base (i : Nat) : Fld := ⟨0x300 + i * 96, 21, 11⟩
def CORE_TQ_rows (i : Nat) : Fld := ⟨0x300 + i * 96, 32, 16⟩
def CORE_TQ_cols (i : Nat) : Fld := ⟨0x300 + i * 96, 48, 16⟩
def CORE_TQ_expect (i : Nat) : Fld := ⟨0x300 + i * 96, 64, 16⟩
def CORE_TQ_quorum (i : Nat) : Fld := ⟨0x300 + i * 96, 80, 16⟩
def CORE_TQ_deadline (i : Nat) : Fld := ⟨0x300 + i * 96, 96, 32⟩
def CORE_TQ_x0 (i : Nat) : Fld := ⟨0x300 + i * 96, 128, 8⟩
def CORE_TQ_y0 (i : Nat) : Fld := ⟨0x300 + i * 96, 136, 8⟩
def CORE_TQ_x1 (i : Nat) : Fld := ⟨0x300 + i * 96, 144, 8⟩
def CORE_TQ_y1 (i : Nat) : Fld := ⟨0x300 + i * 96, 152, 8⟩
def CORE_TQ_stage (i : Nat) : Fld := ⟨0x300 + i * 96, 160, 8⟩
def CORE_TQ_sstep (i : Nat) : Fld := ⟨0x300 + i * 96, 168, 6⟩
def CORE_TQ_gen (i : Nat) : Fld := ⟨0x300 + i * 96, 176, 8⟩
def CORE_TQ_slot (i : Nat) : Fld := ⟨0x300 + i * 96, 184, 8⟩
def CORE_TQ_count (i : Nat) : Fld := ⟨0x300 + i * 96, 192, 16⟩
def CORE_TQ_folded (i : Nat) : Fld := ⟨0x300 + i * 96, 208, 16⟩
def CORE_TQ_armed (i : Nat) : Fld := ⟨0x300 + i * 96, 224, 1⟩
def CORE_TQ_closed (i : Nat) : Fld := ⟨0x300 + i * 96, 225, 1⟩
def CORE_TQ_ceil (i : Nat) : Fld := ⟨0x300 + i * 96, 256, 512⟩
def CORE_BOOK_pc (i : Nat) : Fld := ⟨0x1000 + i * 8, 0, 12⟩
def CORE_BOOK_cause (i : Nat) : Fld := ⟨0x1000 + i * 8, 12, 4⟩
def CORE_BOOK_idle (i : Nat) : Fld := ⟨0x1000 + i * 8, 16, 4⟩
def CORE_BOOK_porter (i : Nat) : Fld := ⟨0x1000 + i * 8, 20, 1⟩
def CORE_BOOK_booked (i : Nat) : Fld := ⟨0x1000 + i * 8, 24, 32⟩
def CORE_ACCT_HDR_window : Fld := ⟨0x600, 0, 16⟩
def CORE_ACCT_HDR_variant : Fld := ⟨0x600, 16, 4⟩
def CORE_ACCT_HDR_valid : Fld := ⟨0x600, 24, 1⟩
def CORE_ACCT_HDR_ovr : Fld := ⟨0x600, 25, 1⟩
def CORE_ACCT_HDR_miss : Fld := ⟨0x600, 26, 1⟩
def CORE_ACCT_CYCLES_count : Fld := ⟨0x604, 0, 32⟩
def CORE_ACCT_ISSUE_count : Fld := ⟨0x608, 0, 32⟩
def CORE_ACCT_COMPUTE_count : Fld := ⟨0x60C, 0, 32⟩
def CORE_ACCT_BOOKED_count : Fld := ⟨0x610, 0, 32⟩
def CORE_ACCT_RECOVERED_count : Fld := ⟨0x614, 0, 32⟩
def CORE_ACCT_LAG_count : Fld := ⟨0x618, 0, 32⟩
def CORE_ACCT_SLOTS_count (i : Nat) : Fld := ⟨0x620 + i * 4, 0, 32⟩
def CORE_ACCT_INJECT_count : Fld := ⟨0x630, 0, 32⟩
def CORE_ACCT_DELIVER_count : Fld := ⟨0x634, 0, 32⟩
def CORE_ACCT_STALL_count (i : Nat) : Fld := ⟨0x640 + i * 4, 0, 32⟩
def CORE_ACCT_IDLE_count (i : Nat) : Fld := ⟨0x680 + i * 4, 0, 32⟩

end Sys2Proof.Machine
end

