-- ==== Sys2Proof/Config.lean ====
section
/-! DEFINITION. What an implementation fixes and the spec leaves open: opaque constants, so that no proof can see a
value of them. -/

namespace Sys2Proof

/-- The free values of the model: value number `n` of the counter `Dev.freeCtr` (log 1). -/
opaque Config.freeValue : Nat → Nat

/-- The result of a special function of the vector unit, R68: vfunc 0x10 to 0x16, the code of the destination
format (0x00 for a result that is rounded again) and the FP32 bits of the operand, for operands the rule lists no result for.
A 32-bit FP32 encoding (log 11). -/
opaque Config.specialResult : Nat → Nat → Nat → BitVec 32

/-- Whether the result of `specialResult` overflowed (of) or is tiny (uf), which R68 leaves with the value (log 11). -/
opaque Config.specialOverflow : Nat → Nat → Nat → Bool
opaque Config.specialTiny : Nat → Nat → Nat → Bool

/-- The location of an error record, by error code and sequence number, where the error has no byte address, page or CSR_FAULT.info for
R432 to name (log 57). -/
opaque Config.errLocation : Nat → Nat → BitVec 64

/-- The vendor Clerk programs in slots 0 and 2 to 6, which R233 names and does not list (log 8). -/
opaque Config.vendorProgram : Nat → List (BitVec 32)

/-- The vendor public keys VK0 to VK3 of the Warden ROM, R436, as (x, y); the spec gives no value (log 17). -/
opaque Config.vendorKey : Nat → Nat × Nat

end Sys2Proof
end

