-- ==== Sys2Proof/Machine/State.lean ====
section
/-! DEFINITION. The state of the S960 as plain data, its state after reset, and the reasons a step can stop. -/

namespace Sys2Proof.Machine

/-- Why a step stops with a fault. -/
inductive Fault where
  /-- A command names a core, router or unit that the device does not have under its fuses (R3, 00_scope.md,
  "Coordinates and identifiers").  Raised by the operations that look a unit up.  Safe: the spec gives such a command no
  effect, and no run goes on from it. -/
  | noSuchUnit (kind : String) (n : Nat)
  /-- An Ethernet port's descriptor or buffer lies at an HBM address that no usable page of a stack that is ON holds
  (11_memory_tiers_porter.md, "Addressing and page tables"; R410).  Raised by ETH_FRAME_RECEIVE and ETH_FRAME_TRANSMIT.  Safe: the spec
  gives the access no effect, and no run goes on from it. -/
  | noMemory (pa : Nat)
deriving DecidableEq, Repr

/-- Why a step is refused. -/
inductive Refusal where
  /-- The command has no meaning in this model.  Raised by the arms of Dispatch.lean only.  Safe: no run goes on. -/
  | notModelled (mnemonic : String)
deriving DecidableEq, Repr

/-- The run state of a core, CSR_STATUS.state (R34). -/
inductive RunState where
  | run | halted | faulted | reset
deriving DecidableEq, Repr

/-- CSR_FAULT (R34, R49). -/
structure CsrFault where
  code : BitVec 8
  pc : BitVec 12
  info : BitVec 32
deriving DecidableEq, Repr

/-- What a core that has presented an instruction waits for, which decides how its ck are counted (R48, R103, R197). -/
inductive WaitKind where
  /-- A fixed on-chip wait: a footprint, a store, a unit queue (compute under R197); `mover` when the ck beyond the
  booked completion of tensor work count as its own cause (R103, R106). -/
  | interlock (mover : Bool)
  /-- A wait of the table of R48, with the cause its instruction counts under when it has no booking entry. -/
  | stall (cause : Nat)
  /-- A counter wait of R30: counter and target. -/
  | counter (c : BitVec 6) (target : BitVec 32)
  /-- The sequencer is blocked by its VOP (R41). -/
  | vop
deriving DecidableEq, Repr

/-- The wait in progress of a core: the instruction word presented, what it waits for, and the ck waited so far in a wait of
R48. -/
structure CoreWait where
  word : BitVec 32
  kind : WaitKind
  waited : Nat
deriving DecidableEq, Repr

/-- A store issued and not retired (R40): address, width in bytes, data. -/
structure PendStore where
  addr : Nat
  n : Nat
  val : Nat
deriving DecidableEq, Repr

/-- A spot check under way on a TMM (R106): the segment of 16 output elements and the initial elements. -/
structure SpotCheck where
  row : Nat
  col : Nat
deriving DecidableEq, Repr

/-- The tensor operations of R42. -/
inductive TensorKind where
  | tmm | tcvt | tscat
deriving DecidableEq, Repr

/-- A tensor operation outstanding on a unit: its descriptors, fields, actual row counts and LFSR start, all taken at
issue (R42, R64), and the ck of the core at which the ledger books its completion (R103, R175, R472). -/
structure TensorOp where
  kind : TensorKind
  ctr : BitVec 6
  dD : BitVec 128
  dA : BitVec 128
  dB : BitVec 128
  shape : Nat
  order : Nat
  bias : Bool
  acc : Bool
  rowsD : Nat
  rowsA : Nat
  rowsB : Nat
  lfsr : BitVec 32
  booked : Nat
  onCheck : Bool
  spot : Option SpotCheck
  done : Bool
deriving DecidableEq, Repr

/-- The VOP in progress (R41): fields, actual rows, rounding state and duration, taken at issue. -/
structure VopOp where
  vfunc : Nat
  bcast : Bool
  dD : BitVec 128
  dA : BitVec 128
  dB : BitVec 128
  rowsD : Nat
  rowsA : Nat
  rowsB : Nat
  frm : BitVec 3
  lfsr : BitVec 32
  dur : Nat
deriving DecidableEq, Repr

/-- One row add of a TSCAT (R101): the PM row it adds into, none for a skipped row, the 16 FP32 addends and whether the
source row was poisoned. -/
structure RowAdd where
  target : Option Nat
  addend : RowData
  poison : Bool
  pushedAt : Nat
deriving DecidableEq, Repr

/-- A row add in service in a bank: what it writes back and the ck left (R102). -/
structure BankBusy where
  add : RowAdd
  old : RowData
  left : Nat
deriving DecidableEq, Repr

/-- The scatter path of R101 and R102: its own ck count, the row adds not yet pushed, the queues of the 16 banks and the
adds in service. -/
structure Scatter where
  active : Bool
  ck : Nat
  todo : List RowAdd
  queues : Tab (List RowAdd)
  busy : Tab (Option BankBusy)
  lastPush : Nat
  lastEnd : Nat
deriving DecidableEq, Repr

/-- What last advanced a counter, which R200 and R103 need for the cause of a wait. -/
inductive CtrSource where
  | none
  | tensor (booked : Nat) (cause : Nat)
  | porter (fenceWait tagWait : Bool)
  | other
deriving DecidableEq, Repr

/-- The poison bit of a counter with the address of the group's first poisoned row (R223). -/
abbrev CtrPoison := Option (BitVec 24)

/-- Run counts of an endpoint (R129, R133, R134, R252): messages sent, credits returned by each receiver, whether RECV
has returned the head, and the entries at which the queue is filled and emptied. -/
structure EpRun where
  sent : Nat
  returned : Tab Nat
  headGiven : Bool
  fill : Nat
  head : Nat
deriving DecidableEq, Repr

/-- What an open group at a network interface delivers (R117, R157). -/
inductive GroupKind where
  /-- A channel message into entry `entry` of endpoint `ep`. -/
  | message (ep entry : Nat)
  /-- A tally contribution into queue `q`. -/
  | tally (q : Nat)
  /-- A Porter LOAD (R217). -/
  | porter
  /-- Absorbed or sunk: the rows are discarded without a slot (R137, R138, R381). -/
  | absorbed
deriving DecidableEq, Repr

/-- An open group: kind, header row, the rows delivered so far, the rows still in a memory's remote queue, for a group of zero
rows its memory and the rows queued there before it, whether its last row has arrived, its poison mark and the first poisoned
address. -/
structure Group where
  kind : GroupKind
  header : RowData
  seen : Nat
  queued : Nat
  port : Nat
  ahead : Nat
  closedIn : Bool
  poison : Bool
  first : Option (BitVec 24)
deriving DecidableEq, Repr

/-- An entry of a memory's remote queue (R115): a row write, a Porter read of the core's memory with its stream of R152 and the counter
and increment of its last row (R219), or row `part` of a contribution with the accumulator rows it has already been added into
(R144).  `tag` names the group. -/
inductive RemoteOp where
  | write (addr : Nat) (data : RowData) (poison : Bool) (tag : BitVec 8)
  | read (addr : Nat) (stream : Nat) (last : Bool) (dtag : BitVec 8) (ctr : Option (BitVec 6 × BitVec 8))
  | contrib (q : Nat) (part : Nat) (data : RowData) (poison : Bool) (tag : BitVec 8) (doneAdds : Nat)
deriving DecidableEq, Repr

/-- A row in the injection buffer with its stream number of R152. -/
structure InjRow where
  stream : Nat
  row : Row
deriving DecidableEq, Repr

/-- A SEND whose rows have not all been handed to the network interface (R130, R155): its endpoint, the addresses of the rows
to come, and the rows of the message, its poison mark and result register. -/
structure SendRun where
  ep : Nat
  rest : List Nat
  total : Nat
  poison : Bool
deriving DecidableEq, Repr

/-- A contribution header that waits for its classification, with its delivery tag (R143). -/
structure HeldHeader where
  header : RowData
  tag : BitVec 8
  poison : Bool
deriving DecidableEq, Repr

/-- A Porter STORE whose CMD has reached the core's network interface: the packet, the rows still to read and the stream,
delivery tag and counter they go under (R219). -/
structure StoreRun where
  cmd : Packet
  rest : List Nat
  stream : Nat
  dtag : BitVec 8
  ctr : Option (BitVec 6 × BitVec 8)
deriving DecidableEq, Repr

/-- Run state of a tally queue beyond CORE_TQ_n (R143 to R146). -/
structure TqRun where
  tArm : Nat
  byDeadline : Bool
  releasing : Bool
  held : List HeldHeader
  poison : Bool
deriving DecidableEq, Repr

/-- The running window account of a core (R197, R198, R201, R203). -/
structure Acct where
  window : Nat
  openWin : Bool
  cycles : Nat
  issue : Nat
  compute : Nat
  booked : Nat
  recovered : Nat
  stall : Tab Int
  idle : Tab Nat
  outside : Tab Nat
  slots : Tab Nat
  inject : Nat
  deliver : Nat
  lag : Nat
  shares : List (Nat × Nat)
  miss : Bool
deriving DecidableEq, Repr

/-- What a loaded image keeps for the next step start (R51, R252). -/
structure CoreImage where
  present : Bool
  rank : BitVec 16
  desc : Tab (BitVec 128)
  epSlots : Tab Nat
  tqSlots : Tab Nat
deriving DecidableEq, Repr

/-- One logical core (02_core_isa.md, 06_core_memories_stock.md, 07_channels_tally.md, 10_ledger.md).  `began` is CSR_CYCLE at the step's
start (R276, step_ck), `ended` the ck count of the device up to which the idle ck of a core that does not run are counted (R201), and
`stepIdle` the idle ck of the step's closed windows by cause (R201, R276). -/
structure Core where
  g : Tab (BitVec 64)
  d : Tab (BitVec 128)
  c : Tab (BitVec 32)
  cPoison : Tab CtrPoison
  cSrc : Tab CtrSource
  pc : Nat
  run : RunState
  exit : BitVec 16
  fault : CsrFault
  rank : BitVec 16
  fflags : BitVec 5
  frm : BitVec 3
  lfsr : BitVec 32
  cycle : BitVec 64
  instret : BitVec 64
  step : BitVec 32
  job : BitVec 16
  jgen : BitVec 8
  dyn : Tab (BitVec 16)
  image : CoreImage
  wait : Option CoreWait
  gReady : Tab Nat
  dReady : Tab Nat
  stores : List PendStore
  tmm : List TensorOp
  mov : List TensorOp
  tmmFree : Nat
  movFree : Nat
  lastUnit : Nat × Nat
  vop : Option VopOp
  scat : Scatter
  mem : Memory
  poison : Tab Bool
  remote : Tab (List RemoteOp)
  send : Option SendRun
  storeRun : Option StoreRun
  inj : List InjRow
  errand : List Packet
  groups : Tab (Option Group)
  ep : Tab EpRun
  tq : Tab TqRun
  acct : Acct
  win : Tab Nat
  meFaulty : Bool
  recovery : Bool
  began : Nat
  ended : Nat
  stepIdle : Tab Nat
deriving DecidableEq, Repr

def Scatter.idle : Scatter := ⟨false, 0, [], [], [], 0, 0⟩
def EpRun.zero : EpRun := ⟨0, [], false, 0, 0⟩
def TqRun.zero : TqRun := ⟨0, false, false, [], false⟩
def Acct.zero : Acct := ⟨0, false, 0, 0, 0, 0, 0, [], [], [], [], 0, 0, 0, [], false⟩
def CoreImage.none : CoreImage := ⟨false, 0, [], [], []⟩

/-- A core after device reset: state RESET (R34), memories zero (R373), every register at the value of R34 or of log 2. -/
def Core.reset : Core where
  g := []
  d := []
  c := []
  cPoison := []
  cSrc := []
  pc := 0
  run := .reset
  exit := 0
  fault := ⟨0, 0, 0⟩
  rank := 0
  fflags := 0
  frm := 0
  lfsr := 1
  cycle := 0
  instret := 0
  step := 0
  job := 0
  jgen := 0
  dyn := []
  image := CoreImage.none
  wait := .none
  gReady := []
  dReady := []
  stores := []
  tmm := []
  mov := []
  tmmFree := 0
  movFree := 0
  lastUnit := (0, 0)
  vop := .none
  scat := Scatter.idle
  mem := []
  poison := []
  remote := []
  send := .none
  storeRun := .none
  inj := []
  errand := []
  groups := []
  ep := []
  tq := []
  acct := Acct.zero
  win := []
  meFaulty := false
  recovery := false
  began := 0
  ended := 0
  stepIdle := []
/-- A pending turn of the epoch owner (R159, R160): T_turn, the entry in use, the epoch number that TURN carries, the routers that have
received TURN, those that turned on its receipt (R163), and whether injection has stopped. -/
structure Turn where
  tTurn : Nat
  entry : Nat
  epoch : Nat
  got : List Nat
  turned : List Nat
  draining : Bool
deriving DecidableEq, Repr

/-- A row on a link, valid on the named input of a router in one ck (R150, R151). -/
structure LinkRow where
  ck : Nat
  row : Row
deriving DecidableEq, Repr

/-- What an event makes Naeno do at the command's end: decide the step's verdict (R435), kill a job or every job (R431), or look at the
roster after a port has lost its flows (R271, R272). -/
inductive Task where
  | portLost (port : Nat)
  | stepLost (job : BitVec 16) (step : BitVec 32)
  | killJob (job : BitVec 16) (hold : Bool)
  | killAll
deriving DecidableEq, Repr

/-- What crosses the device boundary outwards (log 4). -/
inductive Out where
  /-- An In-Band Interrupt on I3C with its mandatory byte (R320). -/
  | ibi (alert : BitVec 8)
  /-- A flit leaves an optical port (R284). -/
  | flit (port : Nat) (f : BitVec 2048)
  /-- A control symbol leaves an optical port: type and payload (R289). -/
  | symbol (port type : Nat) (payload : BitVec 40)
  /-- Bytes written into host memory through a PCIe function: address, count, value (R333). -/
  | hostWrite (func addr n value : Nat)
  /-- A UDP datagram of the telemetry agent: a core's account, or a receipt when no core is named, with its bytes (R369). -/
  | datagram (core : Option Nat) (n value : Nat)
  /-- An MSI-X vector of a function (R313). -/
  | msix (func vector : Nat)
  /-- The completion of a host's or a hart's access: the value read, none for Unsupported Request or an access fault, and EP (R309 to R311). -/
  | completion (value : Option Nat) (poison : Bool)
  /-- Bytes that the I3C target returns (R319, R320). -/
  | i3cData (bytes : List Byte)
  /-- A frame leaves an Ethernet port (R317). -/
  | frame (port : Nat) (bytes : List Byte)
  /-- A PFC frame of an Ethernet port pauses a priority or ends its pause (R318). -/
  | pfc (port prio : Nat) (pause : Bool)
  /-- A record of a shard goes to storage under a destination ID (R363, R364). -/
  | stored (dest shard : Nat) (bytes : List Byte)
  /-- A request to a core rail's regulator: die and voltage in mV (R415). -/
  | voltage (die mv : Nat)
deriving DecidableEq, Repr

/-- A request of an arcade's check engine (R104, R106, R108): the core, by key, and whether it is a spot check. -/
structure CheckReq where
  core : Nat
  spot : Bool
deriving DecidableEq, Repr

/-- An arcade controller and its check engine (R104 to R109): whether the engine works, its queue, whether the recomputation of a
spot check is ready, and the TMM issues left until the next selection. -/
structure Arcade where
  working : Bool
  queue : List CheckReq
  recomputed : Bool
  countdown : Nat
deriving DecidableEq, Repr

def Arcade.reset : Arcade := ⟨true, [], false, 0⟩

/-- What the step receipt counts from the start of a step to the start of the next one (R275, R276). -/
structure StepCounts where
  deadlineRel : Nat
  folds : Nat
  drops : Nat
  stale : Nat
  absorbed : Nat
  nulls : Nat
  spotFails : Nat
  stepLost : Nat
  poison : Bool
  recovery : Bool
deriving DecidableEq, Repr

def StepCounts.zero : StepCounts := ⟨0, 0, 0, 0, 0, 0, 0, 0, false, false⟩

/-- Where the directory of a stack sends a snoop (R353): the line number, the complex, and whether the line is dropped. -/
structure Snoop where
  line : Nat
  cpx : Nat
  inval : Bool
deriving DecidableEq, Repr

/-- A directory entry (R352): the owner, the sharers, and its place in the order of allocation. -/
structure DirEntry where
  owner : Option Nat
  sharers : List Nat
  stamp : Nat
deriving DecidableEq, Repr

/-- A request of a complex that waits at home for snoops or for a directory entry (R352, R353). -/
structure DirWait where
  line : Nat
  cpx : Nat
  excl : Bool
deriving DecidableEq, Repr

/-- A response to a snoop on its way home (R354): the snoop and the line's data if it was dirty. -/
structure SnoopReply where
  snoop : Snoop
  data : Option RowData
deriving DecidableEq, Repr

/-- An entry of a complex's eviction buffer (R354): the line, its data if the eviction was EVICT_D, whether the eviction has reached
home, and whether a snoop response that came first has delivered the data. -/
structure Evicted where
  cpx : Nat
  line : Nat
  data : Option RowData
  home : Bool
  used : Bool
deriving DecidableEq, Repr

/-- The coherence fabric and its homes (R352 to R354): directory entries by line number, allocations made, snoops sent and not yet
answered at the complex, responses on their way home, requests that wait, the eviction buffers, the WB_ACKs on their way, and
the snoops whose line an eviction that came first has already settled at home. -/
structure Coherence where
  dir : Tab (Option DirEntry)
  allocs : Nat
  snoops : List Snoop
  replies : List SnoopReply
  waits : List DirWait
  buffer : List Evicted
  acks : List (Nat × Nat)
  stale : List Snoop
deriving DecidableEq, Repr

def Coherence.reset : Coherence := ⟨[], 0, [], [], [], [], [], []⟩

/-- The life of a piece and its tag (R214): no tag yet, READ, FULL (or DRAIN once a row has left), FILL, WRITE, and done. -/
inductive PiecePhase where
  | free | read | full | fill | write | done
deriving DecidableEq, Repr

/-- A piece of a transfer (R214): physical address of its first row, rows, phase, the rows in its buffer, poison, place in the order
in which tags were issued (R208), and whether its page goes through the directory (R207). -/
structure Piece where
  addr : Nat
  rows : Nat
  phase : PiecePhase
  data : List RowData
  poison : Bool
  seq : Nat
  coh : Bool
deriving DecidableEq, Repr

/-- A transfer a Porter has accepted (R210 to R221): the packet, its context, and how far it has come. -/
structure Transfer where
  desc : BitVec 256
  pkt : Packet
  ctx : Nat
  started : Bool
  fenceWait : Bool
  tagWait : Bool
  a2Wait : Bool
  credit : Bool
  headerSent : Bool
  headerSeen : Bool
  pieces : List Piece
deriving DecidableEq, Repr

/-- A Porter: its transfers in the order accepted, the stream its round robin serves next, tags issued (R213, R214). -/
structure Porter where
  transfers : List Transfer
  next : Nat
  issued : Nat
deriving DecidableEq, Repr

def Porter.reset : Porter := ⟨[], 0, 0⟩

/-- A fence post on its way from a Clerk to the Porters of its stack: stack, context, fence, step (R220, R238). -/
structure FencePost where
  stack : Nat
  ctx : Nat
  fence : BitVec 12
  step : BitVec 16
deriving DecidableEq, Repr

/-- The schedule a router runs (R153): whether it runs one, the job, the bank, c_bank, the period and the entry of the epoch table. -/
structure RouterRun where
  on : Bool
  job : BitVec 16
  jgen : BitVec 8
  bank : Nat
  start : Nat
  period : Nat
  entry : Nat
deriving DecidableEq, Repr

def RouterRun.reset : RouterRun := ⟨false, 0, 0, 0, 0, 1, 0⟩

/-- A message of a port relay: the rows of one group, header row first, poison, and its virtual lane (R258, R259, R262, R288). -/
structure LinkMsg where
  rows : List RowData
  poison : Bool
  lane : Nat
deriving DecidableEq, Repr

/-- The relays of a port (R258 to R261), by flow: rows of an egress message under way, complete messages that wait for a credit, those
being transmitted, the depth of the peer's flow (R260), the last total received (R290); for ingress flows the messages to present, whether
the flow is closed until the next step start and whether its peer is to be gone (R261), and the credits returned in all; and by lane of the port the rows ready on O. -/
structure Relay where
  part : Tab (List Row)
  queue : Tab (List LinkMsg)
  sending : Tab (List LinkMsg)
  peerDepth : Tab Nat
  last : Tab Nat
  ready : Tab (List LinkMsg)
  closed : Tab Bool
  peerGone : Tab Bool
  returned : Tab Nat
  lane : Tab (List Row)
deriving DecidableEq, Repr

def Relay.reset : Relay := ⟨[], [], [], [], [], [], [], [], [], []⟩

/-- Bytes of a message that wait to leave on a virtual lane, with the egress flow they belong to, none for a service flow. -/
structure TxMsg where
  flow : Option Nat
  bytes : List Byte
deriving DecidableEq, Repr

/-- A flit in the ingress buffer: its pool and the bytes not yet passed on (R292). -/
structure RxFlit where
  pool : Bool
  rest : List Byte
deriving DecidableEq, Repr

/-- A lane being spared (R296): lane, old wavelength, spare, and K; at a receiver whether the lane has locked on the spare. -/
structure Sparing where
  lane : Nat
  old : Nat
  spare : Nat
  k : Nat
  locked : Bool
deriving DecidableEq, Repr

/-- The link logic of a port (R282 to R301): bytes to send by virtual lane and the lane served last, next sequence number, replay buffer
with sequence numbers, the sequence last replayed and how often without progress; the receiver's expected number, whether it is
discarding, flits accepted since the last ACK, framing; credits by pool (lanes 0 to 3, 4 the shared one), last totals received and totals
freed by lane × 2 + pool, the ingress buffer by lane; sparing at both sides; lanes the peer reports ready; the state REALIGN returns to; the
ASSAY parts of one tag; whether a flow table was loaded since the last ASSAY fence (R305); credits and last totals of service flows
(R290); whether GOING_DOWN has come since the link came up (R301). -/
structure Port where
  tx : Tab (List TxMsg)
  turn : Nat
  seq : Nat
  replay : List (Nat × BitVec 2048)
  replayOf : Nat
  replays : Nat
  expected : Nat
  discarding : Bool
  accepted : Nat
  framed : Bool
  credits : Tab Nat
  last : Tab Nat
  freed : Tab Nat
  rx : Tab (List RxFlit)
  txSpare : List Sparing
  rxSpare : List Sparing
  peerReady : BitVec 16
  before : Nat
  partTag : Nat
  parts : Tab (Option (BitVec 32))
  reloaded : Bool
  svcCredits : Tab Nat
  svcLast : Tab Nat
  goingDown : Bool
deriving DecidableEq, Repr

def Port.reset : Port := ⟨[], 0, 0, [], 0, 0, 0, false, 0, true, [], [], [], [], [], [], 0, 5, 0, [], false, [], [], false⟩

/-- A message on a service flow that reached the Broker complex of a port (R288, R360). -/
structure SvcMsg where
  port : Nat
  lane : Nat
  flow : Nat
  poison : Bool
  rows : List RowData
deriving DecidableEq, Repr

/-- What holds a Broker service slot (R359): a delegated command, by its number, or a job's input loader or orchestrator. -/
inductive SlotUse where
  | command (n : Nat)
  | loader (job : BitVec 16) (jgen : BitVec 8)
  | orchestrator (job : BitVec 16) (jgen : BitVec 8)
deriving DecidableEq, Repr

/-- What Naeno writes into a slot's mailbox (R359, R360, R367): a delegated command, the configuration of an input loader, the
SCANNED event of a step. -/
inductive SlotEvent where
  | command (x : BitVec 512)
  | config (x : BitVec 2048)
  | scanned (job : BitVec 16) (jgen : BitVec 8) (step : BitVec 32) (total : BitVec 64)
deriving DecidableEq, Repr

/-- A Broker service slot: its holder and its mailbox, newest event last. -/
structure Slot where
  use : Option SlotUse
  mail : List SlotEvent
deriving DecidableEq, Repr

def Slot.reset : Slot := ⟨none, []⟩

/-- The UPDATE a Clerk has in service (R227, R228, R237): context, shard entry, hyperparameter set, the FP32
values that its last row stores into the first half of an MX block of the copy, and their poison. -/
structure ClerkRun where
  ctx : Nat
  ent : BitVec 1024
  consts : BitVec 512
  block : List (Option (BitVec 32))
  blockPoison : Bool
deriving DecidableEq, Repr

/-- A Clerk (R230, R242, R243): the requests accepted, the one in service first; what it has started; whether it is marked failed,
and whether it has passed its self-check since and waits for its queue. -/
structure Clerk where
  queue : List Packet
  run : Option ClerkRun
  failed : Bool
  passed : Bool
deriving DecidableEq, Repr

def Clerk.reset : Clerk := ⟨[], none, false, false⟩

/-- A verdict slot (R239, R240, R367): the step recorded, its non-finite total, the SCANs completed, whether its skip has been counted and
whether the SCANNED event has been written.  The verdict itself is CLERK_SKIP_STAT.v0 or v1. -/
structure Verdict where
  step : Option (BitVec 32)
  total : Nat
  scans : Nat
  counted : Bool
  reported : Bool
deriving DecidableEq, Repr

def Verdict.reset : Verdict := ⟨none, 0, 0, false, false⟩

/-- A launch that is pending (R251, R253, R337): its command, whether it is JOB_START, the step, CSR_DYN1 to CSR_DYN7, and the variant
selected. -/
structure Launch where
  cmd : Nat
  first : Bool
  step : BitVec 32
  dyn : List (BitVec 16)
  variant : Nat
deriving DecidableEq, Repr

/-- The life of a job (R339, R386, R388): live, its generation ended at the fetch of its kill, and the phases of WARD_KILL_STAT. -/
inductive JobPhase where
  | live | stop | drain | sram | hbm | held
deriving DecidableEq, Repr

/-- The combining of a step's non-finite totals (R367): the sum so far, the ports that children's values came from, and whether the
device's own total is in it. -/
structure NfSum where
  step : BitVec 32
  total : Nat
  ports : List Nat
  own : Bool
deriving DecidableEq, Repr

/-- What Naeno knows of a job (R330, R335, R340, R386 to R391): generation, owning queue, a2 (R348), phase, whether a kill holds, the
command the kill answers, page quota, halls, tiers, the page table's physical address, the device pages held; the context bound, the
image, the times an image was loaded over another (R391), the running variant and absence plan, a plan waiting with its effective
step, the job seed, the running step, whether a step has started and whether the next one is the first after a load (R251), MESH_SLOT.epoch
when the running step started, the pending launch, the job digest, how many steps have started; whether a core was reset in the
running step and the first core that faulted in it (R384), the steps lost under R435 and the steps whose skip is counted (R240), whether
CKPT_EXPORT keeps the gate closed (R364), the Clerk counts of UPDATEs by step (R275); whether the
bell has frozen the job (R425), and a debug unlock with its level and the seconds it has left (R442); the rejoin step, whether the job
pauses for the copy of a rejoin (R274), the non-finite totals being combined (R367), and the power budget in watts (R421). -/
structure Job where
  gen : BitVec 8
  owner : BitVec 6
  a2 : Bool
  phase : JobPhase
  hold : Bool
  killer : Option Nat
  quota : Nat
  halls : BitVec 16
  tiers : BitVec 64
  table : Nat
  pages : List Nat
  ctx : Option Nat
  image : Option Image
  loads : Nat
  variant : Nat
  plan : Nat
  nextPlan : Option (Nat × BitVec 32)
  seed : BitVec 32
  step : BitVec 32
  running : Bool
  fresh : Bool
  turns : Nat
  launch : Option Launch
  digest : BitVec 256
  starts : Nat
  wasReset : Bool
  firstFault : Option (CoreId × Nat)
  lost : List (BitVec 32)
  skipped : List (BitVec 32)
  shut : Bool
  updates : List (BitVec 32 × Nat × Nat × Nat)
  frozen : Bool
  unlock : Option (Nat × Nat)
  rejoin : Option (BitVec 32)
  pause : Bool
  sums : List NfSum
  power : Nat
deriving DecidableEq, Repr

/-- How far a fetched command has come (R331, R340, R343 to R345): fetched, waiting for resources, started, a launch that is pending,
handed to a Broker slot, or done with a reply that follows the drain of its job's kill. -/
inductive CmdPhase where
  | fetched | waiting | started | launched | delegated (slot : Nat)
  | done (status : BitVec 16) (detail : BitVec 32) (result : BitVec 192)
deriving DecidableEq, Repr

/-- A command that has been fetched and not yet replied: its number in fetch order, its queue, its 64 bytes after any A2 translation, how far
it has come, the image of an IMAGE_LOAD that waits for resources, and how far the work of a checkpoint has come (R364). -/
structure Cmd where
  n : Nat
  queue : BitVec 6
  raw : BitVec 512
  phase : CmdPhase
  img : Option Image
  stage : Nat
deriving DecidableEq, Repr

/-- The I3C target and its mailbox (R319 to R321): the dynamic address, whether the static one serves, the pointer, the register latched by
the read of its first byte, the MBOX and REPLY bytes, and MBOX_CTL. -/
structure I3c where
  addr : Option (BitVec 7)
  ptr : BitVec 8
  latch : Option (Nat × Nat)
  mbox : BitVec 512
  reply : BitVec 256
  busy : Bool
  finished : Bool
deriving DecidableEq, Repr

def I3c.reset : I3c := ⟨none, 0, none, 0, 0, false, false⟩

/-- A step receipt that waits to be written (R275): job, generation, step, the fences, by stack and number, that the step's image declares,
the members late in the step (R271), and the 512 bytes without the Clerk counts, the roster and the CRC. -/
structure Receipt where
  job : BitVec 16
  jgen : BitVec 8
  step : BitVec 32
  fences : List (Nat × Nat)
  late : List Nat
  bytes : BitVec 4096
deriving DecidableEq, Repr

/-- The boot flash as the device reads it (R322, R371): the size its SFDP gives, none when the flash is absent or has no valid SFDP, and
the contents of the regions whose directory CRC matches. -/
structure Flash where
  size : Option Nat
  regions : Tab (List Byte)
deriving DecidableEq, Repr

def Flash.reset : Flash := ⟨none, []⟩

/-- An unused debug challenge (R441): its 16 bytes, the level it is for, and its queue. -/
structure Challenge where
  bytes : BitVec 128
  level : Nat
  queue : BitVec 6
deriving DecidableEq, Repr

/-- A thermal trip or rail fault (R463, R467 to R469): its causes, and whether the domains have been switched OFF and TRIP_N driven low. -/
structure Trip where
  thermal : Bool
  rail : Bool
  off : Bool
deriving DecidableEq, Repr

/-- A record of the fault log in flash region 7 besides retired pages and rows (R371, R399, R400, R425, R469): a bell with its job, a
shutdown with its causes, a core hidden at boot or by a remap, by row of MESH_ROWMAP and column.  The spec gives the records no layout. -/
inductive FaultEntry where
  | bell (job : BitVec 16) (jgen : BitVec 8) (ms : Nat)
  | shutdown (thermal rail : Bool)
  | core (row col : Nat)
deriving DecidableEq, Repr

/-- A remap under way (R400, R401): the row of MESH_ROWMAP, the faulty and the spare column, and the core that fails. -/
structure Remap where
  row : Nat
  bad : Nat
  spare : Nat
  core : CoreId
deriving DecidableEq, Repr

/-- The JTAG port (R323): the instruction that is in effect, the boundary chain of the 33 low-speed balls, and the data register selected:
0 IDCODE, 1 the boundary chain, 2 bypass. -/
structure Jtag where
  ir : BitVec 8
  chain : BitVec 33
  select : BitVec 2
deriving DecidableEq, Repr

/-- After reset the TAP selects IDCODE (log 10). -/
def Jtag.reset : Jtag := ⟨1, 0, 0⟩

/-- The PCIe link (R307, R462): whether PERST_N is high, whether the endpoint has come up. -/
structure PcieLink where
  perst : Bool
  up : Bool
deriving DecidableEq, Repr

/-- A BAR2 access that the endpoint holds (R310, R311): its function, the physical address, and the bytes asked for, or those of a write with
its EP bit. -/
structure WinAccess where
  func : BitVec 4
  pa : Nat
  size : Nat
  write : Option (List Byte × Bool)
deriving DecidableEq, Repr

/-- The device: everything the spec gives the block but the queue of waiting commands.  Each field's comment names what it
holds and the rule that names it; INVENTORY.md lists them all. -/
structure Dev where
  /-- the logical cores, keyed by `CoreId.key`; an unlisted core is `Core.reset` -/
  cores : Tab Core
  /-- the registers of BAR0, keyed by address; an unlisted one holds its reset value (R443) -/
  regs : Tab Nat
  /-- fuses and factory calibration, keyed by address; an unlisted one holds its fabricated value (R392) -/
  fuse : Tab Nat
  /-- the ck count of R153 (MODEL's tick, log 5) -/
  ck : Nat
  /-- milliseconds since boot (R432) -/
  ms : Nat
  /-- the MODEL's own counter of free values (log 1) -/
  freeCtr : Nat
  /-- the MODEL's own list of what has crossed the device boundary, newest first (log 4) -/
  out : List Out
  /-- errand packets injected and not yet ejected or dropped (R170, R251) -/
  flight : List Packet
  /-- slot words, keyed by `schedKey`; an unlisted one is `idleWord` (R152; log 2) -/
  sched : Tab Nat
  /-- fill rows received since the last turn, by router (R162) -/
  schedFill : Tab Nat
  /-- routers that run only empty slots until the next turn (R162) -/
  schedEmpty : Tab Bool
  /-- rows present on router inputs, keyed by `linkKey` (R150) -/
  links : Tab (List LinkRow)
  /-- rows that crossed a crossbar to L and have not reached the network interface yet (R151) -/
  delivered : List (CoreId × Row)
  /-- the pending turn of the epoch owner (R160) -/
  turn : Option Turn
  /-- the epoch owner's last turn, for routers that its TURN has not reached yet (R163) -/
  doneTurn : Option Turn
  /-- what an error raised in this command makes Naeno do at its end (R431, R435); empty between commands -/
  tasks : List Task
  /-- I3C ALERT bits (R320) -/
  alert : BitVec 8
  /-- ENEC has enabled target events (R319) -/
  ibiOn : Bool
  /-- the arcade controllers and check engines, by arcade number (R104) -/
  arcades : Tab Arcade
  /-- DEVNUM (00_scope.md, R336; log 2) -/
  devnum : BitVec 18
  /-- the counts of the running step's receipt (R275, R276) -/
  counts : StepCounts
  /-- HBM by physical address, stack k from k × 2^36 (11_memory_tiers_porter.md, "Addressing and page tables"; log 3) -/
  hbm : Memory
  /-- poison marks of HBM lines, by line number (R223, R428, R430) -/
  hbmPoison : Tab Bool
  /-- times in ms of the corrected reads of an HBM page, by physical page number (R429) -/
  pageReads : Tab (List Nat)
  /-- times in ms of the corrected reads of an SRAM row, by core key × 2^18 + row number (R429) -/
  rowReads : Tab (List Nat)
  /-- HBM pages recorded in flash region 7 (R429) -/
  badPages : List Nat
  /-- SRAM rows recorded in flash region 7 (R429) -/
  badRows : List Nat
  /-- the coherence fabric and the directories (R352 to R354) -/
  coh : Coherence
  /-- the 32 Porters (R213, R214) -/
  porters : Tab Porter
  /-- lane plan bytes, keyed by `planKey` (R212) -/
  lanePlan : Tab Nat
  /-- fence table entries, keyed by `fenceKey` (R220) -/
  fences : Tab Nat
  /-- fence posts that have not arrived (R238) -/
  posts : List FencePost
  /-- the schedules the routers run, by router key (R153) -/
  routers : Tab RouterRun
  /-- rows that crossed a crossbar to H and have not reached the Porters of their stack yet (R219) -/
  edgeRows : List (Nat × Row)
  /-- the port relays, by port (R258 to R261) -/
  relays : Tab Relay
  /-- the link logic of the optical ports (R282 to R301) -/
  ports : Tab Port
  /-- steps the job of LINK_ASSAY has started since JOB_START (R305) -/
  assaySteps : Nat
  /-- service messages that have reached a Broker complex and are not yet acted on (R360) -/
  svc : List SvcMsg
  /-- commands in the mailboxes of the peer queues and of queue 63, by queue (R325, R327) -/
  mail : Tab (List RowData)
  /-- the 16 Clerks (R230, R242) -/
  clerks : Tab Clerk
  /-- the two verdict slots of the step skip, N mod 2 (R239) -/
  verdicts : Tab Verdict
  /-- user Clerk programs in slots 7 to 15 (R233) -/
  clerkPrograms : Tab (List (BitVec 32))
  /-- the Broker service slots, complex × 4 + slot (R359) -/
  slots : Tab Slot
  /-- the job table, by job ID (R330, R389) -/
  jobs : Tab (Option Job)
  /-- the last generation given to each job ID (R389) -/
  lastGen : Tab Nat
  /-- job IDs whose quiet period has not ended (R390) -/
  quiet : List (BitVec 16)
  /-- commands fetched and not replied, in fetch order (R331, R344) -/
  cmds : List Cmd
  /-- commands fetched since reset, which numbers them -/
  fetched : Nat
  /-- the commands that wait for resources, in the order they began to (R340) -/
  waiters : List Nat
  /-- the job whose step gate WARD_STEP_GATE shows (R253) -/
  gateJob : BitVec 16
  /-- the I3C target (R319 to R321) -/
  i3c : I3c
  /-- masked MSI-X vectors, function × 64 + vector (R313) -/
  msixMask : Tab Bool
  /-- MSI-X pending bits, function × 64 + vector (R313) -/
  msixPba : Tab Bool
  /-- the roster: 0 PRESENT, 1 LATE, 2 ABSENT, 3 RESYNC, by position (R271) -/
  roster : Tab Nat
  /-- members that a hop released without in the running step (R271) -/
  lateNow : List Nat
  /-- consecutive late steps, by position (R271) -/
  lateRun : Tab Nat
  /-- step receipts not yet written, oldest first (R275) -/
  receipts : List Receipt
  /-- the version of the Naeno firmware that runs (R303, R336, R372) -/
  firmware : BitVec 64
  /-- the queue that each class served last, plus 1 (R328) -/
  lastServed : Tab Nat
  /-- device pages that Naeno has reserved (R310, R336, R357) -/
  reserved : List Nat
  /-- the boot flash (R371; log 18) -/
  flash : Flash
  /-- the unused debug challenge (R441) -/
  challenge : Option Challenge
  /-- deltas of the applied calibration overlay, keyed class × 2^16 + index (R402 to R405) -/
  overlay : Tab Int
  /-- what the host has written into BOOT_STAGE, by offset in the window (R377) -/
  stage : Memory
  /-- state changes of a power domain, the one under way first: target state and the command it answers (R410) -/
  moves : Tab (List (Nat × Option Nat))
  /-- the cap limit on f_core in MHz (R418, R419; log 2) -/
  capLimit : Nat
  /-- the thermal limit on f_core in MHz (R422; log 2) -/
  thermLimit : Nat
  /-- power samples in succession at or below cap − margin since the cap limit last changed (R419) -/
  calm : Nat
  /-- the bell snapshot (R425) -/
  snapshot : List (BitVec 512)
  /-- the fault log in flash region 7 (R371, R399, R425) -/
  faultLog : List FaultEntry
  /-- the latch of a thermal trip or rail fault (R468) -/
  trip : Option Trip
  /-- RESET_N is low (R461) -/
  inReset : Bool
  /-- the remaps under way (R401) -/
  remaps : List Remap
  /-- the JTAG port (R323; log 10) -/
  jtag : Jtag
  /-- the PCIe link (R307, R462) -/
  pcie : PcieLink
  /-- PFC pauses sent and not ended, by port × 8 + priority (R318) -/
  paused : Tab Bool
  /-- the banked selectors CORE_SEL, MESH_SCHED_SEL and HBM_WIN_SEL, by requester × 16 + selector (R448) -/
  sel : Tab Nat
  /-- the last boot step that completed under the host (R375) -/
  bootStep : Nat
  /-- Naeno runs (R373, R376) -/
  naenoRuns : Bool
  /-- BAR2 accesses that wait for a directory, oldest first (R311, R353) -/
  windowed : List WinAccess
deriving DecidableEq, Repr

/-- The device right after reset: every field at the value the spec states for it, or at the value its log entry names. -/
def Dev.reset : Dev where
  cores := []
  regs := []
  fuse := []
  ck := 0
  ms := 0
  freeCtr := 0
  out := []
  flight := []
  sched := []
  schedFill := []
  schedEmpty := []
  links := []
  delivered := []
  turn := none
  doneTurn := none
  tasks := []
  alert := 0
  ibiOn := false
  arcades := []
  devnum := 0
  counts := StepCounts.zero
  hbm := []
  hbmPoison := []
  pageReads := []
  rowReads := []
  badPages := []
  badRows := []
  coh := Coherence.reset
  porters := []
  lanePlan := []
  fences := []
  posts := []
  routers := []
  edgeRows := []
  relays := []
  ports := []
  assaySteps := 0
  svc := []
  mail := []
  clerks := []
  verdicts := []
  clerkPrograms := []
  slots := []
  jobs := []
  lastGen := []
  quiet := []
  cmds := []
  fetched := 0
  waiters := []
  gateJob := 0
  i3c := I3c.reset
  msixMask := []
  msixPba := []
  roster := []
  lateNow := []
  lateRun := []
  receipts := []
  firmware := 0
  lastServed := []
  reserved := []
  flash := Flash.reset
  challenge := none
  overlay := []
  stage := []
  moves := []
  capLimit := 1800
  thermLimit := 1800
  calm := 0
  snapshot := []
  faultLog := []
  trip := none
  inReset := false
  remaps := []
  jtag := Jtag.reset
  pcie := ⟨false, false⟩
  paused := []
  sel := []
  bootStep := 0
  naenoRuns := false
  windowed := []

/-- The block's state: the commands that wait, first in, first out, and the device. -/
structure State where
  pending : List Instr
  dev : Dev
deriving DecidableEq, Repr

/-- The machine right after reset: no command waits. -/
def State.reset : State := ⟨[], Dev.reset⟩

end Sys2Proof.Machine
end

