-- ==== Sys2Proof/Machine/Ops.lean ====
section
/-! DEFINITION. The named operations over the device: registers and their fields, cores and their windows, positions,
packets, free values, errors (R431 to R434), and the frame in which every command runs. -/

namespace Sys2Proof.Machine

/-! Registers. -/

/-- Whether an address lies in the FUSE_ block or in the factory part of the CAL_ block (R392, R402, R443). -/
def isFuse (a : Nat) : Bool := decide (0x1000000 ≤ a) && decide (a < 0x1020000) && a != 0x1010000

/-- A register of BAR0 as stored. -/
def Dev.reg (d : Dev) (a : Nat) : Nat :=
  if isFuse a then Tab.get fuseReset d.fuse a else Tab.get regReset d.regs a

/-- Stores a register of BAR0; fuses and factory calibration do not change (R392). -/
def Dev.setReg (d : Dev) (a v : Nat) : Dev :=
  if isFuse a then d else { d with regs := Tab.set regReset d.regs a v }

/-- A field of a register. -/
def Dev.get (d : Dev) (f : Fld) : Nat := bits (d.reg f.key) f.lo f.w

/-- Writes a field of a register. -/
def Dev.put (d : Dev) (f : Fld) (v : Nat) : Dev := d.setReg f.key (setBits (d.reg f.key) f.lo f.w v)

/-- Adds to a count that saturates. -/
def Dev.bump (d : Dev) (f : Fld) (n : Nat) : Dev := d.put f (sat f.w (d.get f + n))

/-! Positions. -/

/-- The logical row count of the grade (R4). -/
def Dev.rows (d : Dev) : Nat := d.get FUSE_GRADE_rows

/-- Whether (x, y) is a logical core of the grade. -/
def Dev.logical (d : Dev) (c : CoreId) : Bool := decide (c.x.toNat < 96) && decide (c.y.toNat < d.rows)

/-- The die of a logical core (R13). -/
def Dev.dieOf (d : Dev) (x y : Nat) : Nat :=
  (if d.rows / 2 ≤ y then 2 else 0) + (if 48 ≤ x then 1 else 0)

/-- The logical rows of a die's north halls (R14). -/
def Dev.northRows (d : Dev) (die : Nat) : Nat := bits (d.reg FUSE_HALL_ROWS_d0_north.key) (8 * die) 8

/-- The hall of a logical core (R13). -/
def Dev.hallOf (d : Dev) (x y : Nat) : Nat :=
  let ly := if d.rows / 2 ≤ y then y - d.rows / 2 else y
  let die := d.dieOf x y
  die * 4 + (if d.northRows die ≤ ly then 2 else 0) + (if 24 ≤ x % 48 then 1 else 0)

/-- The arcade of a logical core (R13). -/
def arcadeOf (x y : Nat) : Nat := y / 4 * 24 + x / 4

/-! Cores. -/

/-- A core's state. -/
def Dev.core (d : Dev) (c : CoreId) : Core := Tab.get (fun _ => Core.reset) d.cores c.key

/-- Stores a core's state. -/
def Dev.setCore (d : Dev) (c : CoreId) (k : Core) : Dev :=
  { d with cores := Tab.set (fun _ => Core.reset) d.cores c.key k }

/-- Changes a core's state. -/
def Dev.upd (d : Dev) (c : CoreId) (f : Core → Core) : Dev := d.setCore c (f (d.core c))

/-- The core with a table key. -/
def coreOfKey (n : Nat) : CoreId := ⟨BitVec.ofNat 8 (n % 256), BitVec.ofNat 8 (n / 256)⟩

/-- A register of a core's window as stored. -/
def Core.reg (k : Core) (a : Nat) : Nat := Tab.get winReset k.win a

/-- A field of a core's window. -/
def Core.get (k : Core) (f : Fld) : Nat := bits (k.reg f.key) f.lo f.w

/-- Writes a field of a core's window. -/
def Core.put (k : Core) (f : Fld) (v : Nat) : Core :=
  { k with win := Tab.set winReset k.win f.key (setBits (k.reg f.key) f.lo f.w v) }

/-- Adds to a count of a core's window that saturates. -/
def Core.bump (k : Core) (f : Fld) (n : Nat) : Core := k.put f (sat f.w (k.get f + n))

/-! Outputs and free values. -/

/-- Records an event that leaves the device. -/
def Dev.emit (d : Dev) (o : Out) : Dev := { d with out := o :: d.out }

/-- The next free value and the device with the counter advanced (log 1). -/
def Dev.free (d : Dev) : Nat × Dev := (Config.freeValue d.freeCtr, { d with freeCtr := d.freeCtr + 1 })

/-- Sets I3C ALERT bits; a bit that sets sends an In-Band Interrupt when events are enabled (R320). -/
def Dev.setAlert (d : Dev) (b : BitVec 8) : Dev :=
  let a := d.alert ||| b
  let d' := { d with alert := a }
  if d.ibiOn && a != d.alert then d'.emit (.ibi a) else d'

/-! Errand packets (R167, R168). -/

/-- Puts a packet on the errand network. -/
def Dev.send (d : Dev) (p : Packet) : Dev := { d with flight := d.flight ++ [p] }

/-- Takes a packet off the errand network, at its target or where it is dropped. -/
def Dev.eject (d : Dev) (p : Packet) : Dev := { d with flight := d.flight.erase p }

/-- A packet from a core's network interface to unit `unit` of router (x, y). -/
def Core.packet (k : Core) (c : CoreId) (type : Nat) (x y : Nat) (unit sub vc : Nat) (inl : Nat)
    (payload : List (BitVec 128)) : Packet where
  type := BitVec.ofNat 8 type
  dstX := BitVec.ofNat 8 x
  dstY := BitVec.ofNat 8 y
  dstSub := BitVec.ofNat 4 sub
  dstUnit := BitVec.ofNat 2 unit
  vc := BitVec.ofNat 1 vc
  srcX := c.x
  srcY := c.y
  srcSub := 0
  srcUnit := 0
  job := k.job
  jgen := k.jgen
  inl := BitVec.ofNat 40 inl
  payload := payload

/-- A packet from a service port or the Warden. -/
def servicePacket (type : Nat) (sx sy sunit ssub : Nat) (c : CoreId) (vc : Nat) (job : BitVec 16) (jgen : BitVec 8)
    (inl : Nat) (payload : List (BitVec 128)) : Packet where
  type := BitVec.ofNat 8 type
  dstX := c.x
  dstY := c.y
  dstSub := 0
  dstUnit := 0
  vc := BitVec.ofNat 1 vc
  srcX := BitVec.ofNat 8 sx
  srcY := BitVec.ofNat 8 sy
  srcSub := BitVec.ofNat 4 ssub
  srcUnit := BitVec.ofNat 2 sunit
  job := job
  jgen := jgen
  inl := BitVec.ofNat 40 inl
  payload := payload

/-- The core a packet is addressed to. -/
def packetCore (p : Packet) : CoreId := ⟨p.dstX, p.dstY⟩

/-! Errors (R431 to R434). -/

/-- The severity of an error code (R434). -/
def severityOf (code : Nat) : Nat :=
  if [0x0001, 0x0010, 0x0033, 0x0034, 0x0035, 0x0042, 0x0050, 0x0051, 0x0060, 0x0062, 0x0063, 0x0064, 0x0070].contains code
  then 1
  else if [0x0002, 0x0011, 0x0012].contains code then 2
  else if [0x0004, 0x0040, 0x0041, 0x0061].contains code then 4
  else if [0x0013, 0x0043, 0x0044].contains code then 5
  else 3

/-- Whether an error of a kind of unit has a byte address, a page or a CSR_FAULT.info for its location (R432). -/
def locates (code kind : Nat) : Bool :=
  match kind with
  | 0 => [0x0001, 0x0002, 0x0003, 0x0004, 0x0014, 0x0030].contains code
  | 3 => [0x0012, 0x0040].contains code
  | 5 => [0x0010, 0x0011].contains code
  | _ => false

/-- What an error record names besides its code; the location is read only where `locates` holds (R432). -/
structure ErrAt where
  unitKind : Nat
  unit : Nat
  job : BitVec 16
  jgen : BitVec 8
  step : BitVec 32
  location : Nat
deriving DecidableEq, Repr

/-- The unit of an arcade in an error record: the x and y of its first core. -/
def arcadeUnit (a : Nat) : Nat := 4 * (a % 24) + 256 * (4 * (a / 24))

/-- The 32 bytes of an open error record (R432). -/
def errRecord (code : Nat) (e : ErrAt) (seq ms : Nat) : Nat :=
  code + severityOf code * 2 ^ 16 + e.unitKind * 2 ^ 24 + (e.unit % 2 ^ 16) * 2 ^ 32 + e.job.toNat * 2 ^ 48
    + e.jgen.toNat * 2 ^ 64 + 1 * 2 ^ 72 + e.step.toNat * 2 ^ 96 + (if locates code e.unitKind then e.location % 2 ^ 64 else (Config.errLocation code seq).toNat) * 2 ^ 128 + seq * 2 ^ 192
    + (ms % 2 ^ 32) * 2 ^ 224

/-- The open records of the ring with a severity. -/
def Dev.openWith (d : Dev) (sev : Nat) : Nat :=
  ((List.range 256).filter (fun n =>
    bit (d.get (ERR_REC_record n)) 72 && bits (d.get (ERR_REC_record n)) 16 8 == sev)).length

/-- ERR_OPEN, ERR_STAT.device_lost and ERR_STAT.worst follow the open records (R433). -/
def Dev.countOpen (d : Dev) : Dev :=
  let o := fun s => d.openWith s
  let worst := if o 5 ≠ 0 then 5 else if o 4 ≠ 0 then 4 else if o 3 ≠ 0 then 3 else if o 2 ≠ 0 then 2
    else if o 1 ≠ 0 then 1 else 0
  ((((((d.put ERR_OPEN_corrected (sat 16 (o 1))).put ERR_OPEN_deferred (sat 16 (o 2))).put ERR_OPEN_step_lost
    (sat 16 (o 3))).put ERR_OPEN_job_lost (sat 16 (o 4))).put ERR_STAT_device_lost (sat 16 (o 5))).put ERR_STAT_worst
    worst)

/-- Changes the counts of the running step's receipt (R276). -/
def Dev.count (d : Dev) (f : StepCounts → StepCounts) : Dev := { d with counts := f d.counts }

/-- The errors that mark data poisoned or meet poison: they set the poison flag of the step's receipt (R276; log 60). -/
def tellsPoison (code : Nat) : Bool := [0x0002, 0x0003, 0x0011, 0x0012, 0x0014, 0x0044].contains code

/-- Naeno writes an error record, and what the severity asks for is done at the command's end (R431, R432, R435).
A JOB_LOST that names no job applies to every job; a BELL takes its hold from WARD_BELL_CFG. -/
def Dev.raise (d : Dev) (code : Nat) (e : ErrAt) : Dev :=
  let seq := (d.get ERR_STAT_seq + 1) % 2 ^ 32
  let d1 := (d.put (ERR_REC_record (seq % 256)) (errRecord code e seq d.ms)).put ERR_STAT_seq seq
  let d2 := d1.countOpen
  let sev := severityOf code
  let d3 := (if 2 ≤ sev then d2.setAlert 4 else d2).count (fun n =>
    { n with stepLost := if sev = 3 then n.stepLost + 1 else n.stepLost, poison := n.poison || tellsPoison code })
  if sev = 3 then { d3 with tasks := d3.tasks ++ [.stepLost e.job e.step] }
  else if sev = 4 then
    let hold := (if code = 0x61 then d.get WARD_BELL_CFG_hold else d.get ERR_CFG_hold) == 1
    { d3 with tasks := d3.tasks ++ [.killJob e.job hold] }
  else if sev = 5 then { d3 with tasks := d3.tasks ++ [.killAll] }
  else d3

/-- The place of an error on a core (R432). -/
def Core.errAt (k : Core) (c : CoreId) (location : Nat) : ErrAt :=
  ⟨0, c.x.toNat + 256 * c.y.toNat, k.job, k.jgen, k.step, location⟩

/-! The condition of the device. -/

/-- Whether the device answers its always-on interfaces only: RESET_N is low, a shutdown is latched, or boot has failed (R374, R461, R469,
R470). -/
def Dev.dead (d : Dev) : Bool := d.inReset || d.trip.isSome || d.get BOOT_STAT_stage == 15

end Sys2Proof.Machine
end

