-- ==== Sys2Proof/Machine/Operands.lean ====
section
/-! DEFINITION. Operand forms of the core: the address map, scalar addresses, tensor descriptors with their checks and
footprints, and the elements of a tensor (R22, R23, R26, R27, R73 to R78, R88, R94, R180). -/

namespace Sys2Proof.Machine

/-! The address map of R22. -/

/-- The regions of R22: WM, AM, PM, IM and the stock tiers, as (number, first byte, bytes).  Numbers 0 to 3 are WM, AM,
PM and IM; 4 to 7 the stock tiers. -/
def regions : List (Nat × Nat × Nat) :=
  [(0, 0x000000, 0x28000), (1, 0x040000, 0x20000), (2, 0x080000, 0x18000), (3, 0x0C0000, 0x4000),
   (4, 0x400000, 0x150000), (5, 0x550000, 0x150000), (6, 0x6A0000, 0x150000), (7, 0x7F0000, 0x150000)]

/-- The region of an address, with its first byte and size. -/
def regionOf (a : Nat) : Option (Nat × Nat × Nat) :=
  regions.find? (fun r => decide (r.2.1 ≤ a) && decide (a < r.2.1 + r.2.2))

/-- The remote queue and port of a region: 0 WM, 1 AM, 2 PM, 3 stock (R110, R115); IM has none. -/
def portOf (region : Nat) : Nat := if region < 3 then region else 3

/-- Whether a region is a stock tier outside CORE_TIER_MASK (R120). -/
def Core.offMask (k : Core) (region : Nat) : Bool :=
  decide (4 ≤ region) && !(bit (k.get CORE_TIER_MASK_mask) (region - 4))

/-- Whether an address lies in a stock tier outside the mask. -/
def Core.addrOff (k : Core) (a : Nat) : Bool :=
  match regionOf a with
  | some (r, _, _) => k.offMask r
  | none => false

/-- `n` bytes as a reader receives them: a tier outside the mask reads as zero (R120). -/
def Core.load (k : Core) (a n : Nat) : Nat := if k.addrOff a then 0 else Memory.readN k.mem a n

/-- Whether the 64-byte row of an address is poisoned as a reader sees it (R116, R120). -/
def Core.rowPoisoned (k : Core) (a : Nat) : Bool :=
  !(k.addrOff a) && Tab.get (fun _ => false) k.poison (a / 64)

/-- Sets or clears the poison mark of the row of an address. -/
def Core.setPoison (k : Core) (a : Nat) (v : Bool) : Core :=
  { k with poison := Tab.set (fun _ => false) k.poison (a / 64) v }

/-- Writes `n` bytes that lie in one 64-byte row.  A tier outside the mask is not changed (R120).  A write of a whole row
takes the mark given; a write of part of one leaves the mark unless it brings poison (R428, R430). -/
def Core.store (k : Core) (a n v : Nat) (poison : Bool) : Core :=
  if k.addrOff a then k
  else
    let k' := { k with mem := Memory.writeN k.mem a n v }
    if n = 64 then k'.setPoison a poison else if poison then k'.setPoison a true else k'

/-- A write to a tier outside the mask is counted and reported (R120). -/
def Dev.offMaskWrite (d : Dev) (c : CoreId) (k : Core) (a : Nat) : Dev :=
  (d.setCore c (k.bump CORE_MEM_STAT_offmask_wr 1)).raise 0x0004 (k.errAt c a)

/-! Tensor descriptors. -/

/-- The fields of a descriptor (R26). -/
structure Desc where
  base : Nat
  fmt : Nat
  ef19Rne : Bool
  sp24 : Bool
  cols : Nat
  rows : Nat
  stride : Nat
  pad : Nat
  rnd : Nat
  dsel : Nat
  zpRaw : Nat
  aux : Nat
deriving DecidableEq, Repr

/-- Reads a descriptor's fields. -/
def Desc.ofBits (w : BitVec 128) : Desc :=
  let v := w.toNat
  ⟨bits v 0 24, bits v 24 5, bit v 29, bit v 30, bits v 32 16, bits v 48 16, bits v 64 16, bits v 80 16, bits v 96 2,
    bits v 100 3, bits v 104 8, bits v 112 16⟩

/-- The signed zero point (R81). -/
def Desc.zp (d : Desc) : Int := signed 8 d.zpRaw

/-- The format; FP32 stands in for a reserved code, which every use of a descriptor refuses first (R27). -/
def Desc.format (d : Desc) : Fmt := (Fmt.ofCode d.fmt).getD .fp32

/-- 64-byte rows of one tensor row (R73). -/
def Desc.span (d : Desc) : Nat := cdiv (d.cols * d.format.width) 512

/-- Scale blocks per tensor row (R77). -/
def Desc.blocks (d : Desc) : Nat := cdiv d.cols 32

/-- Rows of the scale array for `n` tensor rows (R77). -/
def Desc.scaleRows (d : Desc) (n : Nat) : Nat := if d.format.mx then cdiv (n * d.blocks) 64 else 0

/-- First byte of the scale array. -/
def Desc.scaleBase (d : Desc) : Nat := d.base + d.aux * 64

/-- Rows of the 2:4 metadata for `n` tensor rows (R94). -/
def Desc.metaRows (d : Desc) (n : Nat) : Nat := if d.sp24 then cdiv (n * d.cols * 2) 512 else 0

/-- First byte of the 2:4 metadata: after the last scale row, or at base + aux rows (R94). -/
def Desc.metaBase (d : Desc) : Nat :=
  if d.format.mx then d.scaleBase + d.scaleRows d.rows * 64 else d.base + d.aux * 64

/-- The spans of a footprint, as (first byte, bytes): the element rows, the scales and the metadata (R26). -/
def Desc.spans (d : Desc) : List (Nat × Nat) :=
  (if d.rows = 0 then [] else [(d.base, ((d.rows - 1) * d.stride + d.span) * 64)])
    ++ (if d.scaleRows d.rows = 0 then [] else [(d.scaleBase, d.scaleRows d.rows * 64)])
    ++ (if d.metaRows d.rows = 0 then [] else [(d.metaBase, d.metaRows d.rows * 64)])

/-- Whether two spans share a byte. -/
def spanMeets (a b : Nat × Nat) : Bool :=
  decide (a.1 < b.1 + b.2) && decide (b.1 < a.1 + a.2)

/-- Whether two footprints share a byte. -/
def spansMeet (a b : List (Nat × Nat)) : Bool := a.any (fun x => b.any (fun y => spanMeets x y))

/-- The actual row count: CSR_DYNn under dsel = n (R26). -/
def Core.actualRows (k : Core) (d : Desc) : Nat :=
  if d.dsel = 0 then d.rows else (Tab.get (fun _ => (0 : BitVec 16)) k.dyn d.dsel).toNat

/-- The fault codes of R49. -/
inductive FaultCode where
  | illegal | addr | align | fmt | shape | rank | endpoint | pc | csr | poison
deriving DecidableEq, Repr

/-- The number of a fault code (R49). -/
def FaultCode.code : FaultCode → Nat
  | .illegal => 1 | .addr => 2 | .align => 3 | .fmt => 4 | .shape => 5 | .rank => 6 | .endpoint => 7 | .pc => 8
  | .csr => 9 | .poison => 10

/-- A fault with CSR_FAULT.info. -/
abbrev CoreFault := FaultCode × Nat

/-- The first fault of a list of checks in order (R471). -/
def firstFault : List (Option CoreFault) → Option CoreFault
  | [] => none
  | some f :: _ => some f
  | none :: r => firstFault r

/-- A check: the fault when the condition holds. -/
def faultIf (b : Bool) (f : CoreFault) : Option CoreFault := if b then some f else none

/-- info of FMT_FAULT: register number and format code (R49). -/
def fmtInfo (r : Nat) (d : Desc) : Nat := r + d.fmt * 256

/-- The lowest address of a footprint outside the region holding base, or base itself when it lies in none (R471). -/
def Desc.outside (d : Desc) : Option Nat :=
  match regionOf d.base with
  | none => some d.base
  | some (_, lo, n) =>
    let bad := d.spans.filterMap (fun s =>
      if s.1 < lo then some s.1 else if lo + n < s.1 + s.2 then some (max s.1 (lo + n)) else none)
    match bad with
    | [] => none
    | b :: bs => some (bs.foldl min b)

/-- Step 4 of R471 for one descriptor of register `r`: `accepts` are the formats the instruction takes for the operand,
`sparse` whether it may be sparse, `mems` the regions it may lie in, `isD` whether it is dD, and `dyn` whether the CSR_DYNn
rule of R185 is a SHAPE_FAULT here. -/
def Core.checkDesc (k : Core) (r : Nat) (d : Desc) (accepts : Fmt → Bool) (sparse : Bool) (mems : List Nat) (dyn : Bool) :
    Option CoreFault :=
  let region := (regionOf d.base).map (fun x => x.1)
  firstFault [
    faultIf (match Fmt.ofCode d.fmt with
      | none => true
      | some f => (decide (f.width < 16) && decide (2 ^ f.width ≤ d.pad)) || !(accepts f) || (d.sp24 && !sparse))
      (.fmt, fmtInfo r d),
    faultIf (d.base % 64 != 0) (.align, d.base),
    faultIf (d.cols == 0 || decide (d.stride < d.span) || (d.sp24 && d.cols % 2 == 1)
      || (dyn && d.dsel != 0 && decide (d.rows < k.actualRows d))) (.shape, r),
    (match region with
      | none => some (.addr, d.base)
      | some g => if mems.contains g then d.outside.map (fun a => (.addr, a)) else some (.addr, d.base))]

/-! Elements of a tensor. -/

/-- The raw encoding of element `i` of tensor row `row` (R73). -/
def Core.rawElem (k : Core) (d : Desc) (row i : Nat) : Nat :=
  let w := d.format.width
  let b := i * w
  let a := d.base + row * d.stride * 64 + b / 8
  bits (k.load a ((b % 8 + w + 7) / 8)) (b % 8) w

/-- The scale byte of element `i` of row `row` of an MX tensor (R77). -/
def Core.scaleByte (k : Core) (d : Desc) (row i : Nat) : Nat := k.load (d.scaleBase + row * d.blocks + i / 32) 1

/-- The 2-bit index of kept element `i` of row `row` (R94). -/
def Core.metaIndex (k : Core) (d : Desc) (row i : Nat) : Nat :=
  let q := row * d.cols + i
  bits (k.load (d.metaBase + q / 4) 1) (2 * (q % 4)) 2

/-- The value of an element that is not padded, with scale and zero point applied (R54, R78, R81). -/
def Core.elem (k : Core) (d : Desc) (row i : Nat) : Val :=
  let v := d.format.value d.zp (k.rawElem d row i)
  if d.format.mx then v.scale (k.scaleByte d row i) else v

/-- The value of an element of a tensor with `actual` rows: the pad value at padded positions (R180). -/
def Core.elemOrPad (k : Core) (d : Desc) (actual row i : Nat) : Val :=
  if row < actual ∧ row < d.rows ∧ i < d.cols then k.elem d row i else d.format.padValue d.zp d.pad

/-- The 64-byte rows, by address, that the first `n` tensor rows take, with their scale and metadata rows. -/
def Desc.rowAddrs (d : Desc) (n : Nat) : List Nat :=
  (List.range n).flatMap (fun i => (List.range d.span).map (fun j => d.base + (i * d.stride + j) * 64))
    ++ (List.range (d.scaleRows n)).map (fun j => d.scaleBase + j * 64)
    ++ (List.range (d.metaRows n)).map (fun j => d.metaBase + j * 64)

/-- Whether any row that the first `n` tensor rows take is poisoned (R430). -/
def Core.tensorPoisoned (k : Core) (d : Desc) (n : Nat) : Bool := (d.rowAddrs n).any (fun a => k.rowPoisoned a)

/-- Packs encodings of `w` bits, element 0 in the lowest bits (R73). -/
def packElems (w : Nat) : List Nat → Nat
  | [] => 0
  | e :: es => e % 2 ^ w + 2 ^ w * packElems w es

/-- Writes the rows of a span of bytes `n` long that starts on a row, one row at a time. -/
def Core.storeRows (k : Core) (a : Nat) (poison : Bool) : Nat → Nat → Core
  | 0, _ => k
  | n + 1, v => (k.store a 64 v poison).storeRows (a + 64) poison n (v / 2 ^ 512)

/-- Writes encodings to the first elements of a tensor row.  The elements beyond them keep their encodings, and the bits after
the tensor row's last element are written as zero (R73, R181).  A row written in part keeps its mark unless poison is brought. -/
def Core.writeRow (k : Core) (d : Desc) (row : Nat) (elems : List Nat) (poison : Bool) : Core :=
  let w := d.format.width
  let a := d.base + row * d.stride * 64
  let n := d.span
  if elems.isEmpty then k
  else
    let keep := elems.length < d.cols
    let old := Memory.readN k.mem a (n * 64) % 2 ^ (d.cols * w)
    let new := packElems w elems + (if keep then old / 2 ^ (elems.length * w) * 2 ^ (elems.length * w) else 0)
    let touched := if keep then cdiv (elems.length * w) 512 else n
    let whole := if keep then elems.length * w / 512 else n
    let k1 := k.storeRows a poison whole new
    if touched = whole then k1
    else
      let m := Tab.get (fun _ => false) k.poison ((a + whole * 64) / 64)
      k1.storeRows (a + whole * 64) (poison || m) (touched - whole) (new / 2 ^ (512 * whole))

/-- Writes the scale bytes of the first blocks of a tensor row; bytes after the array's last byte become zero when its last
row is written (R77). -/
def Core.writeScales (k : Core) (d : Desc) (row : Nat) (scales : List Nat) (poison : Bool) : Core :=
  let first := d.scaleBase + row * d.blocks
  let k1 := (List.range scales.length).foldl (fun k j => k.store (first + j) 1 (scales.getD j 0) poison) k
  let total := d.rows * d.blocks
  let lastRow := d.scaleBase + (d.scaleRows d.rows - 1) * 64
  if scales.isEmpty || decide (first + scales.length ≤ lastRow) || total % 64 == 0 then k1
  else k1.store (d.scaleBase + total) (64 - total % 64) 0 false

/-- The element encodings and scale bytes of `vals`, which are the first elements of a row of `d`, under dD.rnd with draw
numbers from `draw` (R61 to R64, R82 to R86). -/
def encodeRow (d : Desc) (lfsr : BitVec 32) (draw : Nat) (vals : List Val) : List Nat × List Nat :=
  let f := d.format
  let idx := List.range vals.length
  if f.mx then
    let scales := (List.range (cdiv vals.length 32)).map (fun b => mxScale f ((vals.drop (32 * b)).take 32))
    (idx.map (fun i => mxElem f (scales.getD (i / 32) 0) (rndMode d.rnd lfsr (draw + i)) (vals.getD i .nan)), scales)
  else (idx.map (fun i => f.narrow d.zp (rndMode d.rnd lfsr (draw + i)) (vals.getD i .nan)), [])

/-- Writes values to the first elements of row `row`, rounding under dD.rnd (R64: draw row × cols + column). -/
def Core.writeVals (k : Core) (d : Desc) (lfsr : BitVec 32) (row : Nat) (vals : List Val) (poison : Bool) : Core :=
  let (es, ss) := encodeRow d lfsr (row * d.cols) vals
  let k1 := k.writeRow d row es poison
  if d.format.mx then k1.writeScales d row ss poison else k1

end Sys2Proof.Machine
end

