-- ==== Sys2Proof/Machine/Sequencer.lean ====
section
/-! DEFINITION. The sequencer of a core: presenting, issuing and retiring an instruction, faults, waits and their
accounting, counters (R20, R21, R29 to R31, R35 to R37, R48, R49, R191 to R204). -/

namespace Sys2Proof.Machine

/-! Fields of an instruction word (R35). -/

/-- Bits `[lo + w - 1 : lo]` of the field part of a word. -/
def fld (f : BitVec 26) (lo w : Nat) : Nat := bits f.toNat lo w

/-- The 16-bit immediate, sign-extended. -/
def imm16 (f : BitVec 26) : Int := signed 16 (fld f 0 16)

/-- The instruction word with a major opcode. -/
def wordOf (op : Nat) (f : BitVec 26) : BitVec 32 := BitVec.ofNat 32 (op * 2 ^ 26 + f.toNat)

/-! Registers. -/

/-- A general register; g0 reads as zero (02_core_isa.md, "General registers"). -/
def Core.gr (k : Core) (r : Nat) : BitVec 64 := if r = 0 then 0 else Tab.get (fun _ => 0) k.g r

/-- Writes a general register, ready `lat` ck after the issue ck; writes to g0 are discarded. -/
def Core.setGr (k : Core) (r : Nat) (v : BitVec 64) (lat : Nat) : Core :=
  if r = 0 then k
  else { k with g := Tab.set (fun _ => 0) k.g r v,
                gReady := Tab.set (fun _ => 0) k.gReady r (k.cycle.toNat + lat) }

/-- A descriptor register. -/
def Core.dr (k : Core) (r : Nat) : BitVec 128 := Tab.get (fun _ => 0) k.d r

/-- Writes a descriptor register, ready `lat` ck after the issue ck. -/
def Core.setDr (k : Core) (r : Nat) (v : BitVec 128) (lat : Nat) : Core :=
  { k with d := Tab.set (fun _ => 0) k.d r v,
           dReady := Tab.set (fun _ => 0) k.dReady r (k.cycle.toNat + lat) }

/-- The fields of a descriptor register. -/
def Core.desc (k : Core) (r : Nat) : Desc := Desc.ofBits (k.dr r)

/-- An arrival counter. -/
def Core.cr (k : Core) (n : Nat) : BitVec 32 := Tab.get (fun _ => 0) k.c n

/-- Writes an arrival counter. -/
def Core.setCr (k : Core) (n : Nat) (v : BitVec 32) : Core := { k with c := Tab.set (fun _ => 0) k.c n v }

/-- An event adds to a counter, and the counter remembers what advanced it (R29, R103, R200). -/
def Core.advance (k : Core) (n inc : Nat) (src : CtrSource) : Core :=
  { k.setCr n (k.cr n + BitVec.ofNat 32 inc) with cSrc := Tab.set (fun _ => CtrSource.none) k.cSrc n src }

/-- Whether a counter wait is satisfied (R30). -/
def counterMet (c t : BitVec 32) : Bool := decide ((c - t).toNat < 2 ^ 31)

/-! The window account (R197 to R201). -/

/-- Adds to a table of counts. -/
def tabAdd (t : Tab Nat) (k n : Nat) : Tab Nat := Tab.set (fun _ => 0) t k (Tab.get (fun _ => 0) t k + n)

/-- Adds to a table of signed counts. -/
def tabAddInt (t : Tab Int) (k : Nat) (n : Int) : Tab Int := Tab.set (fun _ => 0) t k (Tab.get (fun _ => 0) t k + n)

/-- ck of the core pass: CSR_CYCLE and the window's length count them (R34, R191). -/
def Core.pass (k : Core) (n : Nat) : Core :=
  { k with cycle := k.cycle + BitVec.ofNat 64 n, acct := { k.acct with cycles := k.acct.cycles + n } }

/-- `n` ck of issue (R197). -/
def Core.spendIssue (k : Core) (n : Nat) : Core :=
  let k' := k.pass n
  { k' with acct := { k'.acct with issue := k'.acct.issue + n } }

/-- `n` ck of compute (R197). -/
def Core.spendCompute (k : Core) (n : Nat) : Core :=
  let k' := k.pass n
  { k' with acct := { k'.acct with compute := k'.acct.compute + n } }

/-- A share of lag charged to a cause, most recent first (R198). -/
def chargeShare (l : List (Nat × Nat)) (cause n : Nat) : List (Nat × Nat) :=
  let old := (l.filter (fun p => p.1 == cause)).foldl (fun s p => s + p.2) 0
  (cause, old + n) :: l.filter (fun p => p.1 != cause)

/-- `n` stall ck charged to a cause, and to an idle cause when one is named (R197, R201). -/
def Core.spendStall (k : Core) (cause idle n : Nat) : Core :=
  if n = 0 then k
  else
    let k' := k.pass n
    let a := k'.acct
    { k' with acct := { a with lag := a.lag + n, shares := chargeShare a.shares cause n,
                               stall := tabAddInt a.stall cause n,
                               idle := if idle = 0 then a.idle else tabAdd a.idle idle n } }

/-- `n` booked ck spent (R197). -/
def Core.spendBooked (k : Core) (n : Nat) : Core :=
  let k' := k.pass n
  { k' with acct := { k'.acct with booked := k'.acct.booked + n } }

/-- Takes recovered ck from the shares, the most recently charged cause first; the stall counters follow (R198). -/
def takeShares : List (Nat × Nat) → Nat → Tab Int → List (Nat × Nat) × Tab Int
  | [], _, st => ([], st)
  | (c, s) :: l, n, st =>
    if n = 0 then ((c, s) :: l, st)
    else if n < s then ((c, s - n) :: l, tabAddInt st c (-(n : Int)))
    else takeShares l (n - s) (tabAddInt st c (-(s : Int)))

/-- `n` booked ck recovered; never more than the lag, with miss set otherwise (R198, R204). -/
def Core.recover (k : Core) (n : Nat) : Core :=
  let a := k.acct
  let m := min n a.lag
  let (sh, st) := takeShares a.shares m a.stall
  { k with acct := { a with recovered := a.recovered + m, lag := a.lag - m, shares := sh, stall := st,
                            miss := a.miss || decide (a.lag < n) } }

/-- Counts row slots of a memory (R111, R204). -/
def Core.slots (k : Core) (port n : Nat) : Core :=
  { k with acct := { k.acct with slots := tabAdd k.acct.slots port n } }

/-- The booking entry of an instruction index: cause, idle cause, porter bit and booked ck (R196). -/
def Core.booking (k : Core) (pc : Nat) : Option (Nat × Nat × Bool × Nat) :=
  ((List.range 256).find? (fun n => k.get (CORE_BOOK_cause n) != 0 && k.get (CORE_BOOK_pc n) == pc)).map
    (fun n => (k.get (CORE_BOOK_cause n), k.get (CORE_BOOK_idle n), k.get (CORE_BOOK_porter n) == 1,
      k.get (CORE_BOOK_booked n)))

/-- A wait of `n` ck under a cause, with `b` ck booked: booked ck first, then stall; unspent booked ck are recovered. -/
def Core.chargeWait (k : Core) (cause idle b n : Nat) : Core :=
  if b ≤ n then (k.spendBooked b).spendStall cause idle (n - b)
  else (k.spendBooked n).recover (b - n)

/-- The wait of RECV, SEND, PREQ, ERRINC or FENCE bit 3 retires after `n` ck (R196, R198). -/
def Core.bookWait (k : Core) (dflt n : Nat) : Core :=
  match k.booking k.pc with
  | none => k.chargeWait dflt 0 0 n
  | some (cause, idle, _, b) => k.chargeWait cause idle b n

/-- The wait of WAITC or WAITCR retires after `n` ck: a tensor completion counts as compute up to its booked completion and
as its own cause beyond it; a Porter transfer resolves the cause under porter = 1 (R103, R196, R197, R200). -/
def Core.counterWait (k : Core) (ctr n : Nat) : Core :=
  let (cause, idle, porter, b) := (k.booking k.pc).getD (0, 0, false, 0)
  match Tab.get (fun _ => CtrSource.none) k.cSrc ctr with
  | .tensor booked own =>
    let early := min n (booked + 1 - k.cycle.toNat)
    let k' := k.spendCompute early
    if n = early then k'.chargeWait cause idle b 0
    else k'.chargeWait (if own = 0 then cause else own) idle b (n - early)
  | .porter fence tag =>
    k.chargeWait (if porter then (if fence then 8 else if tag then 3 else cause) else cause) idle b n
  | _ => k.chargeWait cause idle b n

/-- The ck that `counterWait` sets against the booking. -/
def Core.counterCharged (k : Core) (ctr n : Nat) : Nat :=
  match Tab.get (fun _ => CtrSource.none) k.cSrc ctr with
  | .tensor booked _ => n - min n (booked + 1 - k.cycle.toNat)
  | _ => n

/-- Whether the retiring wait at the core's pc, with `n` ck set against its booking, would recover more than the lag (R204). -/
def Core.waitMisses (k : Core) (n : Nat) : Bool :=
  match k.booking k.pc with
  | none => false
  | some (_, _, _, b) => decide (n < b) && decide (k.acct.lag < b - n)

/-- The wait for tensor work of a unit (R46, a fifth issue, FENCE): compute up to the booked completion of the work waited
for, its own cause beyond (R103, R197). -/
def Core.unitWait (k : Core) (n : Nat) : Core :=
  let (booked, own) := k.lastUnit
  let early := if own = 0 then n else min n (booked + 1 - k.cycle.toNat)
  (k.spendCompute early).spendStall own 0 (n - early)

/-- Closes the window and latches its account; the running counts clear, the lag and its shares stay (R191, R203). -/
def Core.closeWindow (k : Core) (variant : Nat) : Core :=
  let a := k.acct
  let k1 := ((k.put CORE_ACCT_HDR_window a.window).put CORE_ACCT_HDR_variant variant)
  let k2 := if k.get CORE_ACCT_HDR_valid = 1 then k1.put CORE_ACCT_HDR_ovr 1 else k1.put CORE_ACCT_HDR_valid 1
  let k3 := if a.miss then k2.put CORE_ACCT_HDR_miss 1 else k2
  let k4 := ((((((k3.put CORE_ACCT_CYCLES_count a.cycles).put CORE_ACCT_ISSUE_count a.issue).put
    CORE_ACCT_COMPUTE_count a.compute).put CORE_ACCT_BOOKED_count a.booked).put CORE_ACCT_RECOVERED_count
    a.recovered).put CORE_ACCT_LAG_count a.lag)
  let k5 := (List.range 4).foldl (fun k m => k.put (CORE_ACCT_SLOTS_count m) (Tab.get (fun _ => 0) a.slots m)) k4
  let k6 := (k5.put CORE_ACCT_INJECT_count a.inject).put CORE_ACCT_DELIVER_count a.deliver
  let k7 := (List.range 13).foldl
    (fun k c => k.put (CORE_ACCT_STALL_count c) (wrap 32 (Tab.get (fun _ => 0) a.stall c))) k6
  let k8 := (List.range 9).foldl (fun k c => k.put (CORE_ACCT_IDLE_count c) (Tab.get (fun _ => 0) a.idle c)) k7
  { k8 with stepIdle := a.idle.foldl (fun t p => tabAdd t p.1 p.2) k8.stepIdle,
            acct := { Acct.zero with window := a.window + 1, openWin := a.openWin, lag := a.lag, shares := a.shares } }

/-! Faults (R49, R50). -/

/-- The REPORT packet of a core to its arcade controller (R49, R168). -/
def Core.report (k : Core) (c : CoreId) (payload : Nat) : Packet :=
  k.packet c 0x07 c.x.toNat c.y.toNat 1 0 0 0 [BitVec.ofNat 128 payload]

/-- CSR_FAULT as read (R34). -/
def CsrFault.toBits (f : CsrFault) : Nat := f.code.toNat + f.pc.toNat * 2 ^ 8 + f.info.toNat * 2 ^ 32

/-- The core stops with a fault at instruction index `pc`: CSR_FAULT is set, the state becomes FAULTED, and a REPORT leaves. -/
def Core.faulted (k : Core) (pc : Nat) (f : CoreFault) : Core :=
  { k with fault := ⟨BitVec.ofNat 8 f.1.code, BitVec.ofNat 12 pc, BitVec.ofNat 32 f.2⟩, run := .faulted, wait := none }

/-- A fault of core `c` at index `pc`. -/
def Dev.faultAt (d : Dev) (c : CoreId) (k : Core) (pc : Nat) (f : CoreFault) : Dev :=
  (d.setCore c (k.faulted pc f)).send ((k.faulted pc f).report c (k.faulted pc f).fault.toBits)

/-- A fault of the instruction at the core's pc. -/
def Dev.fault (d : Dev) (c : CoreId) (k : Core) (f : CoreFault) : Dev := d.faultAt c k k.pc f

/-! Presenting, waiting and retiring. -/

/-- An instruction retires and control goes to index `next`.  Past index 4,095 the core raises PC_FAULT in place of the next
fetch, and the instruction keeps its effect (R37). -/
def Dev.retireTo (d : Dev) (c : CoreId) (k : Core) (next : Nat) : Dev :=
  let k' := { k with pc := next, instret := k.instret + 1, wait := none }
  if next < 4096 then d.setCore c k' else d.faultAt c k' 4095 (.pc, 4096)

/-- An instruction retires after `cost` ck of its own and the next index follows. -/
def Dev.retire (d : Dev) (c : CoreId) (k : Core) (cost : Nat) : Dev := d.retireTo c (k.spendIssue cost) (k.pc + 1)

/-- Naeno reports the wait of core `c` that retires from `k` with `n` ck set against its booking, where it misses (R204). -/
def Dev.waited (d : Dev) (c : CoreId) (k : Core) (n : Nat) : Dev := if k.waitMisses n then d.raise 0x0035 (k.errAt c 0) else d

/-- The core waits with the instruction it has presented; ck waited so far are kept. -/
def Dev.block (d : Dev) (c : CoreId) (k : Core) (word : BitVec 32) (kind : WaitKind) : Dev :=
  d.setCore c { k with wait := some ⟨word, kind, ((k.wait.map (fun x => x.waited)).getD 0)⟩ }

/-- The ck the core waits until the registers read are ready are compute (R20, R21, R197). -/
def Core.interlock (k : Core) (gs ds : List Nat) : Core :=
  let t := (gs.map (Tab.get (fun _ => 0) k.gReady)).foldl max 0
  let u := (ds.map (Tab.get (fun _ => 0) k.dReady)).foldl max t
  k.spendCompute (u - k.cycle.toNat)

/-- Whether the core can take instruction `word` now: it runs, and waits for nothing else (R20). -/
def Core.takes (k : Core) (word : BitVec 32) : Bool :=
  k.run == .run && (match k.wait with
    | none => true
    | some w => w.word == word && (match w.kind with
      | .counter _ _ => false
      | .vop => false
      | _ => true))

/-- Presents an instruction to the sequencer of `c`: where the core does not take it, nothing issues and nothing changes. -/
def Dev.present (d : Dev) (c : CoreId) (op : Nat) (f : BitVec 26) (body : Core → Dev) : Dev :=
  if (d.core c).takes (wordOf op f) then body (d.core c) else d

/-- The `w` ck that passed since the instruction was last presented and could not issue: a fixed wait is charged by what it
waited for, a wait of R48 is added up for its booking. -/
def Core.settleWait (k : Core) (w : Nat) : Core :=
  match k.wait with
  | some ⟨_, .interlock mover, _⟩ => if mover then k.unitWait w else k.spendCompute w
  | some ⟨word, .stall cause, n⟩ => { k with wait := some ⟨word, .stall cause, n + w⟩ }
  | _ => k

/-- The ck waited in a wait of R48. -/
def Core.stallWaited (k : Core) : Nat := (k.wait.map (fun x => x.waited)).getD 0

/-- An instruction of a core: fields checked by `illegal` (R36), then `body` with the core after its register interlock. -/
def Dev.instr (d : Dev) (c : CoreId) (op : Nat) (f : BitVec 26) (illegal : Bool) (gs ds : List Nat)
    (body : Core → Dev) : Dev :=
  d.present c op f (fun k =>
    if illegal then d.fault c k (.illegal, (wordOf op f).toNat) else body (k.interlock gs ds))

end Sys2Proof.Machine
end

