-- ==== Sys2Proof/Machine/Tensor.lean ====
section
/-! DEFINITION. The arithmetic and the operand checks of TMM, TCVT, TSCAT and VOP (R41 to R43, R52 to R69, R82 to R101,
R172 to R185, R190, R472). -/

namespace Sys2Proof.Machine

/-! Tiles (R172 to R174). -/

/-- M and N of a shape code (R172). -/
def tileM (shape : Nat) : Nat := [128, 256, 64, 64, 32].getD shape 0
def tileN (shape : Nat) : Nat := [128, 64, 256, 64, 512].getD shape 0

/-- K of a shape for a class of 4, 8, 16 or 32 bits (R172). -/
def tileK (shape cls : Nat) : Nat :=
  let base := [64, 64, 64, 256, 32].getD shape 0
  if cls = 4 then base * 4 else if cls = 8 then base * 2 else if cls = 16 then base else base / 2

/-- The block depth and the ck of a block (R174). -/
def blockDepth (shape cls : Nat) : Nat :=
  if cls = 4 then 128 else if cls = 8 then 64 else if cls = 16 then 32 else if shape = 4 then 16 else 32
def blockCk (shape cls : Nat) : Nat := if cls = 32 && shape != 4 then 512 else 256

/-- The class of a descriptor's format; 16 for the formats that no TMM takes. -/
def Desc.cls (d : Desc) : Nat := d.format.cls.getD 16

/-! Operand values of the matrix engine (R54, R55). -/

/-- An operand: its exact value and its exponent E + S. -/
structure Opnd where
  v : Val
  ex : Int
deriving DecidableEq, Repr

/-- The exponent of R54 before the scale: that of the value, and the format's minimum for a subnormal. -/
def exOf (p : Option FloatFmt) (v : Val) : Int :=
  match p, v with
  | some p, .fin _ m e => if m = 0 then 0 else max (Val.log m e) (1 - (p.bias : Int))
  | none, .fin _ m e => if m = 0 then 0 else Val.log m e
  | _, _ => 0

/-- Entry of an FP32 element into EF19 under its ef19_rne bit; specials enter as they are (R54). -/
def enterEf19 (rne : Bool) (raw : Nat) : Val :=
  match fp32.decode raw with
  | .fin n m e =>
    if rne then ef19.decode (ef19.narrow .even (.fin n m e)) else ef19.decode (raw / 2 ^ 13)
  | v => v

/-- The operand that an encoding and a scale byte give. -/
def opndOf (d : Desc) (raw scale : Nat) : Opnd :=
  let v := if d.format = .fp32 then enterEf19 d.ef19Rne raw else d.format.value d.zp raw
  let p := if d.format = .fp32 then some ef19 else d.format.float
  if d.format.mx then ⟨v.scale scale, exOf p v + ((scale : Int) - 127)⟩ else ⟨v, exOf p v⟩

/-- The operand that a pad value gives (R88). -/
def opndPad (d : Desc) : Opnd :=
  let v := d.format.padValue d.zp d.pad
  let p := if d.format.width ≤ 16 then d.format.float else some ef19
  ⟨v, exOf p v⟩

/-- The operand at an element of a tensor, or its pad value. -/
def Core.opnd (k : Core) (d : Desc) (actual row i : Nat) : Opnd :=
  if row < actual ∧ row < d.rows ∧ i < d.cols then
    opndOf d (k.rawElem d row i) (if d.format.mx then k.scaleByte d row i else 127)
  else opndPad d

/-! The group sum (R56 to R60). -/

/-- A product of R55: its value and e = Ea + Eb + 2. -/
structure Product where
  v : Val
  e : Int
deriving DecidableEq, Repr

/-- The product of two operands. -/
def product (a b : Opnd) : Product := ⟨(Val.mul a.v b.v).1, a.ex + b.ex + 2⟩

/-- ⌊p ÷ 2^q⌋ (R58). -/
def floorUnits (v : Val) (q : Int) : Int :=
  match v with
  | .fin neg m e =>
    let n : Int := if neg then -(m : Int) else (m : Int)
    if q ≤ e then n * (2 ^ (e - q).toNat : Nat) else n / (2 ^ (q - e).toNat : Nat)
  | _ => 0

/-- The threshold of R59 for a float class. -/
def biasThreshold (cls : Nat) : Int := if cls = 4 then 24 else if cls = 8 then 20 else 6

/-- The value of a group with a special product (R57). -/
def specialGroup (ps : List Product) : Val :=
  if ps.any (fun p => p.v.isNan) then .nan
  else
    let pos := ps.any (fun p => p.v == .inf false)
    let neg := ps.any (fun p => p.v == .inf true)
    if pos && neg then .nan else .inf neg

/-- The value of a group of products (R57 to R59); `int` for the INT formats. -/
def groupValue (int : Bool) (cls : Nat) (bias : Bool) (ps : List Product) : Val :=
  if ps.any (fun p => p.v.isNan || p.v.isInf) then specialGroup ps
  else
    let nz := ps.filter (fun p => !p.v.isZero)
    if int then Val.ofUnits false (nz.foldl (fun s p => s + floorUnits p.v 0) 0) 0
    else match nz with
      | [] => .fin false 0 0
      | p :: rest =>
        let emax := rest.foldl (fun m q => max m q.e) p.e
        let q := emax - 27
        let s := nz.foldl (fun s p => s + floorUnits p.v q) 0
        let low : Nat := (nz.filter (fun p => decide (p.e ≤ emax - biasThreshold cls))).length
        Val.ofUnits false (2 * s + (if bias then (low : Int) else 0)) (q - 1)

/-- One group sum is added to an FP32 accumulator, rounded once to nearest even (R57, R60). -/
def accumulate (a g : Val) : Val :=
  if g.isZero then a else fp32.decode (fp32.narrow .even (Val.add .even a g).1)

/-- The actual extents of a TMM: M_act, N_act, K_act (R182). -/
def TensorOp.extents (o : TensorOp) : Nat × Nat × Nat :=
  let a := Desc.ofBits o.dA
  let b := Desc.ofBits o.dB
  let ka := if a.sp24 then 2 * a.cols else a.cols
  let kb := if b.sp24 then 2 * b.cols else o.rowsB
  (min o.rowsA (tileM o.shape), if b.sp24 then min o.rowsB (tileN o.shape) else b.cols, min ka kb)

/-- The k blocks that run (R182). -/
def TensorOp.kBlocks (o : TensorOp) : Nat :=
  let a := Desc.ofBits o.dA
  let b := Desc.ofBits o.dB
  let depth := blockDepth o.shape a.cls
  cdiv o.extents.2.2 (if a.sp24 || b.sp24 then 2 * depth else depth)

/-- The blocks of a tile in loop order, outermost first (R176). -/
def TensorOp.blockList (o : TensorOp) : List (Nat × Nat × Nat) :=
  let (ma, na, _) := o.extents
  let M := List.range (cdiv ma 32)
  let N := List.range (cdiv na 32)
  let K := List.range o.kBlocks
  if o.order = 0 then M.flatMap (fun m => N.flatMap (fun n => K.map (fun k => (m, n, k))))
  else if o.order = 1 then N.flatMap (fun n => M.flatMap (fun m => K.map (fun k => (m, n, k))))
  else if o.shape = 1 then K.flatMap (fun k => N.flatMap (fun n => M.map (fun m => (m, n, k))))
  else K.flatMap (fun k => M.flatMap (fun m => N.map (fun n => (m, n, k))))

/-- The pair of operands at position `t` along K of output element (i, n): a dense position, or a kept element of the sparse
operand with the dense element its index names (R95, R98, R180, R182). -/
def Core.pairAt (k : Core) (o : TensorOp) (i n t : Nat) : Product :=
  let a := Desc.ofBits o.dA
  let b := Desc.ofBits o.dB
  let kAct := o.extents.2.2
  if a.sp24 then
    let inside := decide (i < o.rowsA) && decide (t < a.cols)
    let pos := 4 * (t / 2) + (if inside then k.metaIndex a i t else t % 2)
    if inside && decide (pos < kAct) then product (k.opnd a o.rowsA i t) (k.opnd b o.rowsB pos n)
    else product (opndPad a) (opndPad b)
  else if b.sp24 then
    let inside := decide (n < o.rowsB) && decide (t < b.cols)
    let pos := 4 * (t / 2) + (if inside then k.metaIndex b n t else t % 2)
    if inside && decide (pos < kAct) then product (k.opnd a o.rowsA i pos) (k.opnd b o.rowsB n t)
    else product (opndPad a) (opndPad b)
  else if t < kAct then product (k.opnd a o.rowsA i t) (k.opnd b o.rowsB t n)
  else product (opndPad a) (opndPad b)

/-- The FP32 accumulator of output element (i, n) after the groups of the first `blocks` k blocks (R56, R178). -/
def Core.tmmSum (k : Core) (o : TensorOp) (blocks i n : Nat) : Val :=
  let a := Desc.ofBits o.dA
  let dD := Desc.ofBits o.dD
  let init : Val := if o.acc then k.elem dD i n else .fin false 0 0
  let total := blocks * blockDepth o.shape a.cls
  (List.range (cdiv total 32)).foldl
    (fun acc j => accumulate acc (groupValue a.format.isInt a.cls o.bias
      ((List.range (min 32 (total - 32 * j))).map (fun x => k.pairAt o i n (32 * j + x))))) init

/-- The FP32 accumulator of output element (i, n) after every group. -/
def Core.tmmElem (k : Core) (o : TensorOp) (i n : Nat) : Val := k.tmmSum o o.kBlocks i n

/-- The output rows and columns that a TMM writes (R181, R190). -/
def TensorOp.written (o : TensorOp) : Nat × Nat :=
  let (m, n, kk) := o.extents
  let dD := Desc.ofBits o.dD
  if kk = 0 && o.acc then (0, 0) else (min m (min o.rowsD dD.rows), min n dD.cols)

/-- Whether a TMM reads a poisoned row (R430). -/
def Core.tmmPoisoned (k : Core) (o : TensorOp) : Bool :=
  let a := Desc.ofBits o.dA
  let b := Desc.ofBits o.dB
  k.tensorPoisoned a (min o.rowsA a.rows) || k.tensorPoisoned b (min o.rowsB b.rows)
    || (o.acc && k.tensorPoisoned (Desc.ofBits o.dD) (min o.rowsD (Desc.ofBits o.dD).rows))

/-- A scale row all of whose bytes were written takes the mark of the writer (R77, R428). -/
def Core.markScales (k : Core) (d : Desc) (n : Nat) (poison : Bool) : Core :=
  (List.range (d.scaleRows n)).foldl
    (fun k j => if (j + 1) * 64 ≤ n * d.blocks ∨ n = d.rows then k.setPoison (d.scaleBase + j * 64) poison else k) k

/-- The first `n` output rows of a TMM are written from the accumulators after `blocks` k blocks. -/
def Core.tmmWriteTo (k : Core) (o : TensorOp) (n blocks : Nat) : Core :=
  let (rows, cols) := o.written
  let dD := Desc.ofBits o.dD
  let p := k.tmmPoisoned o
  let k' := (List.range (min n rows)).foldl
    (fun k' i => k'.writeVals dD o.lfsr i ((List.range cols).map (fun c => k.tmmSum o blocks i c)) p) k
  if cols = dD.cols then k'.markScales dD (min n rows) p else k'

/-- The first `n` output rows of a TMM are written with their final values. -/
def Core.tmmWrite (k : Core) (o : TensorOp) (n : Nat) : Core := k.tmmWriteTo o n o.kBlocks

/-! TCVT (R42, R61, R82 to R87, R472). -/

/-- Whether every value of an integer format with a zero point is a value of the destination (R61, R82). -/
def intFits (src dst : Desc) : Bool :=
  (List.range (2 ^ src.format.width)).all (fun raw =>
    let v := src.format.value src.zp raw
    let r := dst.format.value dst.zp (dst.format.narrow dst.zp .zero v)
    match v, r with
    | .fin n m e, .fin n' m' e' => Val.units n m e (min e e') == Val.units n' m' e' (min e e')
    | _, _ => false)

/-- Whether the value set of a float format contains that of another (R61, R82). -/
def floatFits (src dst : Fmt) : Bool :=
  match src, dst with
  | _, .fp64 => true
  | .fp64, _ => false
  | _, .fp32 => true
  | .bf16, .ef19 => true | .fp16, .ef19 => true | .fp8e4m3, .ef19 => true | .fp8e5m2, .ef19 => true
  | .fp8e4m3, .bf16 => true | .fp8e5m2, .bf16 => true
  | .fp8e4m3, .fp16 => true | .fp8e5m2, .fp16 => true
  | _, _ => false

/-- Whether a TCVT rounds under dD.rnd (R61). -/
def tcvtRounds (src dst : Desc) : Bool :=
  if src.format = dst.format then src.format.isInt && src.zp != dst.zp
  else if dst.format.mx then true
  else if src.format.isInt then (dst.format.isInt && src.zp != dst.zp) || !(intFits src dst)
  else if dst.format.isInt then true
  else !(floatFits src.format dst.format)

/-- One block of a copy between equal MX formats: the encodings and the scale byte as they are, but a block that holds a NaN or an Inf becomes
the NaN block of R85, step 1 (log 54). -/
def Core.mxCopy (k : Core) (a : Desc) (i b : Nat) : List Nat × Nat :=
  let cs := (List.range (min 32 (a.cols - 32 * b))).map (fun j => 32 * b + j)
  if cs.any (fun c => (k.elem a i c).isNan || (k.elem a i c).isInf) then (cs.map (fun _ => 0), 0xFF)
  else (cs.map (fun c => k.rawElem a i c), k.scaleByte a i (32 * b))

/-- Row `i` of a TCVT's result is written: a copy between equal MX formats goes block by block, every other conversion goes through the exact
values (R61, R82 to R86). -/
def Core.tcvtRow (src k : Core) (o : TensorOp) (i : Nat) (p : Bool) : Core :=
  let a := Desc.ofBits o.dA
  let dD := Desc.ofBits o.dD
  let vals := (List.range dD.cols).map (fun c => src.elemOrPad a o.rowsA i c)
  if a.format = dD.format ∧ a.format.mx = true ∧ i < o.rowsA then
    let bs := (List.range dD.blocks).map (src.mxCopy a i)
    (k.writeRow dD i (bs.flatMap (fun b => b.1)) p).writeScales dD i (bs.map (fun b => b.2)) p
  else if tcvtRounds a dD then k.writeVals dD o.lfsr i vals p
  else k.writeVals { dD with rnd := 0 } o.lfsr i vals p

/-- The first `n` destination rows of a TCVT are written from the source as it stood (R87). -/
def Core.tcvtWrite (k : Core) (o : TensorOp) (n : Nat) : Core :=
  let a := Desc.ofBits o.dA
  let dD := Desc.ofBits o.dD
  let p := k.tensorPoisoned a (min o.rowsA o.rowsD)
  let m := min n o.rowsD
  ((List.range m).foldl (fun k' i => Core.tcvtRow k k' o i p) k).markScales dD m p

/-! TSCAT (R99 to R101). -/

/-- Whether a TSCAT reads a poisoned source or index row (R430). -/
def Core.scatPoisoned (k : Core) (o : TensorOp) : Bool :=
  let b := Desc.ofBits o.dB
  k.tensorPoisoned (Desc.ofBits o.dA) o.rowsA || k.tensorPoisoned b (min o.rowsB (cdiv o.rowsA b.cols))

/-- The row adds of source row `i`: one per 64-byte row of the target tensor row, in ascending address; none of a skipped row's
adds has a target (R100, R101, R102). -/
def Core.scatAdds (k : Core) (o : TensorOp) (p : Bool) (i : Nat) : List RowAdd :=
  let a := Desc.ofBits o.dA
  let b := Desc.ofBits o.dB
  let dD := Desc.ofBits o.dD
  let t := if i / b.cols < o.rowsB then k.rawElem b (i / b.cols) (i % b.cols) else b.pad
  (List.range dD.span).map (fun j =>
    let addend := packElems 32 ((List.range 16).map (fun x =>
      if 16 * j + x < dD.cols then fp32.narrow .even (k.elem a i (16 * j + x)) else 0))
    ⟨if t < dD.rows then some ((dD.base - 0x80000) / 64 + t * dD.stride + j) else none, BitVec.ofNat 512 addend, p, 0⟩)

/-- Rows of a TSCAT skipped for an index out of range other than 0xFFFF (R100). -/
def Core.scatSkipped (k : Core) (o : TensorOp) : Nat :=
  let b := Desc.ofBits o.dB
  ((List.range o.rowsA).filter (fun i =>
    let t := if i / b.cols < o.rowsB then k.rawElem b (i / b.cols) (i % b.cols) else b.pad
    decide ((Desc.ofBits o.dD).rows ≤ t) && t != 0xFFFF)).length

/-- Every row add of a TSCAT, in order. -/
def Core.scatAll (k : Core) (o : TensorOp) : List RowAdd := (List.range o.rowsA).flatMap (k.scatAdds o (k.scatPoisoned o))

/-- A row plus its addend: 16 FP32 sums rounded to nearest even, canonical NaN (R100). -/
def addRow (old addend : RowData) : RowData :=
  BitVec.ofNat 512 (packElems 32 ((List.range 16).map (fun x =>
    fp32.narrow .even (Val.add .even (fp32.decode (bits old.toNat (32 * x) 32))
      (fp32.decode (bits addend.toNat (32 * x) 32))).1)))

/-! Booked times (R103, R174, R175, R178, R181, R472). -/

/-- The engine ck of a TMM: its blocks and the write of the last accumulator block, or its null pass (R175, R190). -/
def TensorOp.tmmCk (o : TensorOp) : Nat :=
  let a := Desc.ofBits o.dA
  let dD := Desc.ofBits o.dD
  let (m, n, kk) := o.extents
  let (rows, cols) := o.written
  let wide := if dD.format.width = 32 then 2 else 1
  if m = 0 ∨ n = 0 ∨ rows = 0 ∨ cols = 0 then 1
  else if kk = 0 then max 1 (rows * cdiv (cols * dD.format.width) 512)
  else
    let lastRows := min 32 (rows - min rows ((cdiv m 32 - 1) * 32))
    cdiv m 32 * cdiv n 32 * o.kBlocks * blockCk o.shape a.cls + max 1 (lastRows * wide)

/-- The mover ck of a TCVT: reads and writes of 64-byte rows, in parallel when dA and dD lie in different memories (R472). -/
def TensorOp.tcvtCk (o : TensorOp) : Nat :=
  let a := Desc.ofBits o.dA
  let dD := Desc.ofBits o.dD
  let n := o.rowsD
  if n = 0 then 1
  else
    let pa := (regionOf a.base).map (fun r => portOf r.1)
    let pd := (regionOf dD.base).map (fun r => portOf r.1)
    let actual := min n o.rowsA
    let reads := actual * a.span + a.scaleRows actual
    let writes := n * dD.span + dD.scaleRows n
    if pa = pd then reads + writes
    else
      -- (ck of the last read so far, ck of the last write): each destination row waits for the source rows it needs
      let step := fun (st : Nat × Nat) (j : Nat) =>
        let i := j / dD.span
        let bytesOf := min ((j % dD.span + 1) * 512 / dD.format.width) a.cols
        let need := if i < actual then
            (if a.format.mx then min (a.scaleRows actual) (((i + 1) * a.blocks + 63) / 64) else 0)
              + i * a.span + min a.span (cdiv (bytesOf * a.format.width) 512)
          else st.1
        let r := max st.1 need
        (r, max (r + 1) (st.2 + 1))
      ((List.range (n * dD.span)).foldl step (0, 0)).2 + dD.scaleRows n

/-- The ck the ledger books for a tensor operation. -/
def TensorOp.bookedCk (o : TensorOp) : Nat :=
  match o.kind with
  | .tmm => o.tmmCk
  | .tcvt => o.tcvtCk
  | .tscat => if o.rowsA = 0 then 1 else o.rowsA * (Desc.ofBits o.dD).span + 4

/-! Held footprints (R46). -/

/-- The spans that an outstanding operation holds. -/
def TensorOp.held (o : TensorOp) : List (Nat × Nat) :=
  (Desc.ofBits o.dD).spans ++ (Desc.ofBits o.dA).spans
    ++ (if o.kind = .tcvt then [] else (Desc.ofBits o.dB).spans)

/-- The spans that it writes. -/
def TensorOp.writes (o : TensorOp) : List (Nat × Nat) := (Desc.ofBits o.dD).spans

/-- The spans that it reads. -/
def TensorOp.reads (o : TensorOp) : List (Nat × Nat) :=
  (Desc.ofBits o.dA).spans ++ (if o.kind = .tcvt then [] else (Desc.ofBits o.dB).spans)
    ++ (if o.acc then (Desc.ofBits o.dD).spans else [])

/-- Whether a span meets a held footprint. -/
def Core.holds (k : Core) (sp : List (Nat × Nat)) : Bool := (k.tmm ++ k.mov).any (fun o => spansMeet sp o.held)

/-- Whether an instruction on one unit conflicts with the other unit's outstanding work (R46). -/
def unitConflict (o : TensorOp) (other : List TensorOp) : Bool :=
  other.any (fun p => spansMeet o.writes p.held || spansMeet o.reads p.writes)

/-! Operand checks (R471, steps 4 and 5). -/

def memWm : List Nat := [0]
def memData : List Nat := [0, 1, 2, 4, 5, 6, 7]
def memNoPm : List Nat := [0, 1, 4, 5, 6, 7]

/-- The checks of TMM (R43, R53, R61, R92, R172, R173, R177, R185). -/
def Core.tmmFault (k : Core) (rD rA rB shape order : Nat) (acc : Bool) : Option CoreFault :=
  let dD := k.desc rD
  let a := k.desc rA
  let b := k.desc rB
  let operand := fun f : Fmt => f.cls.isSome
  let cls := a.cls
  let kk := tileK shape cls
  let rounds := !(dD.format == .fp32 || dD.format == .fp64)
  firstFault [
    k.checkDesc rD dD (fun f => if acc then f == .fp32 else f != .u16) false (if acc then [2] else [1, 2]) true,
    k.checkDesc rA a operand true memNoPm true,
    k.checkDesc rB b operand true memNoPm true,
    faultIf (a.format.cls != b.format.cls || (a.format.isInt || b.format.isInt) && a.format != b.format)
      (.fmt, fmtInfo rB b),
    faultIf (a.sp24 && b.sp24) (.fmt, fmtInfo rB b),
    faultIf (order == 2 && decide (blockDepth shape cls < kk)
      && !(dD.format == .fp32 && (regionOf dD.base).map (fun r => r.1) == some 2)) (.fmt, fmtInfo rD dD),
    faultIf (rounds && dD.rnd == 3) (.fmt, fmtInfo rD dD),
    faultIf (decide (tileM shape < dD.rows) || decide (tileN shape < dD.cols)) (.shape, rD),
    faultIf (decide (tileM shape < a.rows) || decide ((if b.sp24 then 2 * kk else kk) < a.cols)) (.shape, rA),
    faultIf (if b.sp24 then decide (tileN shape < b.rows) || decide (kk < b.cols)
      else decide ((if a.sp24 then 2 * kk else kk) < b.rows) || decide (tileN shape < b.cols)) (.shape, rB)]

/-- The checks of TCVT (R42, R61, R87, R184). -/
def Core.tcvtFault (k : Core) (rD rA : Nat) : Option CoreFault :=
  let dD := k.desc rD
  let a := k.desc rA
  let overlap := spansMeet dD.spans a.spans
  let scales := if dD.scaleRows dD.rows = 0 then [] else [(dD.scaleBase, dD.scaleRows dD.rows * 64)]
  firstFault [
    k.checkDesc rD dD (fun f => f != .u16) false memData true,
    k.checkDesc rA a (fun f => f != .u16) false memData true,
    faultIf (tcvtRounds a dD && dD.rnd == 3) (.fmt, fmtInfo rD dD),
    faultIf (a.cols != dD.cols || decide (a.rows < k.actualRows dD)) (.shape, rA),
    faultIf (overlap && !(a.base == dD.base && decide (dD.format.width ≤ a.format.width)
      && !(spansMeet scales a.spans))) (.addr, dD.base)]

/-- The checks of TSCAT (R99). -/
def Core.tscatFault (k : Core) (rD rA rB : Nat) : Option CoreFault :=
  let dD := k.desc rD
  let a := k.desc rA
  let b := k.desc rB
  firstFault [
    k.checkDesc rD dD (fun f => f == .fp32) false [2] true,
    k.checkDesc rA a (fun f => f == .fp32 || f == .ef19 || f == .bf16 || f == .fp16) false memNoPm true,
    k.checkDesc rB b (fun f => f == .u16) false [0, 1] true,
    faultIf (a.cols != dD.cols) (.shape, rA),
    faultIf (decide (b.rows * b.cols < a.rows)) (.shape, rB)]

/-! VOP (R41, R66 to R69). -/

/-- The vfunc codes of R41. -/
def vopBinary (vf : Nat) : Bool := decide (vf ≤ 4) || vf == 6 || vf == 7
def vopReduce (vf : Nat) : Bool := decide (0x20 ≤ vf) && decide (vf ≤ 0x23)
def vopSpecial (vf : Nat) : Bool := decide (0x10 ≤ vf) && decide (vf ≤ 0x16)
def vopValid (vf : Nat) : Bool := decide (vf ≤ 0x0A) || vopSpecial vf || vopReduce vf

/-- The checks of VOP (R41, R61, R67, R68, R92, R184, R185). -/
def Core.vopFault (k : Core) (rD rA rB vf : Nat) (bcast : Bool) : Option CoreFault :=
  let dD := k.desc rD
  let a := k.desc rA
  let b := k.desc rB
  let bin := vopBinary vf
  let is64 := fun d : Desc => d.format == .fp64
  let mixed := is64 a != is64 dD || (bin && is64 b != is64 dD)
  let last := if bin then rB else rA
  let lastD := if bin then b else a
  firstFault [
    k.checkDesc rD dD (fun f => f != .u16) false memData true,
    k.checkDesc rA a (fun f => f != .u16 && !(vopSpecial vf && f == .fp64)) false memData true,
    if bin then k.checkDesc rB b (fun f => f != .u16) false memData true else none,
    faultIf (vf != 0x0A && mixed) (.fmt, fmtInfo last lastD),
    faultIf (!(is64 dD) && dD.format != .fp32 && dD.rnd == 3) (.fmt, fmtInfo rD dD),
    if vopReduce vf then faultIf (dD.cols != 1) (.shape, rD)
      else faultIf (a.cols != dD.cols || (bin && b.cols != dD.cols)) (.shape, last),
    faultIf (decide (a.rows < k.actualRows dD) || (bin && !bcast && decide (b.rows < k.actualRows dD)))
      (.shape, if bin && !bcast then rB else rA)]

/-- An operand as the vector unit reads it, and whether it is a signalling NaN (R66, R67). -/
def Core.vecElem (k : Core) (d : Desc) (actual row i : Nat) : Val × Bool :=
  let v := k.elemOrPad d actual row i
  let inMem := decide (row < actual) && decide (row < d.rows) && decide (i < d.cols) && !(d.format.mx && k.scaleByte d row i == 0xFF)
  let s := match d.format.float with
    | some p => inMem && p.snan (k.rawElem d row i)
    | none => false
  (if d.format = .fp64 then v else v.widen32, s)

/-- The result of a special function before rounding into a narrower dD: the special inputs of R68, else the opaque value. -/
def specialFunc (vf fmtCode : Nat) (x : Val) : Val × Flags :=
  let xbits := fp32.narrow .even x
  let other : Val × Flags := (fp32.decode (Config.specialResult vf fmtCode xbits).toNat,
    { nx := true, of := Config.specialOverflow vf fmtCode xbits, uf := Config.specialTiny vf fmtCode xbits })
  match x with
  | .nan => (.nan, Flags.none)
  | .inf neg =>
    if vf = 0x10 then (if neg then .fin false 0 0 else .inf false, Flags.none)
    else if vf = 0x11 then (if neg then (.nan, Flags.invalid) else (.inf false, Flags.none))
    else if vf = 0x12 then (if neg then (.nan, Flags.invalid) else (.fin false 0 0, Flags.none))
    else if vf = 0x13 then (.fin neg 1 0, Flags.none)
    else if vf = 0x14 then (if neg then .fin false 0 0 else .fin false 1 0, Flags.none)
    else (if neg then .fin true 0 0 else .inf false, Flags.none)
  | .fin neg m e =>
    if m = 0 then
      if vf = 0x10 then (.fin false 1 0, Flags.none)
      else if vf = 0x11 then (.inf true, { dz := true })
      else if vf = 0x12 then (.inf neg, { dz := true })
      else if vf = 0x14 then other
      else (.fin neg 0 0, Flags.none)
    else if (vf = 0x11 || vf = 0x12) && neg then (.nan, Flags.invalid)
    else if vf = 0x11 && Val.units false m e (min e 0) == Val.units false 1 0 (min e 0) then (.fin false 0 0, Flags.none)
    else other

/-- The exact or kept-exact result of an elementwise vfunc on operands a, b and the old dD element c, with its flags. -/
def vopExact (vf fmtCode : Nat) (rm : Round) (a b c : Val) : Val × Flags :=
  if vf = 0 then Val.add rm a b
  else if vf = 1 then Val.add rm a (match b with | .nan => .nan | v => v.withSign (!v.neg))
  else if vf = 2 then Val.mul a b
  else if vf = 3 then Val.fma rm a b c
  else if vf = 4 then Val.div a b
  else if vf = 5 then Val.sqrt a
  else if vf = 6 then (Val.minimum a b, Flags.none)
  else if vf = 7 then (Val.maximum a b, Flags.none)
  else if vf = 8 then (a.withSign false, Flags.none)
  else if vf = 9 then (a.withSign (!a.neg), Flags.none)
  else if vf = 10 then (a, Flags.none)
  else specialFunc vf fmtCode a

/-- Rounding of a vector result into FP32 or FP64 by CSR_FRM, with flags (R66). -/
def vecRound (p : FloatFmt) (rm : Round) (r : Val × Flags) (snan : Bool) : Val × Flags :=
  let (b, f) := p.ieeeRound rm r.1
  (p.decode b, Flags.or (Flags.or r.2 f) (if snan then Flags.invalid else Flags.none))

/-- The result of one element: rounded by CSR_FRM into FP32 or FP64 with flags, else computed in FP32 to nearest even without
flags; CVT keeps the exact source for its one rounding (R67, R83). -/
def vopElem (vf fmtCode : Nat) (dst : Fmt) (rm : Round) (a b c : Val) (snan : Bool) : Val × Flags :=
  if dst = .fp64 then vecRound fp64 rm (vopExact vf fmtCode rm a b c) snan
  else if dst = .fp32 then
    if vopSpecial vf then
      let (v, f) := specialFunc vf fmtCode a
      (v, Flags.or f (if snan then Flags.invalid else Flags.none))
    else vecRound fp32 rm (vopExact vf fmtCode rm a b c) snan
  else if vf = 10 then (a, Flags.none)
  else (fp32.decode (fp32.narrow .even (vopExact vf fmtCode .even a b c).1), Flags.none)

/-- One rounded step of a reduction (R69). -/
def reduceStep (vf : Nat) (p : FloatFmt) (rm : Round) (x y : Val × Flags) : Val × Flags :=
  let r := if vf = 0x21 then (Val.maximum x.1 y.1, Flags.none) else if vf = 0x22 then (Val.minimum x.1 y.1, Flags.none)
    else Val.add rm x.1 y.1
  let z := vecRound p rm r false
  (z.1, Flags.or (Flags.or x.2 y.2) z.2)

/-- The lane sums of a reduction: lane j takes elements j, j + L, … in order (R69). -/
def reduceLane (vf : Nat) (p : FloatFmt) (rm : Round) : List (Val × Bool) → Option (Val × Flags) → Option (Val × Flags)
  | [], acc => acc
  | (x, s) :: xs, acc =>
    let fl := if s then Flags.invalid else Flags.none
    let next : Val × Flags := match acc with
      | none => if vf = 0x23 then
          (let z := vecRound p rm (Val.mul x x) s; z) else (x, fl)
      | some a => if vf = 0x23 then
          (let z := vecRound p rm (Val.fma rm x x a.1) s; (z.1, Flags.or a.2 z.2))
        else reduceStep vf p rm a (x, fl)
    reduceLane vf p rm xs (some next)

/-- Combines lane j with lane j + w for every j that is a multiple of 2w (R69). -/
def reducePairs (vf : Nat) (p : FloatFmt) (rm : Round) : List (Option (Val × Flags)) → List (Option (Val × Flags))
  | a :: b :: rest =>
    (match a, b with
      | some x, some y => some (reduceStep vf p rm x y)
      | none, y => y
      | x, none => x) :: reducePairs vf p rm rest
  | l => l

/-- The result of a row reduction over L lanes; neighbouring lanes combine in each pass (R69). -/
def reduceRow (vf L : Nat) (p : FloatFmt) (rm : Round) (xs : List (Val × Bool)) : Val × Flags :=
  let lane := fun j => reduceLane vf p rm
    ((List.range (cdiv (xs.length - j) L)).map (fun t => xs.getD (j + t * L) (.nan, false))) none
  let l0 := (List.range L).map (fun j => if j < xs.length then lane j else none)
  let l1 := reducePairs vf p rm l0
  let l2 := reducePairs vf p rm l1
  let l3 := if L = 16 then reducePairs vf p rm (reducePairs vf p rm l2) else l2
  (l3.headD none).getD (.nan, Flags.none)

/-- The 64-byte row slots that a VOP uses in each memory, the busiest of which bounds its duration (R41, R111). -/
def VopOp.slots (o : VopOp) : Tab Nat :=
  let dD := Desc.ofBits o.dD
  let a := Desc.ofBits o.dA
  let b := Desc.ofBits o.dB
  let port := fun d : Desc => ((regionOf d.base).map (fun r => portOf r.1)).getD 0
  let rows := fun (d : Desc) (n : Nat) => n * d.span + d.scaleRows n
  let t1 := tabAdd [] (port dD) (rows dD o.rowsD * (if o.vfunc = 3 then 2 else 1))
  let t2 := tabAdd t1 (port a) (rows a (min o.rowsD o.rowsA))
  if vopBinary o.vfunc then tabAdd t2 (port b) (rows b (if o.bcast then min 1 o.rowsB else min o.rowsD o.rowsB)) else t2

/-- The duration of a VOP (R41). -/
def VopOp.ck (o : VopOp) : Nat :=
  let dD := Desc.ofBits o.dD
  let a := Desc.ofBits o.dA
  let n := o.rowsD * (if vopReduce o.vfunc then a.cols else dD.cols)
  let lanes := if a.format = .fp64 ∨ dD.format = .fp64 then 4 else 16
  6 + max (cdiv n lanes) ((o.slots).foldl (fun m p => max m p.2) 0)

/-- The result values of row `i` of a VOP and the flags they set. -/
def Core.vopRow (k : Core) (o : VopOp) (i : Nat) : List (Val × Flags) :=
  let dD := Desc.ofBits o.dD
  let a := Desc.ofBits o.dA
  let b := Desc.ofBits o.dB
  let rm := frmMode o.frm.toNat
  let va := fun c => k.vecElem a o.rowsA i c
  if vopReduce o.vfunc then
    let L := if a.format = .fp64 then 4 else 16
    let p := if a.format = .fp64 then fp64 else fp32
    let narrow := !(dD.format == .fp32 || dD.format == .fp64)
    let (v, f) := reduceRow o.vfunc L p (if narrow then .even else rm) ((List.range a.cols).map va)
    [(v, if narrow then Flags.none else f)]
  else
    (List.range dD.cols).map (fun c =>
      let x := va c
      let y := if vopBinary o.vfunc then k.vecElem b o.rowsB (if o.bcast then 0 else i) c else (.nan, false)
      let z := if o.vfunc = 3 then k.vecElem dD o.rowsD i c else (.nan, false)
      vopElem o.vfunc dD.fmt dD.format rm x.1 y.1 z.1 (x.2 || (y.2 || z.2)))

/-- Whether ABS or NEG only changes sign bits: dA and dD in one float format (R66). -/
def VopOp.signOnly (o : VopOp) : Bool :=
  (o.vfunc == 8 || o.vfunc == 9) && (Desc.ofBits o.dA).format == (Desc.ofBits o.dD).format
    && (Desc.ofBits o.dD).format.float.isSome

/-- Row `i` of an ABS or NEG that only changes sign bits, scales copied. -/
def Core.signRow (src k : Core) (o : VopOp) (i : Nat) (p : Bool) : Core :=
  let a := Desc.ofBits o.dA
  let dD := Desc.ofBits o.dD
  let s := 2 ^ (if dD.format = .ef19 then 18 else dD.format.width - 1)
  let pad := dD.format.narrow 0 .even (a.format.padValue a.zp a.pad)
  let es := (List.range dD.cols).map (fun c =>
    let raw := if i < o.rowsA then src.rawElem a i c % (2 * s) else pad
    if o.vfunc = 8 then raw % s else if raw < s then raw + s else raw - s)
  let k1 := k.writeRow dD i es p
  if dD.format.mx then
    k1.writeScales dD i ((List.range dD.blocks).map (fun b => if i < o.rowsA then src.scaleByte a i (32 * b) else 127)) p
  else k1

/-- Whether a VOP reads a poisoned row (R430). -/
def Core.vopPoisoned (k : Core) (o : VopOp) : Bool :=
  k.tensorPoisoned (Desc.ofBits o.dA) (min o.rowsA o.rowsD)
    || (vopBinary o.vfunc && k.tensorPoisoned (Desc.ofBits o.dB) (if o.bcast then min 1 o.rowsB else min o.rowsB o.rowsD))
    || (o.vfunc == 3 && k.tensorPoisoned (Desc.ofBits o.dD) o.rowsD)

/-- The first `n` result rows of a VOP are written, and CSR_FFLAGS takes the flags of FP32 and FP64 results (R66). -/
def Core.vopWrite (k : Core) (o : VopOp) (n : Nat) : Core :=
  let dD := Desc.ofBits o.dD
  let p := k.vopPoisoned o
  let m := min n o.rowsD
  let k' := (List.range m).foldl (fun k' i =>
    if o.signOnly then Core.signRow k k' o i p
    else
      let r := k.vopRow o i
      let k2 := k'.writeVals dD o.lfsr i (r.map (fun x => x.1)) p
      { k2 with fflags := k2.fflags ||| (r.foldl (fun f x => Flags.or f x.2) Flags.none).toBits }) k
  k'.markScales dD m p

end Sys2Proof.Machine
end

