-- ==== Sys2Proof/Machine/CoreStop.lean ====
section
/-! DEFINITION. What ends a core's work: closing its endpoints (R138), and the stop of a reset, a job kill or a resolution
(R378 to R381). -/

namespace Sys2Proof.Machine

/-- A RECEIPT packet to endpoint or tally queue `n` of core (x, y) (R137, R138, R168). -/
def Core.receipt (k : Core) (c : CoreId) (x y n rx gen reason : Nat) (tq : Bool) : Packet :=
  k.packet c 0x02 x y 0 0 1 (n + rx * 2 ^ 5 + gen * 2 ^ 8 + reason * 2 ^ 16 + tq.toNat * 2 ^ 20) []

/-- The cores of a tally queue's contributor rectangle (R140). -/
def Core.rectangle (k : Core) (q : Nat) : List (Nat × Nat) :=
  let x0 := k.get (CORE_TQ_x0 q)
  let y0 := k.get (CORE_TQ_y0 q)
  let w := k.get (CORE_TQ_x1 q) + 1 - x0
  let h := k.get (CORE_TQ_y1 q) + 1 - y0
  (List.range h).flatMap (fun j => (List.range w).map (fun i => (x0 + i, y0 + j)))

/-- Whether endpoint `n` is a configured receive endpoint. -/
def Core.isRecv (k : Core) (n : Nat) : Bool := k.get (CORE_EP_valid n) == 1 && k.get (CORE_EP_dir n) == 1

/-- Whether endpoint `n` is a configured send endpoint. -/
def Core.isSend (k : Core) (n : Nat) : Bool := k.get (CORE_EP_valid n) == 1 && k.get (CORE_EP_dir n) == 0

/-- The run counts of an endpoint and of a tally queue. -/
def Core.epRun (k : Core) (n : Nat) : EpRun := Tab.get (fun _ => EpRun.zero) k.ep n
def Core.setEpRun (k : Core) (n : Nat) (e : EpRun) : Core := { k with ep := Tab.set (fun _ => EpRun.zero) k.ep n e }
def Core.tqRun (k : Core) (q : Nat) : TqRun := Tab.get (fun _ => TqRun.zero) k.tq q
def Core.setTqRun (k : Core) (q : Nat) (t : TqRun) : Core := { k with tq := Tab.set (fun _ => TqRun.zero) k.tq q t }

/-- The open group of a delivery tag. -/
def Core.group (k : Core) (tag : BitVec 8) : Option Group := Tab.get (fun _ => none) k.groups tag.toNat
def Core.setGroup (k : Core) (tag : BitVec 8) (g : Option Group) : Core :=
  { k with groups := Tab.set (fun _ => none) k.groups tag.toNat g }

/-- The RECEIPTs that closing sends: one per data receive endpoint, one per core of each tally queue's rectangle (R138). -/
def Core.closeReceipts (k : Core) (c : CoreId) (reason : Nat) : List Packet :=
  (List.range 32).filterMap (fun n =>
    if k.isRecv n && k.get (CORE_EP_tally n) == 0 && k.get (CORE_EP_closed n) == 0 then
      some (k.receipt c (k.get (CORE_EP_peer_x n)) (k.get (CORE_EP_peer_y n)) (k.get (CORE_EP_peer_ep n))
        (k.get (CORE_EP_rx_index n)) (k.get (CORE_EP_gen n)) reason false)
    else none)
  ++ (List.range 8).flatMap (fun q =>
    if k.get (CORE_TQ_valid q) = 1 then
      (k.rectangle q).map (fun p => k.receipt c p.1 p.2 q 0 (k.get (CORE_TQ_gen q)) reason true)
    else [])

/-- Every receive endpoint closes: held messages are discarded (R138). -/
def Core.closeEps (k : Core) : Core :=
  (List.range 32).foldl (fun k n => if k.isRecv n then (k.put (CORE_EP_held n) 0).put (CORE_EP_closed n) 1 else k) k

/-- A core closes its endpoints for a reason of R138: 4 when it halts, 2 otherwise.  A release that runs or is pending goes on under
TALLY_RELEASE and TALLY_RELEASE_END. -/
def Dev.closeCore (d : Dev) (c : CoreId) (k : Core) (reason : Nat) : Dev :=
  (k.closeReceipts c reason).foldl Dev.send (d.setCore c k.closeEps)

/-- The accumulator blocks that a TMM writes in its loop order: the held one where (m, n) changes, and the last (R178). -/
def heldBlocks : List (Nat × Nat × Nat) → List (Nat × Nat × Nat)
  | [] => []
  | [b] => [b]
  | a :: b :: r => if a.1 = b.1 ∧ a.2.1 = b.2.1 then heldBlocks (b :: r) else a :: heldBlocks (b :: r)

/-- The pieces of 64-byte rows that the write of columns `c` to `c'` of tensor row `i` takes, as (row, first byte, end, k blocks summed): a
write that reaches the last column takes the zero bits after it (R73). -/
def rowPieces (dD : Desc) (i c c' blocks : Nat) : List (Nat × Nat × Nat × Nat) :=
  let w := dD.format.width
  let lo := c * w / 8
  let hi := if c' = dD.cols then dD.span * 64 else cdiv (c' * w) 8
  (List.range (cdiv hi 64 - lo / 64)).map (fun j => (i, max lo ((lo / 64 + j) * 64), min hi ((lo / 64 + j + 1) * 64), blocks))

/-- The row writes of a TMM in the order of their ck (R178, R190, R473). -/
def TensorOp.rowWrites (o : TensorOp) : List (Nat × Nat × Nat × Nat) :=
  let dD := Desc.ofBits o.dD
  let (rows, cols) := o.written
  if o.kBlocks = 0 then (List.range rows).flatMap (fun i => if cols = 0 then [] else rowPieces dD i 0 cols 0)
  else (heldBlocks o.blockList).flatMap (fun b =>
    (List.range (min 32 (rows - 32 * b.1))).flatMap (fun r =>
      if 32 * b.2.1 < cols then rowPieces dD (32 * b.1 + r) (32 * b.2.1) (min (32 * b.2.1 + 32) cols) (b.2.2 + 1) else []))

/-- One row write of a TMM: the bytes that the TMM gives them after that many k blocks, with the scale byte of an MX block (R77, R85). -/
def Core.rowWrite (src k : Core) (o : TensorOp) (w : Nat × Nat × Nat × Nat) : Core :=
  let (i, lo, hi, blocks) := w
  let dD := Desc.ofBits o.dD
  let p := src.tmmPoisoned o
  let full := src.tmmWriteTo o o.written.1 blocks
  let a := dD.base + i * dD.stride * 64
  let k1 := k.store (a + lo) (hi - lo) (Memory.readN full.mem (a + lo) (hi - lo)) p
  if dD.format.mx then
    let s := dD.scaleBase + i * dD.blocks + lo * 8 / dD.format.width / 32
    let total := dD.rows * dD.blocks
    let k2 := k1.store s 1 (Memory.readN full.mem s 1) p
    if s < dD.scaleBase + (dD.scaleRows dD.rows - 1) * 64 ∨ total % 64 = 0 then k2
    else k2.store (dD.scaleBase + total) (64 - total % 64) 0 false
  else k1

/-- The first rows of `order` hold what they hold in `full`, with its marks. -/
def Core.takeRows (full k : Core) (order : List Nat) : Core :=
  order.foldl (fun k a => k.store a 64 (Memory.readN full.mem a 64) (full.rowPoisoned a)) k

/-- A tier outside the mask takes none of `n` rows and counts them (R120). -/
def Core.countOff (k : Core) (dD : Desc) (n : Nat) : Core := if k.addrOff dD.base then k.bump CORE_MEM_STAT_offmask_wr n else k

/-- The operation at the head of a unit stops at a row boundary: a free number of its row writes has ended, in the order of R472 and R473; row
adds are the scatter path's (R380). -/
def Core.cutOp (k : Core) (o : TensorOp) (n : Nat) : Core :=
  match o.kind with
  | .tmm => (o.rowWrites.take (n % (o.rowWrites.length + 1))).foldl (fun k' w => Core.rowWrite k k' o w) k
  | .tcvt =>
    let order := (Desc.ofBits o.dD).rowAddrs o.rowsD
    let m := n % (order.length + 1)
    (Core.takeRows (k.tcvtWrite o o.rowsD) k (order.take m)).countOff (Desc.ofBits o.dD) m
  | .tscat => k

/-- The VOP in the vector unit stops likewise (R380). -/
def Core.cutVop (k : Core) (o : VopOp) (n : Nat) : Core :=
  let order := (Desc.ofBits o.dD).rowAddrs o.rowsD
  let m := n % (order.length + 1)
  (Core.takeRows (k.vopWrite o o.rowsD) k (order.take m)).countOff (Desc.ofBits o.dD) m

/-- The row adds in service in the banks end; the queued ones are dropped (R380). -/
def Core.cutScatter (k : Core) : Core :=
  let k' := k.scat.busy.foldl (fun k p => match p.2 with
    | some b => (match b.add.target with
      | some r => k.store (0x80000 + r * 64) 64 (addRow b.old b.add.addend).toNat
          (b.add.poison || k.rowPoisoned (0x80000 + r * 64))
      | none => k)
    | none => k) k
  { k' with scat := Scatter.idle }

/-- A group whose SEND is cut is completed with zero rows that carry poison, one for each row to come, the last with last = 1 (R380). -/
def Core.cutSend (k : Core) : Core :=
  match k.send with
  | none => k
  | some r =>
    let n := r.rest.length
    let rows := (List.range n).map (fun i =>
      (⟨r.ep, ⟨0, false, i + 1 == n, true, BitVec.ofNat 8 (k.get (CORE_EP_tag r.ep))⟩⟩ : InjRow))
    { k with send := none, inj := k.inj ++ rows }

/-- Whether a core counts among the running cores of its step (R253). -/
def Core.counts (k : Core) : Bool := k.image.present && (k.run == .run || k.run == .faulted)

/-- WARD_STEP_GATE.running counts down when a core that counts has retired HALT or is stopped (R251, R380). -/
def Dev.leaveRunning (d : Dev) (k : Core) : Dev :=
  if k.counts ∧ k.job = d.gateJob then d.put WARD_STEP_GATE_running (d.get WARD_STEP_GATE_running - 1) else d

/-- The requests of a core on its arcade's check engine are abandoned (R380). -/
def Dev.abandonChecks (d : Dev) (c : CoreId) : Dev :=
  let n := arcadeOf c.x.toNat c.y.toNat
  let a := Tab.get (fun _ => Arcade.reset) d.arcades n
  let head := match a.queue with | r :: _ => r.core == c.key | [] => false
  { d with arcades := Tab.set (fun _ => Arcade.reset) d.arcades n
                        { a with queue := a.queue.filter (fun r => r.core != c.key), recomputed := a.recomputed && !head } }

/-- A core is stopped: state RESET, no further issue, units cut at a row boundary, endpoints closed, started groups completed
(R380).  Running counts of the window are discarded (R203). -/
def Dev.stopCore (d : Dev) (c : CoreId) : Dev :=
  let k := d.core c
  let (n1, d1) := d.free
  let (n2, d2) := d1.free
  let (n3, d3) := d2.free
  let k1 := match k.tmm.dropWhile (fun o => o.done) with | o :: _ => k.cutOp o n1 | [] => k
  let k2 := match k.mov with | o :: _ => k1.cutOp o n2 | [] => k1
  let k3 := match k.vop with | some o => k2.cutVop o n3 | none => k2
  let k4 := (k3.cutScatter).cutSend
  let k5 := { k4 with run := .reset, wait := none, stores := [], tmm := [], mov := [], vop := none, fflags := k.fflags,
                      tmmFree := 0, movFree := 0, lastUnit := (0, 0), errand := [],
                      ended := if k.run = .run ∨ k.run = .faulted then d.ck else k.ended,
                      acct := { Acct.zero with window := k.acct.window, outside := k.acct.outside } }
  ((d3.leaveRunning k).abandonChecks c).closeCore c k5 2

end Sys2Proof.Machine
end

