-- ==== Sys2Proof/Machine/Flows.lean ====
section
/-! DEFINITION. The optical lanes of the edge routers, the transmit side of the link logic, the credits of flows and how a flow becomes
gone, and the cores that a remap moves (R12, R256, R259 to R262, R284, R287 to R293, R394, R397, R398, R400). -/

namespace Sys2Proof.Machine

/-! Lanes and routers (R12, R397, R398). -/

/-- Whether a port is enabled (R398). -/
def Dev.portOn (d : Dev) (p : Nat) : Bool := decide (p < 96) && bit (d.get FUSE_PORT_EN_en) p

/-- Whether die-local row `r` of a die is kept in the running map. -/
def Dev.kept (d : Dev) (die r : Nat) : Bool := d.get (MESH_ROWMAP_retired (die * 48 + r)) == 0

/-- The kept rows of a die, as die-local rows from the north. -/
def Dev.keptRows (d : Dev) (die : Nat) : List Nat := (List.range 48).filter (d.kept die)

/-- The record number of a logical core's row, and its die-local column (R394). -/
def Dev.physOf (d : Dev) (c : CoreId) : Nat × Nat :=
  let half := d.rows / 2
  let die := d.dieOf c.x.toNat c.y.toNat
  let n := die * 48 + ((d.keptRows die)[c.y.toNat % half]?).getD 0
  (n, (((List.range 50).filter (fun i => !(bit (d.get (MESH_ROWMAP_hidden n)) i)))[c.x.toNat % 48]?).getD 0)

/-- The logical cores whose position moves: those of the row between two columns. -/
def Dev.movers (d : Dev) (c : CoreId) (bad spare : Nat) : List CoreId :=
  ((List.range 48).map (fun i => (⟨BitVec.ofNat 8 (c.x.toNat / 48 * 48 + i), c.y⟩ : CoreId))).filter (fun x =>
    let p := (d.physOf x).2
    decide (min bad spare ≤ p) && decide (p ≤ max bad spare))

/-- Whether a remap under way moves a core (R400, R401). -/
def Dev.moving (d : Dev) (c : CoreId) : Bool := d.remaps.any (fun r => (d.movers r.core r.bad r.spare).contains c)

/-- The kept row that row `a + j` of the retired arcade row `a` joins (R397). -/
def joinRow (a j : Nat) : Nat :=
  if a = 0 then 4 + j
  else if a = 44 then 43 - j
  else if j = 0 then a - 1 else if j = 1 then a - 2 else a + j + 2

/-- The first row of a die's retired arcade row; joined lanes occur only on EFZ-S960-88. -/
def Dev.retiredAt (d : Dev) (die : Nat) : Option Nat :=
  if d.rows = 88 then (List.range 48).find? (fun r => !(d.kept die r)) else none

/-- The port and lane of physical row `py` of an edge. -/
def laneOf (east : Bool) (py : Nat) : Nat × Nat := ((if east then 48 else 0) + py / 2, py % 2)

/-- The die of an optical edge that holds a physical row. -/
def edgeDie (east : Bool) (py : Nat) : Nat := py / 48 * 2 + east.toNat

/-- The port and lane of a logical edge router's own lane. -/
def Dev.ownLane (d : Dev) (r : CoreId) : Option (Nat × Nat) :=
  let y := r.y.toNat
  let half := d.rows / 2
  let low := decide (half ≤ y)
  let east := r.x.toNat == 95
  if r.x.toNat ≠ 0 ∧ east = false then none
  else ((d.keptRows (low.toNat * 2 + east.toNat))[y - low.toNat * half]?).map (fun q => laneOf east (low.toNat * 48 + q))

/-- The port and lane of a logical edge router's joined lane. -/
def Dev.joinedLane (d : Dev) (r : CoreId) : Option (Nat × Nat) :=
  let east := r.x.toNat == 95
  match d.ownLane r with
  | none => none
  | some (p, l) =>
    let py := (p % 48) * 2 + l
    match d.retiredAt (edgeDie east py) with
    | none => none
    | some a => ((List.range 4).find? (fun j => joinRow a j == py % 48)).map (fun j => laneOf east (py / 48 * 48 + a + j))

/-- The logical edge router that a lane of a port ends at. -/
def Dev.laneRouter (d : Dev) (p l : Nat) : Option CoreId :=
  let east := decide (48 ≤ p)
  let py := (p % 48) * 2 + l
  let die := edgeDie east py
  let row := fun (q : Nat) => some (⟨if east then 95 else 0,
    BitVec.ofNat 8 (py / 48 * (d.rows / 2) + ((List.range q).filter (d.kept die)).length)⟩ : CoreId)
  if d.kept die (py % 48) then row (py % 48)
  else match d.retiredAt die with
    | some a => row (joinRow a (py % 48 - a))
    | none => none

/-- The lane a flow's messages take on the mesh: the port's first edge router for flows 0 to 31, its second for the others (R259). -/
def flowLane (f : Nat) : Nat := f / 32

/-- The router of a flow; a lane that ends nowhere gives (0, 0) or (95, 0) with no effect on any row. -/
def Dev.flowRouter (d : Dev) (p f : Nat) : CoreId := (d.laneRouter p (flowLane f)).getD ⟨if 48 ≤ p then 95 else 0, 0⟩

/-! Ports and symbols (R289). -/

def Dev.port (d : Dev) (p : Nat) : Port := Tab.get (fun _ => Port.reset) d.ports p
def Dev.setPort (d : Dev) (p : Nat) (x : Port) : Dev := { d with ports := Tab.set (fun _ => Port.reset) d.ports p x }
def Dev.updPort (d : Dev) (p : Nat) (f : Port → Port) : Dev := d.setPort p (f (d.port p))
def Dev.relay (d : Dev) (p : Nat) : Relay := Tab.get (fun _ => Relay.reset) d.relays p
def Dev.setRelay (d : Dev) (p : Nat) (r : Relay) : Dev := { d with relays := Tab.set (fun _ => Relay.reset) d.relays p r }

/-- LINK_STATE.state, and the two states in which a port carries lanes (R297). -/
def Dev.linkState (d : Dev) (p : Nat) : Nat := d.get (LINK_STATE_state p)
def Dev.carries (d : Dev) (p : Nat) : Bool := d.linkState p == 5 || d.linkState p == 6

/-- A control symbol leaves a port. -/
def Dev.symbol (d : Dev) (p type payload : Nat) : Dev := d.emit (.symbol p type (BitVec.ofNat 40 payload))

/-- A control symbol that leaves only in UP or FENCED. -/
def Dev.symbolUp (d : Dev) (p type payload : Nat) : Dev := if d.carries p then d.symbol p type payload else d

/-! The transmitter (R284, R286 to R288, R291 to R293). -/

/-- The reserved credits of a lane, and the shared pool at index 4 (R292). -/
def poolSize (i : Nat) : Nat := if i = 2 then 256 else if i = 4 then 6400 else 512

/-- Credits held; an unlisted pool holds all of them. -/
def Port.credit (x : Port) (i : Nat) : Nat := Tab.get poolSize x.credits i
def Port.setCredit (x : Port) (i n : Nat) : Port := { x with credits := Tab.set poolSize x.credits i n }

/-- The messages that wait on a virtual lane. -/
def Port.txOf (x : Port) (vl : Nat) : List TxMsg := Tab.get (fun _ => []) x.tx vl
def Port.setTx (x : Port) (vl : Nat) (l : List TxMsg) : Port := { x with tx := Tab.set (fun _ => []) x.tx vl l }

/-- The pool a new flit of a lane takes its credit from: the lane's own, else the shared one, which VL2 never takes. -/
def Port.poolFor (x : Port) (vl : Nat) : Option Nat :=
  if x.credit vl ≠ 0 then some vl else if vl ≠ 2 ∧ x.credit 4 ≠ 0 then some 4 else none

/-- Whether a lane is eligible for a new flit: bytes to send and a credit; a FENCED port sends only VL2 and VL3 (R293, R297). -/
def Port.eligible (x : Port) (fenced : Bool) (vl : Nat) : Bool :=
  !(x.txOf vl).isEmpty && (x.poolFor vl).isSome && !(fenced && decide (vl < 2))

/-- The lane of the next new flit: VL2 first, then round robin among VL0, VL1 and VL3 (R293). -/
def Port.nextLane (x : Port) (fenced : Bool) : Option Nat :=
  if x.eligible fenced 2 then some 2
  else ((List.range 3).map (fun i => [0, 1, 3].getD ((x.turn + i) % 3) 0)).find? (x.eligible fenced)

/-- The 256 bytes of a flit: sequence, lane and pool, 250 bytes of the lane, CRC (R284).  A message that ends within a flit is followed
by fill (R287). -/
def flitOf (seq vl : Nat) (pool : Bool) (bs : List Byte) : BitVec 2048 :=
  let fill := if bs.length < 250 then [(0xFF : Byte)] ++ List.replicate (249 - bs.length) 0 else []
  let body := toBytes 2 (seq + vl * 2 ^ 13 + pool.toNat * 2 ^ 15) ++ bs ++ fill
  BitVec.ofNat 2048 (ofBytes (body ++ toBytes 4 (crc32c body)))

/-- One new flit leaves a port, if a lane is eligible and the replay buffer has room. -/
def Dev.sendFlit (d : Dev) (p : Nat) : Option Dev :=
  let x := d.port p
  if 6144 ≤ x.replay.length ∨ d.carries p = false then none
  else match x.nextLane (d.linkState p == 6) with
    | none => none
    | some vl =>
      match x.txOf vl, x.poolFor vl with
      | m :: ms, some pool =>
        let left := m.bytes.drop 250
        let fl := flitOf x.seq vl (pool == 4) (m.bytes.take 250)
        let x1 := (x.setCredit pool (x.credit pool - 1)).setTx vl (if left.isEmpty then ms else { m with bytes := left } :: ms)
        let turn := if vl = 2 then x.turn else (([0, 1, 3].findIdx (· == vl)) + 1) % 3
        let x2 := { x1 with seq := (x.seq + 1) % 8192, replay := x.replay ++ [(x.seq, fl)], turn := turn }
        some ((d.setPort p x2).emit (.flit p fl))
      | _, _ => none

/-- New flits leave while one can, at most the `n` given. -/
def Dev.pump (p : Nat) : Nat → Dev → Dev
  | 0, d => d
  | n + 1, d => match d.sendFlit p with
    | some d' => Dev.pump p n d'
    | none => d

/-- Flits that the messages waiting at a port still need. -/
def Port.flitsLeft (x : Port) : Nat :=
  x.tx.foldl (fun n q => q.2.foldl (fun n m => n + cdiv m.bytes.length 250) n) 0

/-- New flits leave while the credits, the lanes and the replay buffer allow. -/
def Dev.flush (d : Dev) (p : Nat) : Dev := Dev.pump p (d.port p).flitsLeft d

/-- The bytes of a message on its lane: the 4-byte link header and its rows (R287, R288). -/
def messageBytes (flow cls : Nat) (poison : Bool) (rows : List RowData) : List Byte :=
  toBytes 1 (flow + cls * 2 ^ 6) ++ toBytes 1 poison.toNat ++ toBytes 2 rows.length
    ++ rows.flatMap (fun r => toBytes 64 r.toNat)

/-- A service message leaves on VL2 or VL3 (R288). -/
def Dev.sendService (d : Dev) (p vl flow : Nat) (rows : List RowData) : Dev :=
  let x := d.port p
  (d.setPort p (x.setTx vl (x.txOf vl ++ [⟨none, messageBytes flow 1 false rows⟩]))).flush p

/-! Credits of flows (R260, R261, R289, R290). -/

/-- The FLOW_CREDIT payload of an ingress flow: the total returned, and whether the egress peer is to be gone. -/
def Dev.flowCreditSymbol (d : Dev) (p f : Nat) : Nat :=
  d.get (LINK_FLOW_rflow p (64 + f)) + (Tab.get (fun _ => false) (d.relay p).peerGone f).toNat * 2 ^ 7 + d.get (LINK_FLOW_gen p (64 + f)) * 2 ^ 8
    + Tab.get (fun _ => 0) (d.relay p).returned f * 2 ^ 16

/-- An ingress flow gets an entry back from its receiver: credits gain 1, or become 1 for a tally target, and the total returned is
sent on (R260, R261). -/
def Dev.flowReturn (d : Dev) (p f : Nat) : Dev :=
  let r := d.relay p
  let n := LINK_FLOW_credits p (64 + f)
  let d1 := d.setRelay p { r with returned := Tab.set (fun _ => 0) r.returned f ((Tab.get (fun _ => 0) r.returned f + 1) % 256) }
  let d2 := d1.put n (if d.get (LINK_FLOW_tally p (64 + f)) = 1 then 1 else sat 8 (d.get n + 1))
  d2.symbolUp p 0x04 (d2.flowCreditSymbol p f)

/-- The egress peer of an ingress flow is told to be gone: a credit return symbol with the gone flag (R261, R289). -/
def Dev.peerGone (d : Dev) (p f : Nat) : Dev :=
  let r := d.relay p
  let d1 := d.setRelay p { r with peerGone := Tab.set (fun _ => false) r.peerGone f true }
  d1.symbolUp p 0x04 (d1.flowCreditSymbol p f)

/-- The pass-through ingress flow that feeds egress flow `f` of port `p`, as (port, flow). -/
def Dev.feeder (d : Dev) (p f : Nat) : Option (Nat × Nat) :=
  (List.range (96 * 64)).findSome? (fun i =>
    let q := i / 64
    let g := 64 + i % 64
    if d.get (LINK_FLOW_valid q g) == 1 && d.get (LINK_FLOW_pass q g) == 1 && d.get (LINK_FLOW_ax q g) == p
        && d.get (LINK_FLOW_aep q g) == f then some (q, i % 64) else none)

/-- A packet of egress flow `f` to its sender, under the sender's job. -/
def Dev.relayPacket (d : Dev) (p f type inl : Nat) : Packet :=
  let r := d.flowRouter p f
  let c : CoreId := ⟨BitVec.ofNat 8 (d.get (LINK_FLOW_ax p f)), BitVec.ofNat 8 (d.get (LINK_FLOW_ay p f))⟩
  (d.core c).packet r type c.x.toNat c.y.toNat 0 0 1 (d.get (LINK_FLOW_aep p f) % 32 + d.get (LINK_FLOW_gen p f) * 2 ^ 8 + inl) []

/-- The sender of an egress flow gets its entry back: a CREDIT packet with rx_index 0, or the feeding relay's credit (R258, R261). -/
def Dev.entryFreed (d : Dev) (p f : Nat) : Dev :=
  match d.feeder p f with
  | some (q, g) => d.flowReturn q g
  | none => d.send (d.relayPacket p f 0x01 0)

/-- A message that a gone egress flow discards is answered with a RECEIPT, reason 2 (R261). -/
def Dev.discardEgress (d : Dev) (p f : Nat) : Dev :=
  match d.feeder p f with
  | some (q, g) => d.peerGone q g
  | none => d.send (d.relayPacket p f 0x02 (2 * 2 ^ 16))

/-- An egress flow becomes gone: its buffered messages are discarded (R261). -/
def Dev.egressGone (d : Dev) (p f : Nat) : Dev :=
  let r := d.relay p
  let n := (Tab.get (fun _ => []) r.queue f).length
  (List.range n).foldl (fun d _ => d.discardEgress p f)
    ((d.put (LINK_FLOW_gone p f) 1).setRelay p { r with queue := Tab.set (fun _ => []) r.queue f [] })

/-- Flow `n` (0 to 63 egress, 64 to 127 ingress) becomes gone if it is configured (R261). -/
def Dev.flowGone (d : Dev) (p n : Nat) : Dev :=
  if d.get (LINK_FLOW_valid p n) = 0 ∨ d.get (LINK_FLOW_gone p n) = 1 then d
  else if n < 64 then d.egressGone p n else d.put (LINK_FLOW_gone p n) 1

/-- The job flows of a port become gone (R261, R298, R301, R305); the roster is looked at when the command ends. -/
def Dev.portGone (d : Dev) (p : Nat) : Dev :=
  let d1 := (List.range 128).foldl (fun d n => d.flowGone p n) d
  { d1 with tasks := d1.tasks ++ [.portLost p] }

end Sys2Proof.Machine
end

