-- ==== Sys2Proof/Machine/HbmMem.lean ====
section
/-! DEFINITION. HBM: addresses and page tables, lines and their marks, and the home side of the coherence directories (R207 to R209,
R351 to R354). -/

namespace Sys2Proof.Machine

/-! Addresses (R209; 11_memory_tiers_porter.md, "Addressing and page tables"). -/

/-- Usable pages of a stack: 22,888, or 17,166 on a 36 GB stack (16_host_network_interfaces.md, R310). -/
def Dev.usablePages (d : Dev) : Nat := d.get FUSE_GRADE_hbm_gb * 22888 / 48

/-- The stack of a physical address. -/
def stackOf (pa : Nat) : Nat := pa / 2 ^ 36

/-- Whether a physical address lies in a usable page. -/
def Dev.usable (d : Dev) (pa : Nat) : Bool :=
  decide (stackOf pa < 8) && decide (pa % 2 ^ 36 / 2 ^ 21 < d.usablePages)

/-- The number of the physical page of an address: stack × 2^15 + page. -/
def pageNo (pa : Nat) : Nat := pa / 2 ^ 21

/-- A page table entry (R209). -/
structure Pte where
  valid : Bool
  pr : Bool
  pw : Bool
  coh : Bool
  page : Nat
  stack : Nat
  job : Nat
deriving DecidableEq, Repr

/-- Reads the fields of a page table entry. -/
def Pte.ofNat (v : Nat) : Pte := ⟨bit v 0, bit v 1, bit v 2, bit v 3, bits v 16 17, bits v 33 3, bits v 48 16⟩

/-- The entry of virtual page `v` of the table at physical address `base`.  A page past the table, and an entry whose line is
poisoned, are not valid (R209). -/
def Dev.pte (d : Dev) (base v : Nat) : Pte :=
  let a := base + v * 8
  let e := Pte.ofNat (Memory.readN d.hbm a 8)
  if 2 ^ 19 ≤ v ∨ Tab.get (fun _ => false) d.hbmPoison (a / 64) = true then { e with valid := false } else e

/-- The physical address of a virtual one under its entry. -/
def Pte.phys (e : Pte) (va : Nat) : Nat := e.stack * 2 ^ 36 + e.page * 2 ^ 21 + va % 2 ^ 21

/-- The physical address of a virtual one under the table at `base`. -/
def Dev.translate (d : Dev) (base va : Nat) : Nat := (d.pte base (va / 2 ^ 21)).phys va

/-- The virtual pages that `n` bytes from `va` touch. -/
def pagesOf (va n : Nat) : List Nat :=
  if n = 0 then [] else (List.range ((va + n - 1) / 2 ^ 21 - va / 2 ^ 21 + 1)).map (fun i => va / 2 ^ 21 + i)

/-! Lines. -/

/-- Whether an HBM line is marked poisoned. -/
def Dev.linePoisoned (d : Dev) (pa : Nat) : Bool := Tab.get (fun _ => false) d.hbmPoison (pa / 64)

/-- A 64-byte line of HBM. -/
def Dev.line (d : Dev) (pa : Nat) : RowData := BitVec.ofNat 512 (Memory.readN d.hbm (pa / 64 * 64) 64)

/-- Writes a whole line with its mark (R428). -/
def Dev.setLine (d : Dev) (pa : Nat) (v : RowData) (poison : Bool) : Dev :=
  { d with hbm := Memory.writeN d.hbm (pa / 64 * 64) 64 v.toNat,
           hbmPoison := Tab.set (fun _ => false) d.hbmPoison (pa / 64) poison }

/-- Writes `n` bytes; the marks of lines written in full clear, those of lines written in part stay (R428). -/
def Dev.writeHbm (d : Dev) (pa n v : Nat) : Dev :=
  let first := cdiv pa 64
  let past := (pa + n) / 64
  { d with hbm := Memory.writeN d.hbm pa n v, hbmPoison := Tab.clear d.hbmPoison first (past - first) }

/-- Writes a list of bytes, as `writeHbm`. -/
def Dev.writeHbmBytes (d : Dev) (pa : Nat) (bs : List Byte) : Dev :=
  let first := cdiv pa 64
  let past := (pa + bs.length) / 64
  { d with hbm := Memory.writeBytes d.hbm pa bs, hbmPoison := Tab.clear d.hbmPoison first (past - first) }

/-- Makes a span of HBM zero, without poison. -/
def Dev.zeroHbm (d : Dev) (pa n : Nat) : Dev :=
  { d with hbm := Memory.zero d.hbm pa n, hbmPoison := Tab.clear d.hbmPoison (pa / 64) (n / 64) }

/-! Virtual accesses. -/

/-- A byte of a job's memory and whether its line is poisoned. -/
def Dev.virtRead (d : Dev) (base va : Nat) : Nat → Nat × Bool
  | 0 => (0, false)
  | n + 1 =>
    let pa := d.translate base va
    let r := Dev.virtRead d base (va + 1) n
    ((Memory.read d.hbm pa).toNat + 256 * r.1, d.linePoisoned pa || r.2)

/-- The bytes of a span and whether any line of it is poisoned, page by page. -/
def Dev.virtBytes (d : Dev) (base va n : Nat) : List Byte × Bool :=
  (pagesOf va n).foldl (fun r v =>
    let lo := max va (v * 2 ^ 21)
    let hi := min (va + n) ((v + 1) * 2 ^ 21)
    let pa := d.translate base lo
    (r.1 ++ Memory.bytes d.hbm pa (hi - lo),
     r.2 || (List.range (cdiv (pa % 64 + (hi - lo)) 64)).any (fun i => d.linePoisoned (pa + 64 * i)))) ([], false)

/-- Writes bytes to a job's memory, page by page. -/
def Dev.virtWrite (d : Dev) (base va : Nat) (bs : List Byte) : Dev :=
  (pagesOf va bs.length).foldl (fun d v =>
    let lo := max va (v * 2 ^ 21)
    let hi := min (va + bs.length) ((v + 1) * 2 ^ 21)
    d.writeHbmBytes (d.translate base lo) ((bs.drop (lo - va)).take (hi - lo))) d

/-- Marks the lines of a span poisoned (R430). -/
def Dev.virtMark (d : Dev) (base va n : Nat) : Dev :=
  (List.range (cdiv (va % 64 + n) 64)).foldl (fun d i =>
    { d with hbmPoison := Tab.set (fun _ => false) d.hbmPoison (d.translate base (va + 64 * i) / 64) true }) d

/-! Directories (R352, R353). -/

/-- The directory entry of a line. -/
def Dev.dirEntry (d : Dev) (line : Nat) : Option DirEntry := Tab.get (fun _ => none) d.coh.dir line
def Dev.setDir (d : Dev) (line : Nat) (e : Option DirEntry) : Dev :=
  { d with coh := { d.coh with dir := Tab.set (fun _ => none) d.coh.dir line e } }

/-- The complexes that hold a line. -/
def Dev.holders (d : Dev) (line : Nat) : List Nat :=
  match d.dirEntry line with
  | none => []
  | some e => match e.owner with
    | some o => [o]
    | none => e.sharers

/-- Whether home still waits for a snoop of a line: sent, or answered and not arrived, and not settled by an eviction (R354). -/
def Dev.snooping (d : Dev) (line : Nat) : Bool :=
  d.coh.snoops.any (fun s => s.line == line && !d.coh.stale.contains s)
    || d.coh.replies.any (fun r => r.snoop.line == line && !d.coh.stale.contains r.snoop)

/-- Home sends a snoop unless one to that complex for the line is under way. -/
def Dev.sendSnoop (d : Dev) (s : Snoop) : Dev :=
  if d.coh.snoops.any (fun x => x.line == s.line && x.cpx == s.cpx)
      || d.coh.replies.any (fun r => r.snoop.line == s.line && r.snoop.cpx == s.cpx) then d
  else { d with coh := { d.coh with snoops := d.coh.snoops ++ [s] } }

/-- Whether a read at home may be served now: no owner, and no snoop under way. -/
def Dev.readable (d : Dev) (line : Nat) : Bool :=
  !(d.snooping line) && ((d.dirEntry line).bind (fun e => e.owner)).isNone

/-- Whether a write at home may be served now: no holder, and no snoop under way. -/
def Dev.writable (d : Dev) (line : Nat) : Bool := !(d.snooping line) && (d.holders line).isEmpty

/-- Home snoops the owner of a line for a read (R353). -/
def Dev.snoopRead (d : Dev) (line : Nat) : Dev :=
  match (d.dirEntry line).bind (fun e => e.owner) with
  | some o => d.sendSnoop ⟨line, o, false⟩
  | none => d

/-- Home snoops every holder of a line for a write (R353). -/
def Dev.snoopWrite (d : Dev) (line : Nat) : Dev := (d.holders line).foldl (fun d c => d.sendSnoop ⟨line, c, true⟩) d

/-- The line numbers of `n` lines from a physical address. -/
def linesOf (pa n : Nat) : List Nat := (List.range n).map (fun i => pa / 64 + i)

/-! Accesses through the HBM window (R311, R353). -/

/-- The lines of an access. -/
def WinAccess.lines (a : WinAccess) : List Nat := linesOf a.pa (cdiv (a.pa % 64 + a.size) 64)

/-- An access completes: a read answers, with EP when a line is poisoned; a write with EP marks its lines. -/
def Dev.winDone (d : Dev) (a : WinAccess) : Dev :=
  match a.write with
  | none => d.emit (.completion (some (Memory.readN d.hbm a.pa a.size)) (a.lines.any (fun l => d.linePoisoned (l * 64))))
  | some (bs, ep) =>
    let d1 := d.writeHbmBytes a.pa bs
    if ep then { d1 with hbmPoison := a.lines.foldl (fun t l => Tab.set (fun _ => false) t l true) d1.hbmPoison } else d1

/-- Whether the directory lets an access go on. -/
def Dev.winReady (d : Dev) (a : WinAccess) : Bool :=
  a.lines.all (fun l => if a.write.isSome then d.writable l else d.readable l)

/-- The snoops that an access asks for. -/
def Dev.winSnoop (d : Dev) (a : WinAccess) : Dev :=
  a.lines.foldl (fun d l => if a.write.isSome then d.snoopWrite l else d.snoopRead l) d

/-- The accesses that wait go on in order, up to the first that the directory holds; that one sends its snoops. -/
def Dev.serveWindow (d : Dev) : List WinAccess → Dev
  | [] => { d with windowed := [] }
  | a :: as =>
    if d.winReady a then Dev.serveWindow (d.winDone a) as else { d.winSnoop a with windowed := a :: as }

end Sys2Proof.Machine
end

