-- ==== Sys2Proof/Machine/Warden.lean ====
section
/-! DEFINITION. Naeno's own operations: the job table, replies (R333, R346), verdicts and lost steps (R239, R367, R435), and the stop phase
of a kill (R339, R386). -/

namespace Sys2Proof.Machine

/-! Jobs. -/

/-- The job with an ID (R330). -/
def Dev.job (d : Dev) (id : BitVec 16) : Option Job := Tab.get (fun _ => none) d.jobs id.toNat
def Dev.setJob (d : Dev) (id : BitVec 16) (j : Option Job) : Dev := { d with jobs := Tab.set (fun _ => none) d.jobs id.toNat j }

/-- Changes a job that exists. -/
def Dev.updJob (d : Dev) (id : BitVec 16) (f : Job → Job) : Dev :=
  match d.job id with
  | some j => d.setJob id (some (f j))
  | none => d

/-- The IDs of the jobs that exist. -/
def Dev.jobIds (d : Dev) : List (BitVec 16) := (d.jobs.filter (fun p => p.2.isSome)).map (fun p => BitVec.ofNat 16 p.1)

/-- Every logical core of the grade. -/
def Dev.allCores (d : Dev) : List CoreId :=
  (List.range d.rows).flatMap (fun y => (List.range 96).map (fun x => ⟨BitVec.ofNat 8 x, BitVec.ofNat 8 y⟩))

/-- The cores of a job, in (y, x) order. -/
def Dev.jobCores (d : Dev) (id : BitVec 16) : List CoreId :=
  d.allCores.filter (fun c => (d.core c).image.present && (d.core c).job == id)

/-- Whether a job is being torn down or held (R386). -/
def Dev.ending (d : Dev) (id : BitVec 16) : Bool :=
  match d.job id with
  | some j => j.phase != .live
  | none => false

/-- A choice that the spec leaves to Naeno, made by a free value (log 1). -/
def Dev.choose {α : Type} (d : Dev) (l : List α) : Option α × Dev :=
  let (v, d1) := d.free
  (l[v % l.length]?, d1)

/-- The load set of a job that runs. -/
def Job.set (j : Job) : Option LoadSet :=
  j.image.bind (fun i => i.sets.find? (fun s => s.variant.toNat == j.variant && s.plan.toNat == j.plan))

/-- The flows of the load set that runs, as (port, flow). -/
def Job.flows (j : Job) : List (Nat × Nat) :=
  match j.set with
  | some s => s.flows.map (fun f => (f.port.toNat, f.flow.toNat))
  | none => []

/-! Idle ck (R201). -/

/-- The idle cause of a job's cores that do not run: RESYNC, CHECKPOINT, LINK_RETRAIN while a job link retrains, else BARRIER. -/
def Dev.idleCause (d : Dev) (j : Job) : Nat :=
  if j.pause || (d.get WARD_ROSTER_absent_valid == 1 && d.get WARD_ROSTER_absent == d.get WARD_ROSTER_pos && d.get WARD_ROSTER_n != 0) then 7
  else if j.shut then 6
  else if j.flows.any (fun f => d.linkState f.1 == 7) then 8
  else 4

/-- The idle ck of a job's cores that do not run are counted up to now, under the cause that holds. -/
def Dev.chargeIdle (d : Dev) (id : BitVec 16) : Dev :=
  match d.job id with
  | none => d
  | some j =>
    let cause := d.idleCause j
    (d.jobCores id).foldl (fun d c => d.upd c (fun k =>
      if k.run = .run ∨ k.run = .faulted then k
      else { k with acct := { k.acct with outside := tabAdd k.acct.outside cause (d.ck - k.ended) }, ended := d.ck })) d

/-- The step gate opens again for a job whose checkpoint has ended (R364). -/
def Dev.openGate (d : Dev) (id : BitVec 16) : Dev := (d.chargeIdle id).updJob id (fun j => { j with shut := false })

/-! Device pages (R310). -/

/-- The physical address of a device page. -/
def Dev.pageAddr (d : Dev) (n : Nat) : Nat := n / d.usablePages * 2 ^ 36 + n % d.usablePages * 2 ^ 21

/-- The device page of a physical address. -/
def Dev.pageOf (d : Dev) (pa : Nat) : Nat := stackOf pa * d.usablePages + pa % 2 ^ 36 / 2 ^ 21

/-! Replies (R313, R327, R333, R346). -/

/-- The endpoint sends the MSI-X vector of a queue that a function owns, while the link is up: beyond the function's table it sends nothing and counts, a masked vector sets its
pending bit (R313). -/
def Dev.sendMsix (d : Dev) (q : Nat) : Dev :=
  let f := d.get (PCIE_QMAP_func q)
  let v := d.get (PCIE_QMAP_vector q)
  if d.pcie.up = false ∨ d.get (PCIE_QMAP_valid q) = 0 then d
  else if (if f = 0 then 64 else 8) ≤ v then d.bump PCIE_ERR_db_bad 1
  else if Tab.get (fun _ => false) d.msixMask (f * 64 + v) = true then
    { d with msixPba := Tab.set (fun _ => false) d.msixPba (f * 64 + v) true }
  else d.emit (.msix f v)

/-- Writes bytes into a queue's memory: host memory through its function while the link is up, or HBM (R327). -/
def Dev.queueWrite (d : Dev) (q addr n v : Nat) : Dev :=
  if d.get (WARD_Q_loc q) = 0 then if d.pcie.up = false then d else d.emit (.hostWrite (d.get (WARD_Q_func q)) (addr % 2 ^ 64) n v) else d.writeHbm addr n v

/-- The status block of a ring queue: head and reply index (R327). -/
def Dev.writeStatusBlock (d : Dev) (q : Nat) : Dev :=
  let size := if d.get (WARD_Q_a2 q) = 1 then 16 else 32
  d.queueWrite q (d.get (WARD_Q_rbase q) + 2 ^ d.get (WARD_Q_log2n q) * size) 16
    (d.get (WARD_Q_head q) + d.get (WARD_Q_rindex q) * 2 ^ 16)

/-- The 32 bytes of a reply (R333). -/
def replyBytes (tag status detail result : Nat) : Nat :=
  tag % 2 ^ 16 + status % 2 ^ 16 * 2 ^ 16 + detail % 2 ^ 32 * 2 ^ 32 + (if status = 0 then result % 2 ^ 192 else 0) * 2 ^ 64

/-- The 16 bytes of an A2 reply (R346). -/
def replyA2 (v : Nat) : Nat := bits v 0 16 + bits v 16 8 * 2 ^ 16 + bits v 32 32 * 2 ^ 32 + bits v 64 64 * 2 ^ 64

/-- A reply goes out to the queue of a command (R321, R327, R333, R346). -/
def Dev.writeReply (d : Dev) (q v : Nat) : Dev :=
  match d.get (WARD_Q_loc q) with
  | 2 => d.sendService (d.get (WARD_Q_port q)) 2 1 [BitVec.ofNat 512 v]
  | 3 => { d with i3c := { d.i3c with reply := BitVec.ofNat 256 v, busy := false, finished := true } }
  | loc =>
    let a2 := d.get (WARD_Q_a2 q) == 1
    let ri := d.get (WARD_Q_rindex q)
    let d1 := d.queueWrite q (d.get (WARD_Q_rbase q) + ri * (if a2 then 16 else 32)) (if a2 then 16 else 32)
      (if a2 then replyA2 v else v)
    let d2 := (d1.put (WARD_Q_rindex q) ((ri + 1) % 2 ^ d.get (WARD_Q_log2n q))).writeStatusBlock q
    if loc = 0 then d2.sendMsix q else d2

/-- Bytes `i` to `i + n - 1` of a command. -/
def Cmd.at (c : Cmd) (i n : Nat) : Nat := bits c.raw.toNat (8 * i) (8 * n)
def Cmd.opcode (c : Cmd) : Nat := c.at 0 2
def Cmd.flag (c : Cmd) (i : Nat) : Bool := bit (c.at 2 1) i
def Cmd.plen (c : Cmd) : Nat := c.at 3 1
def Cmd.tag (c : Cmd) : Nat := c.at 4 2
def Cmd.job (c : Cmd) : BitVec 16 := BitVec.ofNat 16 (c.at 6 2)
def Cmd.jgen (c : Cmd) : BitVec 8 := BitVec.ofNat 8 (c.at 8 1)
def Cmd.timeout (c : Cmd) : Nat := c.at 12 4

/-- The parameter of `n` bytes at parameter offset `i`. -/
def Cmd.par (c : Cmd) (i n : Nat) : Nat := c.at (16 + i) n

/-- The fetched command with a number. -/
def Dev.cmd (d : Dev) (n : Nat) : Option Cmd := d.cmds.find? (fun c => c.n == n)

/-- Sets how far a command has come. -/
def Dev.setPhase (d : Dev) (n : Nat) (p : CmdPhase) : Dev :=
  { d with cmds := d.cmds.map (fun c => if c.n = n then { c with phase := p } else c) }

/-- Whether Naeno has begun the work of a command, itself or through a Broker. -/
def Cmd.worked (c : Cmd) : Bool := match c.phase with | .started => true | .delegated _ => true | _ => false

/-- A fetched command gets its one reply now and is pending no longer (R329, R333); with the reply to a CKPT_EXPORT that has been
worked on the gate is open (R364). -/
def Dev.replyNow (d : Dev) (c : Cmd) (status detail result : Nat) : Dev :=
  let q := c.queue.toNat
  let d1 := { d with cmds := d.cmds.filter (fun x => x.n != c.n), waiters := d.waiters.filter (· != c.n) }
  let d2 := (d1.put (WARD_Q_pending q) (d1.get (WARD_Q_pending q) - 1)).put WARD_LOAD_pending (d1.get WARD_LOAD_pending - 1)
  let d3 := if status = 1 then d2.bump WARD_LOAD_busy_replies 1 else d2
  let d4 := d3.writeReply q (replyBytes c.tag status detail result)
  if c.opcode = 0x0601 ∧ c.worked = true then d4.openGate c.job else d4

/-- Whether a job's kill has begun and its drain has not ended (R386). -/
def Dev.killing (d : Dev) (id : BitVec 16) : Bool := (d.job id).any (fun j => j.phase == .stop || j.phase == .drain)

/-- A command is replied; the reply of one of a job that is killed while it runs follows the kill's drain (R339). -/
def Dev.reply (d : Dev) (c : Cmd) (status detail result : Nat) : Dev :=
  if c.worked ∧ c.opcode ≠ 0x0304 ∧ d.killing c.job then
    d.setPhase c.n (.done (BitVec.ofNat 16 status) (BitVec.ofNat 32 detail) (BitVec.ofNat 192 result))
  else d.replyNow c status detail result

/-- The replies that a kill's drain held up. -/
def Dev.replyDone (d : Dev) (id : BitVec 16) : Dev :=
  d.cmds.foldl (fun d c => match c.phase with
    | .done st de re => if c.job = id then d.replyNow c st.toNat de.toNat re.toNat else d
    | _ => d) d

/-! Verdicts (R239, R367, R435). -/

def Dev.verdict (d : Dev) (i : Nat) : Verdict := Tab.get (fun _ => Verdict.reset) d.verdicts i
def Dev.setVerdict (d : Dev) (i : Nat) (v : Verdict) : Dev :=
  { d with verdicts := Tab.set (fun _ => Verdict.reset) d.verdicts i v }

/-- The verdict field of a slot. -/
def verdictField (i : Nat) : Fld := if i = 0 then CLERK_SKIP_STAT_v0 else CLERK_SKIP_STAT_v1

/-- The slot of step N, opened again with a total of zero when it records another step (R239). -/
def Dev.openSlot (d : Dev) (step : BitVec 32) : Dev :=
  let i := step.toNat % 2
  if (d.verdict i).step = some step then d
  else (d.setVerdict i { Verdict.reset with step := some step }).put (verdictField i) 0

/-- The verdict of a step: 0 while it is not decided, 1 APPLY, 2 SKIP. -/
def Dev.verdictOf (d : Dev) (step : BitVec 32) : Nat :=
  let i := step.toNat % 2
  if (d.verdict i).step = some step then d.get (verdictField i) else 0

/-- A verdict is decided; one that stands is not changed. -/
def Dev.decideVerdict (d : Dev) (step : BitVec 32) (v : Nat) : Dev :=
  let d1 := d.openSlot step
  if d1.verdictOf step = 0 then d1.put (verdictField (step.toNat % 2)) v else d1

/-- The service slot that a job's orchestrator holds (R359). -/
def Dev.orchestrator (d : Dev) (id : BitVec 16) (gen : BitVec 8) : Option Nat :=
  (List.range 16).find? (fun i => (Tab.get (fun _ => Slot.reset) d.slots i).use == some (.orchestrator id gen))

/-- An event goes into a service slot's mailbox (R359). -/
def Dev.slotEvent (d : Dev) (i : Nat) (e : SlotEvent) : Dev :=
  let s := Tab.get (fun _ => Slot.reset) d.slots i
  { d with slots := Tab.set (fun _ => Slot.reset) d.slots i { s with mail := s.mail ++ [e] } }

/-! Orchestrator messages and the combining of non-finite totals (R366, R367). -/

/-- The row of an orchestrator message (R366). -/
def orchRow (type hops src target : Nat) (step : BitVec 32) (job : BitVec 16) (gen : BitVec 8) (absent value : Nat) : RowData :=
  let body := toBytes 1 type ++ toBytes 1 hops ++ toBytes 1 src ++ toBytes 1 target ++ toBytes 4 step.toNat ++ toBytes 2 job.toNat
    ++ toBytes 1 gen.toNat ++ toBytes 1 absent ++ toBytes 8 value ++ List.replicate 40 0
  BitVec.ofNat 512 (ofBytes (body ++ toBytes 4 (crc32c body)))

/-- An orchestrator message leaves a port on VL2 flow 2. -/
def Dev.sendOrch (d : Dev) (p : Nat) (row : RowData) : Dev := d.sendService p 2 2 [row]

/-- A VERDICT goes to the children that a step's totals came from. -/
def Dev.sendVerdict (d : Dev) (id : BitVec 16) (gen : BitVec 8) (step : BitVec 32) (v : Nat) (ports : List Nat) : Dev :=
  ports.foldl (fun d p => d.sendOrch p (orchRow 5 0 (d.get WARD_ROSTER_pos) 0xFF step id gen 0 v)) d

/-- The record of a step's total; a step without one has nothing in it yet. -/
def Job.sum (j : Job) (step : BitVec 32) : NfSum := (j.sums.find? (fun s => s.step == step)).getD ⟨step, 0, [], false⟩
def Job.setSum (j : Job) (s : NfSum) : Job := { j with sums := s :: j.sums.filter (fun x => x.step != s.step) }

/-- The verdict of a step reaches this device: it is issued to Naeno and forwarded to the children (R367). -/
def Dev.verdictArrives (d : Dev) (id : BitVec 16) (gen : BitVec 8) (step : BitVec 32) (v : Nat) : Dev :=
  match d.job id with
  | none => d
  | some j =>
    let d1 := (d.decideVerdict step v).updJob id (fun j => { j with sums := j.sums.filter (fun x => x.step != step) })
    d1.sendVerdict id gen step v (j.sum step).ports

/-- A value joins the total of a step, which saturates; the sum of all children and the device's own goes to the parent, and the root
decides (R367). -/
def Dev.combine (d : Dev) (id : BitVec 16) (step : BitVec 32) (value : Nat) (port : Option Nat) : Dev :=
  match d.job id with
  | none => d
  | some j =>
    let s := j.sum step
    let known := match port with | some p => s.ports.contains p | none => s.own
    if known then d
    else
      let s1 : NfSum := ⟨step, sat 64 (s.total + value), s.ports ++ port.toList, s.own || port.isNone⟩
      let d1 := d.setJob id (some (j.setSum s1))
      match j.image with
      | none => d1
      | some im =>
        if s1.own ∧ im.children ≤ s1.ports.length then
          match im.parent with
          | some p => d1.sendOrch p.toNat (orchRow 4 0 (d.get WARD_ROSTER_pos) 0xFF step id j.gen 0 s1.total)
          | none => d1.verdictArrives id j.gen step (if d.get CLERK_SKIP_threshold < s1.total then 2 else 1)
        else d1

/-- Naeno writes the SCANNED event of a step, once, and the orchestrator combines it (R367, R435). -/
def Dev.scanned (d : Dev) (id : BitVec 16) (gen : BitVec 8) (step : BitVec 32) (total : Nat) : Dev :=
  let i := step.toNat % 2
  let d1 := d.openSlot step
  if (d1.verdict i).reported then d1
  else
    let d2 := d1.setVerdict i { d1.verdict i with reported := true }
    match d2.orchestrator id gen with
    | some n => (d2.slotEvent n (.scanned id gen step (BitVec.ofNat 64 total))).combine id step total none
    | none => d2

/-- Whether a verdict slot already records a later step than N, so that N's part is fixed. -/
def Dev.slotPast (d : Dev) (step : BitVec 32) : Bool :=
  match (d.verdict (step.toNat % 2)).step with
  | some m => m != step && decide ((m - step).toNat < 2 ^ 31)
  | none => false

/-- A STEP_LOST error of step N (R435).  Without step skip, the step is lost for its job, and for every job when the record names
none. -/
def Dev.stepLost (d : Dev) (id : BitVec 16) (step : BitVec 32) : Dev :=
  if d.get CLERK_SKIP_en = 0 then
    if id = 0 then d.jobIds.foldl (fun d i => d.updJob i (fun j => { j with lost := step :: j.lost })) d
    else d.updJob id (fun j => { j with lost := step :: j.lost })
  else if d.slotPast step then d
  else if d.get CLERK_SKIP_ext = 0 then d.decideVerdict step 2
  else
    let ids := if id = 0 then d.jobIds else [id]
    ids.foldl (fun d i => match d.job i with
      | some j => d.scanned i j.gen step (2 ^ 64 - 1)
      | none => d) d

/-! The stop phase of a kill (R339, R386). -/

/-- Whether a span of device pages includes a page of a job. -/
def spanHas (start n : Nat) (pages : List Nat) : Bool := pages.any (fun p => decide (start ≤ p) && decide (p < start + n))

/-- Naeno closes the PCIe windows and the BRK_REGION ranges that include one of the pages. -/
def Dev.closeWindows (d : Dev) (pages : List Nat) : Dev :=
  let d1 := (List.range 16).foldl (fun d f =>
    if spanHas (d.get (PCIE_WIN_start f)) (d.get (PCIE_WIN_pages f)) pages then d.put (PCIE_WIN_pages f) 0 else d) d
  (List.range 64).foldl (fun d i =>
    if spanHas (d.get (BRK_REGION_start (i / 16) (i % 16))) (d.get (BRK_REGION_pages (i / 16) (i % 16))) pages then
      d.put (BRK_REGION_pages (i / 16) (i % 16)) 0 else d) d1

def Dev.clerk (d : Dev) (k : Nat) : Clerk := Tab.get (fun _ => Clerk.reset) d.clerks k

/-- Stores a Clerk; CLERK_STAT.queued and state follow it and its partner (R230, R242). -/
def Dev.setClerk (d : Dev) (k : Nat) (c : Clerk) : Dev :=
  let d1 := ({ d with clerks := Tab.set (fun _ => Clerk.reset) d.clerks k c }).put (CLERK_STAT_queued k) c.queue.length
  let state := fun (d : Dev) (n : Nat) =>
    let own := d.clerk n
    d.put (CLERK_STAT_state n) (if own.failed then 2 else if (d.clerk (n ^^^ 1)).failed then 3
      else if own.queue.isEmpty then 0 else 1)
  state (state d1 k) (k ^^^ 1)

/-- The requests of a job leave a Clerk without a reply; the one in service has stopped at a row boundary (R386). -/
def Dev.dropClerk (d : Dev) (k : Nat) (id : BitVec 16) : Dev :=
  let c := d.clerk k
  let mine := match c.queue with | p :: _ => p.job == id | [] => false
  if c.queue.any (fun p => p.job == id) then
    d.setClerk k { c with queue := c.queue.filter (fun p => p.job != id), run := if mine then none else c.run }
  else d

/-- The flows of a killed job: egress flows discard their buffered messages, the peers of ingress flows become gone (R386). -/
def Dev.stopFlows (d : Dev) (fs : List (Nat × Nat)) : Dev :=
  fs.foldl (fun d f =>
    if f.2 < 64 then
      let r := d.relay f.1
      d.setRelay f.1 { r with part := Tab.set (fun _ => []) r.part f.2 [], queue := Tab.set (fun _ => []) r.queue f.2 [] }
    else d.peerGone f.1 (f.2 - 64)) d

/-- Commands of a job that wait, a pending launch among them, are replied STALE_GEN (R339). -/
def Dev.staleCommands (d : Dev) (id : BitVec 16) (killer : Option Nat) : Dev :=
  (d.cmds.filter (fun c => c.job == id && some c.n != killer
    && (c.phase == .fetched || c.phase == .waiting || c.phase == .launched))).foldl (fun d c => d.reply c 8 0 0) d

/-- The stop phase of a kill.  A job already being torn down is left as it is. -/
def Dev.killJob (d : Dev) (id : BitVec 16) (hold : Bool) (killer : Option Nat) : Dev :=
  match d.job id with
  | none => d
  | some j =>
    if j.phase ≠ .live ∧ j.phase ≠ .stop then d
    else
      let d1 := d.setJob id (some { j with phase := .drain, hold := hold, killer := killer.or j.killer, launch := none })
      let d2 := (d1.staleCommands id killer)
      let d3 := (d2.jobCores id).foldl Dev.stopCore d2
      let d4 := (List.range 16).foldl (fun d k => d.dropClerk k id) (d3.closeWindows j.pages)
      ((((d4.stopFlows j.flows).put WARD_KILL_STAT_job id.toNat).put WARD_KILL_STAT_jgen j.gen.toNat).put
        WARD_KILL_STAT_phase 2).put WARD_STEP_GATE_pending (if d.gateJob = id then 0 else d.get WARD_STEP_GATE_pending)

/-- A job is killed without a hold: one that is held goes on to its scrub, and one that was to be held is not (R385, R431). -/
def Dev.killNow (d : Dev) (id : BitVec 16) : Dev :=
  match d.job id with
  | none => d
  | some j =>
    if j.phase = .held then
      (((d.setJob id (some { j with phase := .sram })).put WARD_KILL_STAT_job id.toNat).put WARD_KILL_STAT_jgen j.gen.toNat).put
        WARD_KILL_STAT_phase 3
    else if j.phase = .drain then d.setJob id (some { j with hold := false })
    else d.killJob id false none

/-- Every job is killed, without a hold (R431). -/
def Dev.killAll (d : Dev) : Dev := d.jobIds.foldl Dev.killNow d

/-! Service slots. -/

/-- BRK_CPX_STAT.slots and BRK_BIND follow the slots (R358, R359). -/
def Dev.showSlots (d : Dev) : Dev :=
  (List.range 4).foldl (fun d c =>
    let slot := fun (s : Nat) => (Tab.get (fun _ => Slot.reset) d.slots (4 * c + s)).use
    let job := fun (s : Nat) => match slot s with
      | some (.loader id gen) => id.toNat + gen.toNat * 2 ^ 16
      | some (.orchestrator id gen) => id.toNat + gen.toNat * 2 ^ 16
      | some (.command n) => ((d.cmd n).map (fun x => x.job.toNat + x.jgen.toNat * 2 ^ 16)).getD 0
      | none => 0
    (d.put (BRK_CPX_STAT_slots c) ((List.range 4).foldl (fun v s => v + (slot s).isSome.toNat * 2 ^ s) 0)).setReg (BRK_BIND_job0 c).key
      ((List.range 4).foldl (fun v s => v + job s * 2 ^ (24 * s)) 0)) d

/-- A slot gets a holder, or none. -/
def Dev.setSlot (d : Dev) (i : Nat) (u : Option SlotUse) : Dev :=
  ({ d with slots := Tab.set (fun _ => Slot.reset) d.slots i { Slot.reset with use := u } }).showSlots

/-- A command that a Broker works on frees its slot when it is replied (R359). -/
def Dev.freeCmdSlot (d : Dev) (c : Cmd) : Dev :=
  match c.phase with
  | .delegated i => d.setSlot i none
  | _ => d

end Sys2Proof.Machine
end

