-- ==== Sys2Proof/Machine/Roster.lean ====
section
/-! DEFINITION. The roster of the data group: late and absent members, the ABSENT notice, and a replica that loses a member (R261, R269,
R271 to R274); the idle ck of cores that do not run (R201). -/

namespace Sys2Proof.Machine

/-- The state of a member: 0 PRESENT, 1 LATE, 2 ABSENT, 3 RESYNC. -/
def Dev.member (d : Dev) (a : Nat) : Nat := Tab.get (fun _ => 0) d.roster a
def Dev.setMember (d : Dev) (a v : Nat) : Dev := { d with roster := Tab.set (fun _ => 0) d.roster a v }

/-- The job whose orchestrator the device runs. -/
def Dev.orchJob (d : Dev) : Option (BitVec 16 × BitVec 8) :=
  (List.range 16).findSome? (fun i => match (Tab.get (fun _ => Slot.reset) d.slots i).use with
    | some (.orchestrator id gen) => some (id, gen)
    | _ => none)

/-- The position at the far end of a data port: the next one in the port's direction (R256, R263). -/
def Dev.memberAt (d : Dev) (p : Nat) : Option Nat :=
  let n := d.get WARD_ROSTER_n
  if n = 0 ∨ d.get (LINK_PORT_CFG_valid p) = 0 ∨ d.get (LINK_PORT_CFG_axis p) ≠ 1 then none
  else some ((d.get WARD_ROSTER_pos + (if d.get (LINK_PORT_CFG_dir p) = 1 then 1 else n - 1)) % n)

/-- The data ports that join a position. -/
def Dev.portsTo (d : Dev) (a : Nat) : List Nat := (List.range 96).filter (fun p => d.memberAt p == some a)

/-- The port through which a notice travels on around the ring: a data port in the plus direction (R366). -/
def Dev.plusPort (d : Dev) : Option Nat :=
  (List.range 96).find? (fun p => (d.memberAt p).isSome && d.get (LINK_PORT_CFG_dir p) == 1)

/-- A message goes on to the next orchestrator. -/
def Dev.onward (d : Dev) (row : RowData) : Dev :=
  match d.plusPort with
  | some p => d.sendOrch p row
  | none => d

/-- A position becomes ABSENT from step E: the smallest E is adopted, its flows become gone, and a second absence while one stands ends the
job (R261, R271 to R273). -/
def Dev.adoptAbsent (d : Dev) (id : BitVec 16) (a : Nat) (e : BitVec 32) : Dev :=
  if d.get WARD_ROSTER_absent_valid = 1 ∧ d.get WARD_ROSTER_absent ≠ a then
    { d with tasks := d.tasks ++ [.killJob id (d.get ERR_CFG_hold == 1)] }
  else
    let e1 := if d.get WARD_ROSTER_absent_valid = 1 then min e.toNat (d.get WARD_ROSTER_eff_step) else e.toNat
    let d1 := (((d.put WARD_ROSTER_absent_valid 1).put WARD_ROSTER_absent a).put WARD_ROSTER_eff_step e1).setMember a 2
    (d1.portsTo a).foldl (fun d p => (List.range 128).foldl (fun d n => d.flowGone p n) d) d1

/-- This device sets a position to ABSENT, from the running step plus 2, and sends the notice (R272). -/
def Dev.declareAbsent (d : Dev) (a : Nat) : Dev :=
  match d.orchJob with
  | none => d
  | some (id, gen) =>
    if d.member a = 2 ∧ d.get WARD_ROSTER_absent_valid = 1 then d
    else
      let e : BitVec 32 := ((d.job id).map (fun j => j.step)).getD 0 + 2
      (d.adoptAbsent id a e).onward (orchRow 1 (d.get WARD_ROSTER_n - 1) (d.get WARD_ROSTER_pos) 0xFF e id gen a 0)

/-- Whether every configured data flow from a position is gone. -/
def Dev.allGone (d : Dev) (a : Nat) : Bool :=
  (d.portsTo a).all (fun p => (List.range 64).all (fun f =>
    d.get (LINK_FLOW_valid p (64 + f)) == 0 || d.get (LINK_FLOW_gone p (64 + f)) == 1))

/-- A port has lost its job flows: a neighbour of the data group all of whose flows are gone is ABSENT; a device whose replica loses a member
makes its data egress flows gone and sends the notice for itself (R271, R272). -/
def Dev.portLost (d : Dev) (p : Nat) : Dev :=
  match d.memberAt p with
  | some a => if d.allGone a then d.declareAbsent a else d
  | none =>
    if d.get WARD_ROSTER_n ≠ 0 ∧ d.get (LINK_PORT_CFG_valid p) = 1 ∧ 2 ≤ d.get (LINK_PORT_CFG_axis p) then
      let d1 := ((List.range 96).filter (fun q => (d.memberAt q).isSome)).foldl (fun d q =>
        (List.range 64).foldl (fun d n => d.flowGone q n) d) d
      d1.declareAbsent (d.get WARD_ROSTER_pos)
    else d

/-- The members whose flows feed a tally queue of a core (R271). -/
def Dev.fedBy (d : Dev) (c : CoreId) (q : Nat) : List Nat :=
  (List.range 96).filterMap (fun p => match d.memberAt p with
    | none => none
    | some a => if (List.range 64).any (fun f =>
        d.get (LINK_FLOW_valid p (64 + f)) == 1 && d.get (LINK_FLOW_tally p (64 + f)) == 1
          && d.get (LINK_FLOW_ax p (64 + f)) == c.x.toNat && d.get (LINK_FLOW_ay p (64 + f)) == c.y.toNat
          && d.get (LINK_FLOW_aep p (64 + f)) == q) then some a else none)

/-- A hop released at its deadline: the members that feed it are LATE (R271). -/
def Dev.hopLate (d : Dev) (c : CoreId) (q : Nat) : Dev :=
  (d.fedBy c q).foldl (fun d a =>
    let d1 := if d.lateNow.contains a then d else { d with lateNow := a :: d.lateNow }
    if d1.member a = 0 then d1.setMember a 1 else d1) d

/-- At a step's receipt: a LATE member all of whose hops released on count is PRESENT, one late in late_limit consecutive steps is ABSENT;
`late` are the members late in the step (R271). -/
def Dev.rosterStep (d : Dev) (lates : List Nat) : Dev :=
  (List.range (d.get WARD_ROSTER_n)).foldl (fun d a =>
    let late := lates.contains a
    let n := if late then Tab.get (fun _ => 0) d.lateRun a + 1 else 0
    let d1 := { d with lateRun := Tab.set (fun _ => 0) d.lateRun a n }
    if d1.member a ≠ 1 then d1
    else if late = false then (if d1.lateNow.contains a then d1 else d1.setMember a 0)
    else if d1.get WARD_ROSTER_late_limit ≤ n then d1.declareAbsent a else d1) d

/-- The roster of a receipt: bit i is 1 when position i is PRESENT or LATE (R276). -/
def Dev.rosterBits (d : Dev) : Nat :=
  (List.range (d.get WARD_ROSTER_n)).foldl (fun v a => if d.member a < 2 then v + 2 ^ a else v) 0

end Sys2Proof.Machine
end

