-- ==== Sys2Proof/Machine/Settle.lean ====
section
/-! DEFINITION. What an error raised by a command makes Naeno do at the command's end (R431, R435), and the frame in which
every command runs. -/

namespace Sys2Proof.Machine

/-- One task of Naeno. -/
def Dev.task (d : Dev) (t : Task) : Dev :=
  match t with
  | .portLost p => d.portLost p
  | .stepLost job step => d.stepLost job step
  | .killJob job hold => (if job = 0 then d.jobIds else [job]).foldl (fun d i => d.killJob i hold none) d
  | .killAll => d.killAll

/-- Naeno does what the events of this command ask for, in the order they came. -/
def Dev.settleOnce (d : Dev) : Dev := d.tasks.foldl Dev.task { d with tasks := [] }

/-- As `settleOnce`, and then what those tasks themselves ask for: an absence, and the kill that a second absence brings. -/
def Dev.settle (d : Dev) : Dev := { d.settleOnce.settleOnce.settleOnce with tasks := [] }

/-! The frame of a command. -/

/-- Runs a change of the device in any condition, and then what it made Naeno do: the queue stays as it is, and no command changes a fuse or
factory calibration (R392). -/
def State.onAlways (s : State) (f : Dev → Dev) : Host.Outcome State Fault Refusal :=
  .next { s with dev := { (f s.dev).settle with fuse := s.dev.fuse } }

/-- Runs a change of the device, which nothing changes while it is stopped. -/
def State.onDev (s : State) (f : Dev → Dev) : Host.Outcome State Fault Refusal :=
  if s.dev.dead then .next s else s.onAlways f

/-- Runs a change of a core that the device must have. -/
def State.onCore (s : State) (c : CoreId) (f : Dev → Dev) : Host.Outcome State Fault Refusal :=
  if s.dev.logical c then s.onDev f else .fault (.noSuchUnit "core" c.key)

end Sys2Proof.Machine
end

