-- ==== Sys2Proof/Machine/Scalar.lean ====
section
/-! DEFINITION. The integer, branch, load, store and descriptor instructions of the core (R38 to R40). -/

namespace Sys2Proof.Machine

/-! Integer instructions (R38). -/

/-- The result of ALU function `func`; none for a reserved code (R38). -/
def aluResult (func : Nat) (a b : BitVec 64) : Option (BitVec 64) :=
  let sh := b.toNat % 64
  if func = 0x000 then some (a + b)
  else if func = 0x001 then some (a - b)
  else if func = 0x002 then some (a &&& b)
  else if func = 0x003 then some (a ||| b)
  else if func = 0x004 then some (a ^^^ b)
  else if func = 0x005 then some (a <<< sh)
  else if func = 0x006 then some (a >>> sh)
  else if func = 0x007 then some (a.sshiftRight sh)
  else if func = 0x008 then some (if a.toInt < b.toInt then 1 else 0)
  else if func = 0x009 then some (if a.toNat < b.toNat then 1 else 0)
  else if func = 0x00A then some (if a.toInt < b.toInt then a else b)
  else if func = 0x00B then some (if a.toInt < b.toInt then b else a)
  else if func = 0x00C then some (if a.toNat < b.toNat then a else b)
  else if func = 0x00D then some (if a.toNat < b.toNat then b else a)
  else if func = 0x010 then some (a * b)
  else if func = 0x011 then some (BitVec.ofInt 64 (a.toInt * b.toInt / 2 ^ 64))
  else if func = 0x012 then some (BitVec.ofNat 64 (a.toNat * b.toNat / 2 ^ 64))
  else none

/-- The latency of an ALU function (R38). -/
def aluLatency (func : Nat) : Nat := if 0x010 ≤ func then 3 else 1

/-- A register result is written and the instruction retires in its issue ck (R38). -/
def Dev.writeResult (d : Dev) (c : CoreId) (k : Core) (rd : Nat) (v : BitVec 64) (lat : Nat) : Dev :=
  d.retire c (k.setGr rd v lat) 1

/-- The effect of ALU. -/
def Dev.alu (d : Dev) (c : CoreId) (f : BitVec 26) : Dev :=
  d.instr c 0x00 f (aluResult (fld f 0 11) 0 0).isNone [fld f 16 5, fld f 11 5] [] (fun k =>
    d.writeResult c k (fld f 21 5)
      ((aluResult (fld f 0 11) (k.gr (fld f 16 5)) (k.gr (fld f 11 5))).getD 0) (aluLatency (fld f 0 11)))

/-- An immediate instruction whose result is `op` of rs1 (R38). -/
def Dev.immOp (d : Dev) (c : CoreId) (op : Nat) (f : BitVec 26) (illegal : Bool) (g : BitVec 64 → BitVec 64) : Dev :=
  d.instr c op f illegal [fld f 16 5] [] (fun k => d.writeResult c k (fld f 21 5) (g (k.gr (fld f 16 5))) 1)

/-- The sign-extended immediate as a 64-bit word. -/
def immWord (f : BitVec 26) : BitVec 64 := BitVec.ofInt 64 (imm16 f)

/-- The result of SHI (R38). -/
def shiResult (imm : Nat) (a : BitVec 64) : BitVec 64 :=
  let n := bits imm 0 6
  if bits imm 6 2 = 0 then a <<< n else if bits imm 6 2 = 1 then a >>> n else a.sshiftRight n

def execAlu (c : CoreId) (f : BitVec 26) (s : State) : Host.Outcome State Fault Refusal :=
  s.onCore c (fun d => d.alu c f)

def execAddi (c : CoreId) (f : BitVec 26) (s : State) : Host.Outcome State Fault Refusal :=
  s.onCore c (fun d => d.immOp c 0x01 f false (fun a => a + immWord f))

def execAndi (c : CoreId) (f : BitVec 26) (s : State) : Host.Outcome State Fault Refusal :=
  s.onCore c (fun d => d.immOp c 0x02 f false (fun a => a &&& immWord f))

def execOri (c : CoreId) (f : BitVec 26) (s : State) : Host.Outcome State Fault Refusal :=
  s.onCore c (fun d => d.immOp c 0x03 f false (fun a => a ||| immWord f))

def execXori (c : CoreId) (f : BitVec 26) (s : State) : Host.Outcome State Fault Refusal :=
  s.onCore c (fun d => d.immOp c 0x04 f false (fun a => a ^^^ immWord f))

/-- SHI: imm[7:6] = 3 or imm[15:8] ≠ 0 is ILLEGAL (R38). -/
def execShi (c : CoreId) (f : BitVec 26) (s : State) : Host.Outcome State Fault Refusal :=
  s.onCore c (fun d => d.immOp c 0x05 f (fld f 6 2 == 3 || fld f 8 8 != 0) (shiResult (fld f 0 16)))

/-- LUI: imm << 16, sign-extended from bit 31; rs1 must be 0 (R38). -/
def execLui (c : CoreId) (f : BitVec 26) (s : State) : Host.Outcome State Fault Refusal :=
  s.onCore c (fun d => d.immOp c 0x06 f (fld f 16 5 != 0) (fun _ => BitVec.ofInt 64 (imm16 f * 2 ^ 16)))

def execSlti (c : CoreId) (f : BitVec 26) (s : State) : Host.Outcome State Fault Refusal :=
  s.onCore c (fun d => d.immOp c 0x07 f false (fun a => if a.toInt < imm16 f then 1 else 0))

/-! Branches and jumps (R39). -/

/-- A transfer of control to `target`: 2 ck, the second a bubble; outside 0 to 4,095 raises PC_FAULT (R37, R39). -/
def Dev.jump (d : Dev) (c : CoreId) (k : Core) (target : Int) : Dev :=
  if 0 ≤ target ∧ target < 4096 then d.retireTo c ((k.spendIssue 1).spendCompute 1) target.toNat
  else d.fault c k (.pc, wrap 32 target)

/-- A compare-and-branch. -/
def Dev.branch (d : Dev) (c : CoreId) (op : Nat) (f : BitVec 26) (test : BitVec 64 → BitVec 64 → Bool) : Dev :=
  d.instr c op f false [fld f 21 5, fld f 16 5] [] (fun k =>
    if test (k.gr (fld f 21 5)) (k.gr (fld f 16 5)) then d.jump c k (k.pc + imm16 f) else d.retire c k 1)

def execBeq (c : CoreId) (f : BitVec 26) (s : State) : Host.Outcome State Fault Refusal :=
  s.onCore c (fun d => d.branch c 0x08 f (fun a b => a == b))

def execBne (c : CoreId) (f : BitVec 26) (s : State) : Host.Outcome State Fault Refusal :=
  s.onCore c (fun d => d.branch c 0x09 f (fun a b => a != b))

def execBlt (c : CoreId) (f : BitVec 26) (s : State) : Host.Outcome State Fault Refusal :=
  s.onCore c (fun d => d.branch c 0x0A f (fun a b => decide (a.toInt < b.toInt)))

def execBge (c : CoreId) (f : BitVec 26) (s : State) : Host.Outcome State Fault Refusal :=
  s.onCore c (fun d => d.branch c 0x0B f (fun a b => decide (b.toInt ≤ a.toInt)))

def execBltu (c : CoreId) (f : BitVec 26) (s : State) : Host.Outcome State Fault Refusal :=
  s.onCore c (fun d => d.branch c 0x0C f (fun a b => decide (a.toNat < b.toNat)))

def execBgeu (c : CoreId) (f : BitVec 26) (s : State) : Host.Outcome State Fault Refusal :=
  s.onCore c (fun d => d.branch c 0x0D f (fun a b => decide (b.toNat ≤ a.toNat)))

/-- The link index pc + 1 (R39). -/
def Core.link (k : Core) (rd : Nat) : Core := k.setGr rd (BitVec.ofNat 64 (k.pc + 1)) 1

/-- A jump that links: the register is written only when the target is taken (R49). -/
def Dev.jumpLink (d : Dev) (c : CoreId) (k : Core) (rd : Nat) (target : Int) : Dev :=
  if 0 ≤ target ∧ target < 4096 then d.jump c (k.link rd) target else d.fault c k (.pc, wrap 32 target)

def execJal (c : CoreId) (f : BitVec 26) (s : State) : Host.Outcome State Fault Refusal :=
  s.onCore c (fun d => d.instr c 0x0E f false [] [] (fun k =>
    d.jumpLink c k (fld f 21 5) (k.pc + signed 21 (fld f 0 21))))

/-- JALR: t := rs1 + imm as a 64-bit sum; a target outside 0 to 4,095 faults (R39). -/
def execJalr (c : CoreId) (f : BitVec 26) (s : State) : Host.Outcome State Fault Refusal :=
  s.onCore c (fun d => d.instr c 0x0F f false [fld f 16 5] [] (fun k =>
    d.jumpLink c k (fld f 21 5) ((k.gr (fld f 16 5) + immWord f).toNat : Int)))

/-! Scalar memory accesses (R22, R23, R40, R46, R114). -/

/-- The byte address of an access: the 64-bit sum of base and offset. -/
def Core.addr (k : Core) (f : BitVec 26) : Nat := (k.gr (fld f 16 5) + immWord f).toNat

/-- The address faults of a scalar access of `n` bytes: ALIGN_FAULT, then ADDR_FAULT, then POISON for a load (R23, R471). -/
def Core.accessFault (k : Core) (a n : Nat) (isStore : Bool) : Option CoreFault :=
  firstFault [
    faultIf (a % n != 0) (.align, wrap 32 a),
    faultIf (decide (2 ^ 24 ≤ a)) (.addr, wrap 32 a),
    (match regionOf a with
      | none => some (.addr, a)
      | some (r, _, _) => if isStore && r == 3 then some (.addr, a) else none),
    faultIf (!isStore && k.rowPoisoned a) (.poison, a)]

/-- Whether an unretired store of the sequencer lies in the row of an address (R114). -/
def Core.storePending (k : Core) (a : Nat) : Bool := k.stores.any (fun s => s.addr / 64 == a / 64)

/-- The port of an address: 0 WM, 1 AM, 2 PM, 3 stock; 4 for IM, which takes no slot on the data ports. -/
def addrPort (a : Nat) : Nat :=
  match regionOf a with
  | some (r, _, _) => if r = 3 then 4 else portOf r
  | none => 4

/-- One row slot of the memory of an address, counted by the ledger (R111). -/
def Core.slotAt (k : Core) (a : Nat) : Core := if addrPort a = 4 then k else k.slots (addrPort a) 1

/-- The latency of a load (R40). -/
def loadLatency (a : Nat) : Nat := if addrPort a = 3 then 6 else 3

/-- A load or DLD: waits for held footprints and for an unretired store to its row, then `take` uses the number read. -/
def Dev.load (d : Dev) (c : CoreId) (op : Nat) (f : BitVec 26) (w : Nat) (illegal : Bool) (n : Nat)
    (take : Core → Nat → Nat → Core) : Dev :=
  d.instr c op f illegal [fld f 16 5] [] (fun k0 =>
    let k := k0.settleWait w
    let a := k.addr f
    match k.accessFault a n false with
    | some e => d.fault c k e
    | none =>
      if k.holds [(a, n)] then d.block c k (wordOf op f) (.interlock true)
      else if k.storePending a then d.block c k (wordOf op f) (.interlock false)
      else d.retire c (take (k.slotAt a) a (k.load a n)) 1)

/-- A scalar load of `n` bytes into rd, sign- or zero-extended. -/
def Dev.loadReg (d : Dev) (c : CoreId) (op : Nat) (f : BitVec 26) (w n : Nat) (sext : Bool) : Dev :=
  d.load c op f w false n (fun k a v =>
    k.setGr (fld f 21 5) (if sext then BitVec.ofInt 64 (signed (8 * n) v) else BitVec.ofNat 64 v) (loadLatency a))

def execLb (c : CoreId) (f : BitVec 26) (w : Nat) (s : State) : Host.Outcome State Fault Refusal :=
  s.onCore c (fun d => d.loadReg c 0x10 f w 1 true)
def execLbu (c : CoreId) (f : BitVec 26) (w : Nat) (s : State) : Host.Outcome State Fault Refusal :=
  s.onCore c (fun d => d.loadReg c 0x11 f w 1 false)
def execLh (c : CoreId) (f : BitVec 26) (w : Nat) (s : State) : Host.Outcome State Fault Refusal :=
  s.onCore c (fun d => d.loadReg c 0x12 f w 2 true)
def execLhu (c : CoreId) (f : BitVec 26) (w : Nat) (s : State) : Host.Outcome State Fault Refusal :=
  s.onCore c (fun d => d.loadReg c 0x13 f w 2 false)
def execLw (c : CoreId) (f : BitVec 26) (w : Nat) (s : State) : Host.Outcome State Fault Refusal :=
  s.onCore c (fun d => d.loadReg c 0x14 f w 4 true)
def execLwu (c : CoreId) (f : BitVec 26) (w : Nat) (s : State) : Host.Outcome State Fault Refusal :=
  s.onCore c (fun d => d.loadReg c 0x15 f w 4 false)
def execLd (c : CoreId) (f : BitVec 26) (w : Nat) (s : State) : Host.Outcome State Fault Refusal :=
  s.onCore c (fun d => d.loadReg c 0x16 f w 8 false)

/-- A store: `data` is taken at issue; the row changes at STORE_RETIRE (R40). -/
def Dev.storeOp (d : Dev) (c : CoreId) (op : Nat) (f : BitVec 26) (w : Nat) (illegal : Bool) (n : Nat) (gs ds : List Nat)
    (data : Core → Nat) : Dev :=
  d.instr c op f illegal gs ds (fun k0 =>
    let k := k0.settleWait w
    let a := k.addr f
    match k.accessFault a n true with
    | some e => d.fault c k e
    | none =>
      if k.holds [(a, n)] then d.block c k (wordOf op f) (.interlock true)
      else d.retire c { k with stores := k.stores ++ [⟨a, n, data k % 2 ^ (8 * n)⟩] } 1)

/-- A scalar store of the low `n` bytes of rs2. -/
def Dev.storeReg (d : Dev) (c : CoreId) (op : Nat) (f : BitVec 26) (w n : Nat) : Dev :=
  d.storeOp c op f w false n [fld f 16 5, fld f 21 5] [] (fun k => (k.gr (fld f 21 5)).toNat)

def execSb (c : CoreId) (f : BitVec 26) (w : Nat) (s : State) : Host.Outcome State Fault Refusal :=
  s.onCore c (fun d => d.storeReg c 0x18 f w 1)
def execSh (c : CoreId) (f : BitVec 26) (w : Nat) (s : State) : Host.Outcome State Fault Refusal :=
  s.onCore c (fun d => d.storeReg c 0x19 f w 2)
def execSw (c : CoreId) (f : BitVec 26) (w : Nat) (s : State) : Host.Outcome State Fault Refusal :=
  s.onCore c (fun d => d.storeReg c 0x1A f w 4)
def execSd (c : CoreId) (f : BitVec 26) (w : Nat) (s : State) : Host.Outcome State Fault Refusal :=
  s.onCore c (fun d => d.storeReg c 0x1B f w 8)

/-- The oldest issued store takes its row slot and changes its row (R40, R113, R120). -/
def Dev.storeRetire (d : Dev) (c : CoreId) : Dev :=
  match (d.core c).stores with
  | [] => d
  | st :: rest =>
    let k := ({ d.core c with stores := rest }).slotAt st.addr
    if k.addrOff st.addr then d.offMaskWrite c k st.addr
    else d.setCore c (k.store st.addr st.n st.val false)

def execStoreRetire (c : CoreId) (s : State) : Host.Outcome State Fault Refusal :=
  s.onCore c (fun d => d.storeRetire c)

/-! Descriptor registers (R26, R40). -/

/-- DLD: d := 16 bytes; bit [21] must be 0 (R35). -/
def execDld (c : CoreId) (f : BitVec 26) (w : Nat) (s : State) : Host.Outcome State Fault Refusal :=
  s.onCore c (fun d => d.load c 0x1C f w (fld f 21 1 != 0) 16 (fun k a v =>
    k.setDr (fld f 22 4) (BitVec.ofNat 128 v) (loadLatency a)))

/-- DST: 16 bytes := d. -/
def execDst (c : CoreId) (f : BitVec 26) (w : Nat) (s : State) : Host.Outcome State Fault Refusal :=
  s.onCore c (fun d => d.storeOp c 0x1D f w (fld f 21 1 != 0) 16 [fld f 16 5] [fld f 22 4]
    (fun k => (k.dr (fld f 22 4)).toNat))

/-- The place of a DSET field: selector 0 base, 1 rows, 2 cols, 3 stride, 4 pad, 5 aux (R40). -/
def dsetField (sel : Nat) : Nat × Nat :=
  if sel = 0 then (0, 24) else if sel = 1 then (48, 16) else if sel = 2 then (32, 16) else if sel = 3 then (64, 16)
  else if sel = 4 then (80, 16) else (112, 16)

/-- DSET: one field of d := low bits of rs1; any other selector is ILLEGAL. -/
def execDset (c : CoreId) (f : BitVec 26) (s : State) : Host.Outcome State Fault Refusal :=
  s.onCore c (fun d =>
    d.instr c 0x1E f (fld f 21 1 != 0 || fld f 8 8 != 0 || decide (5 < fld f 0 8)) [fld f 16 5] [fld f 22 4] (fun k =>
      let (lo, n) := dsetField (fld f 0 8)
      d.retire c (k.setDr (fld f 22 4)
        (BitVec.ofNat 128 (setBits (k.dr (fld f 22 4)).toNat lo n (k.gr (fld f 16 5)).toNat)) 1) 1))

end Sys2Proof.Machine
end

