-- ==== Sys2Proof/Machine/Channel.lean ====
section
/-! DEFINITION. Channels at the sequencer: SEND, RECV, RREL and POLL (R129 to R135, R139). -/

namespace Sys2Proof.Machine

/-- Rank a is greater than rank b in rank order (R32). -/
def rankGt (a b : Nat) : Bool :=
  let d := (bits a 8 8 + 256 - bits b 8 8) % 256
  (decide (1 ≤ d) && decide (d ≤ 63)) || (d == 0 && decide (bits b 0 8 < bits a 0 8))

/-- The rank of an endpoint: slot × 256 + stage (R135). -/
def Core.epRank (k : Core) (n : Nat) : Nat := k.get (CORE_EP_slot n) * 256 + k.get (CORE_EP_stage n)

/-- The endpoint's slot advances by its slot step (R135). -/
def Core.advanceSlot (k : Core) (n : Nat) : Core :=
  k.put (CORE_EP_slot n) ((k.get (CORE_EP_slot n) + k.get (CORE_EP_sstep n)) % 256)

/-- The least count of credits returned by the live receivers of a fanout; 0 when none is live (R133). -/
def Core.leastReturned (k : Core) (n : Nat) : Nat :=
  let live := (List.range (k.get (CORE_EP_fanout n) + 1)).filter (fun i => !(bit (k.get (CORE_EP_rx_gone n)) i))
  match live.map (fun i => Tab.get (fun _ => 0) (k.epRun n).returned i) with
  | [] => 0
  | r :: rs => rs.foldl min r

/-- credits := depth − messages sent + the least returned count (R133). -/
def Core.recount (k : Core) (n : Nat) : Core :=
  k.put (CORE_EP_credits n) (k.get (CORE_EP_depth n) + k.leastReturned n - (k.epRun n).sent)

/-! SEND. -/

/-- data_rows and extra_rows of a message (R130). -/
def Core.dataRows (k : Core) (d : Desc) : Nat := k.actualRows d * d.span
def Core.extraRows (k : Core) (d : Desc) : Nat := d.scaleRows (k.actualRows d) + d.metaRows (k.actualRows d)

/-- The header row of a message of endpoint `n` of core `c` (R131). -/
def Core.header (k : Core) (c : CoreId) (n : Nat) (d : Desc) : RowData :=
  let rows := k.actualRows d
  BitVec.ofNat 512 (ofBytes (
    toBytes 1 (if k.get (CORE_EP_tally n) = 1 then 2 else 1) ++ toBytes 1 (k.get (CORE_EP_dst n))
    ++ toBytes 1 (k.get (CORE_EP_gen n)) ++ toBytes 1 (k.get (CORE_EP_slot n))
    ++ toBytes 1 c.x.toNat ++ toBytes 1 c.y.toNat ++ toBytes 1 n
    ++ toBytes 1 (d.ef19Rne.toNat + 2 * d.sp24.toNat) ++ toBytes 2 rows ++ toBytes 2 d.cols
    ++ toBytes 1 d.fmt ++ toBytes 1 d.zpRaw ++ toBytes 2 d.pad ++ toBytes 4 (rows * d.cols)
    ++ toBytes 2 (k.dataRows d) ++ toBytes 2 (k.extraRows d)))

/-- The checks of SEND in the order of R471. -/
def Core.sendFault (k : Core) (n r : Nat) : Option CoreFault :=
  let d := k.desc r
  let tally := k.get (CORE_EP_tally n) == 1
  firstFault [
    faultIf (!(k.isSend n)) (.endpoint, n),
    faultIf (!(rankGt (k.epRank n) k.rank.toNat)) (.rank, k.rank.toNat + k.epRank n * 2 ^ 16),
    k.checkDesc r d (fun f => f != .u16) true memData false,
    faultIf (decide (k.get (CORE_EP_cap_rows n) < k.dataRows d + k.extraRows d)
      || (tally && d.cols != k.get (CORE_EP_tcols n)) || (d.dsel != 0 && decide (d.rows < k.actualRows d)))
      (.endpoint, n),
    faultIf (tally && !([Fmt.fp64, .fp32, .ef19, .bf16, .fp16].contains d.format)) (.fmt, fmtInfo r d)]

/-- A SEND completes: the endpoint's slot advances and rd takes 0x0000, or 0x0009 PEER_GONE when a receiver is gone (R135, R139). -/
def Dev.sendDone (d : Dev) (c : CoreId) (k : Core) (n rd cost : Nat) : Dev :=
  let v : BitVec 64 := if k.get (CORE_EP_rx_gone n) = 0 ∧ k.get (CORE_EP_gone n) = 0 then 0 else 9
  (d.retire c ((({ k with send := none }.bookWait 5 k.stallWaited).advanceSlot n).setGr rd v cost) cost).waited c k k.stallWaited

/-- Rows go to the injection buffer while it has room, 64 rows in all (R155). -/
def Core.handRows (k : Core) (run : SendRun) : Core :=
  let room := 64 - k.inj.length
  let now := run.rest.take room
  let left := run.rest.drop room
  let tag := BitVec.ofNat 8 (k.get (CORE_EP_tag run.ep))
  let rows := (List.range now.length).map (fun j =>
    let a := now.getD j 0
    (⟨run.ep, ⟨BitVec.ofNat 512 (k.load a 64), false, left.isEmpty && j + 1 == now.length, run.poison, tag⟩⟩ : InjRow))
  let k1 := now.foldl Core.slotAt { k with inj := k.inj ++ rows, send := some { run with rest := left } }
  { k1 with acct := { k1.acct with inject := k1.acct.inject + now.length } }

/-- A SEND under way hands over the rows it can, and completes with its last row (R130, R155). -/
def Dev.sendMore (d : Dev) (c : CoreId) (k : Core) (run : SendRun) (rd : Nat) (word : BitVec 32) : Dev :=
  let k1 := k.handRows run
  match k1.send with
  | some r => if r.rest.isEmpty then d.sendDone c k1 run.ep rd (2 + run.total) else d.block c k1 word (.stall 5)
  | none => d

/-- SEND takes a credit and hands over its header row; the data, scale and metadata rows follow (R130, R133). -/
def Dev.sendStart (d : Dev) (c : CoreId) (k : Core) (n r rd : Nat) (word : BitVec 32) : Dev :=
  let ds := k.desc r
  let act := k.actualRows ds
  let addrs := ds.rowAddrs act
  let p := k.tensorPoisoned ds act
  let e := k.epRun n
  let k1 := (k.setEpRun n { e with sent := e.sent + 1 }).put (CORE_EP_credits n) (k.get (CORE_EP_credits n) - 1)
  let head : InjRow := ⟨n, ⟨k.header c n ds, true, addrs.isEmpty, p, BitVec.ofNat 8 (k.get (CORE_EP_tag n))⟩⟩
  let k2 := { k1 with inj := k1.inj ++ [head], acct := { k1.acct with inject := k1.acct.inject + 1 } }
  d.sendMore c k2 ⟨n, addrs, 1 + addrs.length, p⟩ rd word

/-- SEND (R44, R130, R133, R139). -/
def Dev.sendOp (d : Dev) (c : CoreId) (f : BitVec 26) (w : Nat) : Dev :=
  let n := fld f 21 5
  let r := fld f 17 4
  let rd := fld f 12 5
  d.instr c 0x30 f (fld f 0 12 != 0) [] [r] (fun k0 =>
    let k := k0.settleWait w
    match k.send with
    | some run => d.sendMore c k run rd (wordOf 0x30 f)
    | none =>
      match k.sendFault n r with
      | some e => d.fault c k e
      | none =>
        if k.get (CORE_EP_gone n) = 1 then d.sendDone c k n rd 2
        else if k.get (CORE_EP_credits n) = 0 ∨ 64 ≤ k.inj.length then d.block c k (wordOf 0x30 f) (.stall 5)
        else if ((k.desc r).rowAddrs (k.actualRows (k.desc r))).any k.storePending then
          d.block c k (wordOf 0x30 f) (.interlock false)
        else d.sendStart c k n r rd (wordOf 0x30 f))

def execSend (c : CoreId) (f : BitVec 26) (w : Nat) (s : State) : Host.Outcome State Fault Refusal :=
  s.onCore c (fun d => d.sendOp c f w)

/-! RECV, RREL, POLL. -/

/-- The first byte of entry `i` of a receive queue (R129). -/
def Core.entryBase (k : Core) (n i : Nat) : Nat :=
  0x40000 + (k.get (CORE_EP_qbase n) + i * k.get (CORE_EP_entry_rows n)) * 64

/-- The descriptor that RECV builds of the message in an entry (R132). -/
def Core.recvDesc (k : Core) (base : Nat) : BitVec 128 :=
  let h := Memory.readN k.mem base 64
  let b := fun (i n : Nat) => bits h (8 * i) (8 * n)
  let fmt := bits (b 12 1) 0 5
  let d0 : Desc := { base := base + 64, fmt := fmt, ef19Rne := bit (b 7 1) 0, sp24 := bit (b 7 1) 1, cols := b 10 2, rows := b 8 2,
                     stride := 0, pad := b 14 2, rnd := 0, dsel := 0, zpRaw := b 13 1, aux := 0 }
  let mxOrSparse := d0.format.mx || d0.sp24
  BitVec.ofNat 128 (d0.base + d0.fmt * 2 ^ 24 + d0.ef19Rne.toNat * 2 ^ 29 + d0.sp24.toNat * 2 ^ 30 + d0.cols * 2 ^ 32
    + d0.rows * 2 ^ 48 + (d0.span % 2 ^ 16) * 2 ^ 64 + d0.pad * 2 ^ 80 + d0.zpRaw * 2 ^ 104
    + (if mxOrSparse then b 20 2 else 0) * 2 ^ 112)

/-- RECV: waits for a message, returns its descriptor and element count and raises CSR_RANK (R33, R132, R134). -/
def Dev.recvOp (d : Dev) (c : CoreId) (f : BitVec 26) (w : Nat) : Dev :=
  let n := fld f 21 5
  d.instr c 0x31 f (fld f 0 12 != 0) [] [] (fun k0 =>
    let k := k0.settleWait w
    if !(k.isRecv n) then d.fault c k (.endpoint, n)
    else if k.get (CORE_EP_held n) = 0 then d.block c k (wordOf 0x31 f) (.stall 4)
    else
      let k1 := k.bookWait 4 (k.stallWaited)
      let e := k1.epRun n
      let base := k1.entryBase n e.head
      let k2 := { k1.setEpRun n { e with headGiven := true } with rank := BitVec.ofNat 16 (k1.epRank n) }
      let k3 := (k2.setDr (fld f 17 4) (k1.recvDesc base) 3).setGr (fld f 12 5)
        (BitVec.ofNat 64 (Memory.readN k1.mem (base + 16) 4)) 3
      (d.retire c k3 3).waited c k k.stallWaited)

def execRecv (c : CoreId) (f : BitVec 26) (w : Nat) (s : State) : Host.Outcome State Fault Refusal :=
  s.onCore c (fun d => d.recvOp c f w)

/-- The CREDIT packet that frees an entry (R133, R168). -/
def Core.creditPacket (k : Core) (c : CoreId) (n : Nat) : Packet :=
  k.packet c 0x01 (k.get (CORE_EP_peer_x n)) (k.get (CORE_EP_peer_y n)) 0 0 1
    (k.get (CORE_EP_peer_ep n) + k.get (CORE_EP_rx_index n) * 2 ^ 5 + k.get (CORE_EP_gen n) * 2 ^ 8) []

/-- RREL: frees the head entry, returns its credit and advances the slot (R133, R134, R135). -/
def Dev.rrelOp (d : Dev) (c : CoreId) (f : BitVec 26) (w : Nat) : Dev :=
  let n := fld f 21 5
  d.instr c 0x32 f (fld f 0 12 != 0 || fld f 12 9 != 0) [] [] (fun k0 =>
    let k := k0.settleWait w
    let e := k.epRun n
    if !(k.isRecv n) || !e.headGiven then d.fault c k (.endpoint, n)
    else if k.holds [(k.entryBase n e.head, k.get (CORE_EP_entry_rows n) * 64)] then
      d.block c k (wordOf 0x32 f) (.interlock true)
    else
      let k1 := k.setEpRun n { e with headGiven := false, head := (e.head + 1) % (k.get (CORE_EP_qdepth n) + 1) }
      let k2 := (k1.put (CORE_EP_held n) (k.get (CORE_EP_held n) - 1)).advanceSlot n
      let d1 := if k.get (CORE_EP_tally n) = 1 then d else d.send (k.creditPacket c n)
      d1.retire c k2 1)

def execRrel (c : CoreId) (f : BitVec 26) (w : Nat) (s : State) : Host.Outcome State Fault Refusal :=
  s.onCore c (fun d => d.rrelOp c f w)

/-- POLL: the number of complete messages, without blocking (R44, R134). -/
def execPoll (c : CoreId) (f : BitVec 26) (s : State) : Host.Outcome State Fault Refusal :=
  s.onCore c (fun d => d.instr c 0x33 f (fld f 0 12 != 0 || fld f 17 4 != 0) [] [] (fun k =>
    if !(k.isRecv (fld f 21 5)) then d.fault c k (.endpoint, fld f 21 5)
    else d.writeResult c k (fld f 12 5) (BitVec.ofNat 64 (k.get (CORE_EP_held (fld f 21 5)))) 2))

end Sys2Proof.Machine
end

