-- ==== Sys2Proof/Machine/Arrival.lean ====
section
/-! DEFINITION. Rows at a core's network interface: groups, remote queues and arrival counters (R115 to R118, R129, R137,
R138, R143, R157, R162, R166, R217, R219, R223, R381). -/

namespace Sys2Proof.Machine

/-! Header rows (R131, R217). -/

/-- The number that bytes `[i, i + n)` of a row hold. -/
def rowBytes (r : RowData) (i n : Nat) : Nat := bits r.toNat (8 * i) (8 * n)

/-- Rows of a Porter group (R210). -/
def porterRows (h : RowData) : Nat := rowBytes h 8 2 * rowBytes h 10 2

/-- The core address of row `i` of a Porter group (R210, R217). -/
def porterAddr (h : RowData) (i : Nat) : Nat :=
  let n := rowBytes h 8 2
  rowBytes h 4 3 + (i / n * rowBytes h 12 2 + i % n) * 64

/-! Dropped rows. -/

/-- A row is dropped: MESH_STAT.orphan counts it and Naeno reports MESH_ORPHAN (R154, R157). -/
def Dev.orphan (d : Dev) (c : CoreId) (k : Core) (location : Nat) : Dev :=
  (d.bump MESH_STAT_orphan 1).raise 0x0020 { k.errAt c location with unitKind := 2 }

/-- The core counts a stale message or packet (R137). -/
def Dev.countStale (d : Dev) (c : CoreId) : Dev :=
  (d.upd c (fun k => k.bump CORE_CHAN_STAT_stale 1)).count (fun n => { n with stale := n.stale + 1 })

/-- The core counts a message absorbed by a closed endpoint (R138, R381). -/
def Dev.countAbsorbed (d : Dev) (c : CoreId) : Dev :=
  (d.upd c (fun k => k.bump CORE_CHAN_STAT_absorbed 1)).count (fun n => { n with absorbed := n.absorbed + 1 })

/-- Whether the endpoints of a core are closed because it halted or is in RESET (R138, R381). -/
def Core.shut (k : Core) : Bool := k.run == .halted || k.run == .reset

/-- The reason of a RECEIPT for a closed endpoint (R138). -/
def Core.closeReason (k : Core) : Nat := if k.run = .halted then 4 else 2

/-- The RECEIPT to the source that a message header names (R137). -/
def Core.headerReceipt (k : Core) (c : CoreId) (h : RowData) (rx reason : Nat) : Packet :=
  k.receipt c (rowBytes h 4 1) (rowBytes h 5 1) (rowBytes h 6 1 % 32) rx (rowBytes h 2 1) reason false

/-! Groups (R117, R157). -/

/-- A new group under a header. -/
def Group.ofHeader (kind : GroupKind) (h : RowData) : Group := ⟨kind, h, 0, 0, 0, 0, false, false, none⟩

/-- A group whose last row has arrived and whose rows have all retired ends: a message becomes present and its counter gains 1;
a Porter group adds its increment, with the counter's poison bit when the group is poisoned (R117, R134, R217, R223). -/
def Core.endGroup (k : Core) (tag : BitVec 8) (g : Group) : Core :=
  if !g.closedIn || g.queued != 0 || g.ahead != 0 then k.setGroup tag (some g)
  else
    let k0 := k.setGroup tag none
    match g.kind with
    | .message n _ =>
      if k.get (CORE_EP_closed n) = 1 then k0
      else
        let k1 := k0.put (CORE_EP_held n) (k.get (CORE_EP_held n) + 1)
        if k.get (CORE_EP_cnt_en n) = 1 then k1.advance (k.get (CORE_EP_cnt n)) 1 .other else k1
    | .porter =>
      let h := g.header
      let n := rowBytes h 2 1
      if bit n 6 then
        let k1 := k0.advance (n % 64) (rowBytes h 3 1) (.porter (bit (rowBytes h 1 1) 1) (bit (rowBytes h 1 1) 2))
        if g.poison || g.first.isSome then
          { k1 with cPoison := Tab.set (fun _ => none) k1.cPoison (n % 64)
                      (some (g.first.getD (BitVec.ofNat 24 (rowBytes h 4 3)))) }
        else k1
      else k0
    | .tally _ => k0
    | .absorbed => k0

/-- A row of the group of `tag` has retired or been discarded after it counted among the queued ones.  The mark of a row of a Porter
group stays with that row (R223, R430). -/
def Core.rowDone (k : Core) (tag : BitVec 8) (addr : Nat) (poison : Bool) : Core :=
  match k.group tag with
  | none => k
  | some g =>
    k.endGroup tag { g with queued := g.queued - 1, poison := g.poison || (poison && g.kind != .porter),
                            first := if poison && g.first.isNone then some (BitVec.ofNat 24 addr) else g.first }

/-- A remote write retires: the row is written with its mark, or an off-mask tier discards it and counts it (R113, R120, R428). -/
def Core.remoteWrite (k : Core) (addr : Nat) (data : RowData) (poison : Bool) (tag : BitVec 8) : Core :=
  let k1 := (k.slotAt addr).store addr 64 data.toNat poison
  let k2 := if k.addrOff addr then k1.bump CORE_MEM_STAT_offmask_wr 1 else k1
  { k2 with acct := { k2.acct with deliver := k2.acct.deliver + 1 } }.rowDone tag addr poison

/-- The device side of a remote write: an off-mask write is reported (R120). -/
def Dev.remoteWrite (d : Dev) (c : CoreId) (k : Core) (addr : Nat) (data : RowData) (poison : Bool) (tag : BitVec 8) : Dev :=
  let d1 := d.setCore c (k.remoteWrite addr data poison tag)
  if k.addrOff addr then d1.raise 0x0004 (k.errAt c addr) else d1

/-! Remote queues (R115, R116). -/

/-- The remote queue of a port. -/
def Core.queue (k : Core) (m : Nat) : List RemoteOp := Tab.get (fun _ => []) k.remote m
def Core.setQueue (k : Core) (m : Nat) (q : List RemoteOp) : Core := { k with remote := Tab.set (fun _ => []) k.remote m q }

/-- An entry joins the queue of a port; q_hwm follows the largest occupancy. -/
def Core.enqueue (k : Core) (m : Nat) (o : RemoteOp) : Core :=
  let q := k.queue m ++ [o]
  let k1 := k.setQueue m q
  if k.get CORE_MEM_STAT_q_hwm < q.length then k1.put CORE_MEM_STAT_q_hwm q.length else k1

/-- An entry has left the queue of a port: groups of zero rows behind it come nearer their end (R117). -/
def Core.passAhead (k : Core) (m : Nat) : Core :=
  k.groups.foldl (fun k p => match p.2 with
    | some g => if g.port = m ∧ g.ahead ≠ 0 then k.endGroup (BitVec.ofNat 8 p.1) { g with ahead := g.ahead - 1 } else k
    | none => k) k

/-- A row that finds its queue full is a device fault: ovf counts it and Naeno reports REMOTE_OVF (R116). -/
def Dev.overflow (d : Dev) (c : CoreId) (addr : Nat) : Dev :=
  (d.upd c (fun k => k.bump CORE_MEM_STAT_ovf 1)).raise 0x0003 ((d.core c).errAt c addr)

/-- A row write for `addr` arrives: it takes the port in its arrival ck, or queues, or finds the queue full (R115, R116). -/
def Dev.arriveWrite (d : Dev) (c : CoreId) (k : Core) (addr : Nat) (data : RowData) (poison : Bool) (tag : BitVec 8)
    (portFree : Bool) : Dev :=
  let m := addrPort addr
  if (k.queue m).isEmpty ∧ portFree = true then d.remoteWrite c k addr data poison tag
  else if (k.queue m).length < 16 then d.setCore c (k.enqueue m (.write addr data poison tag))
  else (d.setCore c (({ k with poison := (k.setPoison addr true).poison }).rowDone tag addr poison)).overflow c addr

/-! Contributions (R142, R144). -/

/-- The format, the elements per 64-byte row and the first element (row, column) of data row `part` of a contribution. -/
def contribFmt (h : RowData) : Fmt := (Fmt.ofCode (rowBytes h 12 1 % 32)).getD .fp32
def contribPer (h : RowData) : Nat := 512 / (contribFmt h).width
def contribSpan (h : RowData) : Nat := cdiv (rowBytes h 10 2 * (contribFmt h).width) 512
def contribAt (h : RowData) (part : Nat) : Nat × Nat :=
  (part / contribSpan h, part % contribSpan h * contribPer h)

/-- The elements of the tally tensor that data row `part` reaches: first element number and how many (R142). -/
def Core.contribElems (k : Core) (q : Nat) (h : RowData) (part : Nat) : Nat × Nat :=
  let (i, x) := contribAt h part
  let cols := k.get (CORE_TQ_cols q)
  (i * cols + x, if i < k.get (CORE_TQ_rows q) then min (contribPer h) (min cols (rowBytes h 10 2) - x) else 0)

/-- The PM rows, as addresses, whose accumulators data row `part` adds into (R142, R144). -/
def Core.contribRows (k : Core) (q : Nat) (h : RowData) (part : Nat) : List Nat :=
  let (e, n) := k.contribElems q h part
  if n = 0 then []
  else (List.range ((e + n - 1) / 2 - e / 2 + 1)).map (fun j => 0x80000 + (k.get (CORE_TQ_pm_base q) + e / 2 + j) * 64)

/-- A contribution row arrives: it waits in PM's remote queue, or finds it full, when the accumulator rows it would have reached are
marked poisoned (R116, R144). -/
def Dev.arriveContrib (d : Dev) (c : CoreId) (k : Core) (q part : Nat) (g : Group) (r : Row) : Dev :=
  if (k.queue 2).length < 16 then d.setCore c (k.enqueue 2 (.contrib q part r.data r.poison r.tag 0))
  else
    let k1 := (k.contribRows q g.header part).foldl (fun k a => k.setPoison a true) k
    (d.setCore c (k1.rowDone r.tag 0 false)).overflow c 0x80000

/-! Head rows. -/

/-- A head row opens the group of its tag; a group of one row ends with it. -/
def Dev.openGroup (d : Dev) (c : CoreId) (k : Core) (r : Row) (g : Group) : Dev :=
  d.setCore c (k.endGroup r.tag { g with closedIn := r.last })

/-- The header of a channel message; a tally release from another core is of the wrong kind (R129, R137, R138). -/
def Dev.messageHead (d : Dev) (c : CoreId) (k : Core) (r : Row) (portFree : Bool) : Dev :=
  let n := rowBytes r.data 1 1 % 32
  let gone := Group.ofHeader .absorbed r.data
  let rx := if k.isRecv n then k.get (CORE_EP_rx_index n) else 0
  if k.shut || (k.isRecv n && k.get (CORE_EP_closed n) == 1) then
    ((d.openGroup c k r gone).countAbsorbed c).send (k.headerReceipt c r.data rx k.closeReason)
  else if !(k.isRecv n) || k.get (CORE_EP_tally n) == 1 || rowBytes r.data 0 1 != 1 then
    ((d.openGroup c k r gone).countStale c).send (k.headerReceipt c r.data rx 3)
  else if rowBytes r.data 2 1 ≠ k.get (CORE_EP_gen n) then
    ((d.openGroup c k r gone).countStale c).send (k.headerReceipt c r.data rx 1)
  else
    let e := k.epRun n
    let g : Group := { Group.ofHeader (.message n e.fill) r.data with seen := 1, queued := 1, closedIn := r.last }
    let k1 := (k.setEpRun n { e with fill := (e.fill + 1) % (k.get (CORE_EP_qdepth n) + 1) }).setGroup r.tag (some g)
    d.arriveWrite c k1 (k.entryBase n e.fill) r.data r.poison r.tag portFree

/-- The header of a tally contribution waits for its classification, unless its queue is closed or invalid (R137, R138, R143). -/
def Dev.tallyHead (d : Dev) (c : CoreId) (k : Core) (r : Row) : Dev :=
  let q := rowBytes r.data 1 1 % 32
  let gone := Group.ofHeader .absorbed r.data
  if k.shut then ((d.openGroup c k r gone).countAbsorbed c).send (k.headerReceipt c r.data 0 k.closeReason)
  else if 8 ≤ q ∨ k.get (CORE_TQ_valid q) = 0 then
    ((d.openGroup c k r gone).countStale c).send (k.headerReceipt c r.data 0 3)
  else
    let t := k.tqRun q
    let g : Group := { Group.ofHeader (.tally q) r.data with closedIn := r.last, poison := r.poison }
    d.setCore c ((k.setGroup r.tag (some g)).setTqRun q { t with held := t.held ++ [⟨r.data, r.tag, r.poison⟩] })

/-- The header of a Porter group takes no slot (R117, R217); a halted core or a core in RESET discards the group (R166, R381). -/
def Dev.porterHead (d : Dev) (c : CoreId) (k : Core) (r : Row) : Dev :=
  if k.shut then (d.openGroup c k r (Group.ofHeader .absorbed r.data)).countAbsorbed c
  else
    let m := addrPort (rowBytes r.data 4 3)
    d.openGroup c k r { Group.ofHeader .porter r.data with
      poison := r.poison || bit (rowBytes r.data 1 1) 0, port := m, ahead := if r.last then (k.queue m).length else 0 }

/-- A head row: by its kind, unless its tag names an open group, when it is dropped and that group marked poisoned (R157). -/
def Dev.headRow (d : Dev) (c : CoreId) (k : Core) (r : Row) (portFree : Bool) : Dev :=
  match k.group r.tag with
  | some g => (d.setCore c (k.setGroup r.tag (some { g with poison := true }))).orphan c k r.tag.toNat
  | none =>
    match rowBytes r.data 0 1 with
    | 0x01 => d.messageHead c k r portFree
    | 0x03 => d.messageHead c k r portFree
    | 0x02 => d.tallyHead c k r
    | 0x10 => d.porterHead c k r
    | _ => d.orphan c k r.tag.toNat

/-! Data rows. -/

/-- A data row of a message: the next row of its entry; a row past the entry is discarded, and the entry marked (R129). -/
def Dev.messageRow (d : Dev) (c : CoreId) (k : Core) (r : Row) (g : Group) (n entry : Nat) (portFree : Bool) : Dev :=
  let base := k.entryBase n entry
  let rows := k.get (CORE_EP_entry_rows n)
  if g.seen < rows then
    let k1 := k.setGroup r.tag (some { g with seen := g.seen + 1, queued := g.queued + 1, closedIn := r.last })
    d.arriveWrite c k1 (base + g.seen * 64) r.data (r.poison || g.poison) r.tag portFree
  else
    let k1 := (List.range rows).foldl (fun k j => k.setPoison (base + j * 64) true) k
    (d.setCore c (k1.endGroup r.tag { g with poison := true, closedIn := r.last })).orphan c k base

/-- A data row of the open group of its tag. -/
def Dev.dataRow (d : Dev) (c : CoreId) (k : Core) (r : Row) (portFree : Bool) : Dev :=
  match k.group r.tag with
  | none => d.orphan c k r.tag.toNat
  | some g =>
    match g.kind with
    | .absorbed => d.setCore c (k.endGroup r.tag { g with closedIn := r.last })
    | .message n entry => d.messageRow c k r g n entry portFree
    | .porter =>
      let k1 := k.setGroup r.tag (some { g with seen := g.seen + 1, queued := g.queued + 1, closedIn := r.last })
      d.arriveWrite c k1 (porterAddr g.header g.seen) r.data (r.poison || g.poison) r.tag portFree
    | .tally q =>
      let k1 := k.setGroup r.tag (some { g with seen := g.seen + 1, queued := g.queued + 1, closedIn := r.last })
      d.arriveContrib c k1 q g.seen g { r with poison := r.poison || g.poison }

/-! Schedule fill (R162). -/

/-- The key of slot `slot` of bank `bank` of a router. -/
def schedKey (c : CoreId) (bank slot : Nat) : Nat := (c.key * 2 + bank) * 4096 + slot

/-- A slot word that names no source and no stream (R152): what a slot that nothing has written holds (log 2). -/
def idleWord : Nat := 63 * 2 ^ 21

/-- The schedule a router runs. -/
def Dev.router (d : Dev) (c : CoreId) : RouterRun := Tab.get (fun _ => RouterRun.reset) d.routers c.key

/-- A fill row at router `c` writes 16 slot words into the bank that is not running; a row past the bank's end writes none. -/
def Dev.fillRow (d : Dev) (c : CoreId) (r : Row) : Dev :=
  let k := Tab.get (fun _ => 0) d.schedFill c.key
  let idle := 1 - (d.router c).bank
  let words := (List.range 16).map (fun j => bits r.data.toNat (32 * j) 32)
  { d with sched := if k < 256 then Tab.setAll (fun _ => idleWord) d.sched (schedKey c idle (16 * k)) words else d.sched,
           schedFill := Tab.set (fun _ => 0) d.schedFill c.key (k + 1) }

/-! The commands. -/

/-- A row that crossed to L is taken from the rows on their way to the network interface (R151). -/
def Dev.takeDelivered (d : Dev) (c : CoreId) (r : Row) : Dev := { d with delivered := d.delivered.erase (c, r) }

/-- A row at the network interface of core `c`. -/
def Dev.arrive (d : Dev) (c : CoreId) (r : Row) (portFree : Bool) : Dev :=
  let d1 := d.takeDelivered c r
  if r.tag = 0xFF then d1.fillRow c r
  else if r.head then d1.headRow c (d1.core c) r portFree
  else d1.dataRow c (d1.core c) r portFree

/-- ROW_ARRIVAL (R115, R157). -/
def execRowArrival (c : CoreId) (r : Row) (portFree : Bool) (s : State) : Host.Outcome State Fault Refusal :=
  s.onCore c (fun d => d.arrive c r portFree)

/-- SCHEDULE_FILL (R162): a row with tag 0xFF at a router's L output; any other row is left to ROW_ARRIVAL. -/
def execScheduleFill (c : CoreId) (r : Row) (s : State) : Host.Outcome State Fault Refusal :=
  s.onCore c (fun d => if r.tag = 0xFF then (d.takeDelivered c r).fillRow c r else d)

/-- A row of a Porter STORE read goes to its stream; the counter gains its increment with the last row (R155, R219).  A core in RESET
gives a zero row that carries poison in its place (R380). -/
def Core.readRow (k : Core) (addr stream : Nat) (last : Bool) (dtag : BitVec 8) (ctr : Option (BitVec 6 × BitVec 8))
    (bad : Bool) : Core :=
  if k.run = .reset then { k with inj := k.inj ++ [⟨stream, ⟨0, false, last, true, dtag⟩⟩] }
  else
    let row : Row := ⟨BitVec.ofNat 512 (k.load addr 64), false, last, bad || k.rowPoisoned addr, dtag⟩
    let k1 := k.slotAt addr
    let k2 := { k1 with inj := k1.inj ++ [⟨stream, row⟩], acct := { k1.acct with inject := k1.acct.inject + 1 } }
    if last then
      match ctr with
      | some (n, inc) => k2.advance n.toNat inc.toNat .other
      | none => k2
    else k2

/-- REMOTE_QUEUE_RETIRE: the head of a remote queue takes the port (R115).  A contribution row leaves under TALLY_ROW_ADD, and a
read waits while the injection buffer is full (R155). -/
def Dev.queueRetire (d : Dev) (c : CoreId) (m : Nat) : Dev :=
  let k := d.core c
  match k.queue m with
  | .write addr data poison tag :: q =>
    let d1 := d.remoteWrite c (k.setQueue m q) addr data poison tag
    d1.upd c (fun k => k.passAhead m)
  | .read addr stream last dtag ctr :: q =>
    if 64 ≤ k.inj.length then d
    else d.setCore c (((k.setQueue m q).readRow addr stream last dtag ctr false).passAhead m)
  | .contrib _ _ _ _ _ _ :: _ => d
  | [] => d

def execRemoteQueueRetire (c : CoreId) (m : BitVec 2) (s : State) : Host.Outcome State Fault Refusal :=
  s.onCore c (fun d => d.queueRetire c m.toNat)

end Sys2Proof.Machine
end

