-- ==== Sys2Proof/Machine/Units.lean ====
section
/-! DEFINITION. The vector, tensor and scatter instructions of the core, their completions, and the row slots they use
(R41, R42, R46, R64, R100 to R103, R111, R174, R175, R178, R179, R472). -/

namespace Sys2Proof.Machine

/-! Row slots (R111, R174, R178, R179). -/

/-- The 64-byte rows that elements `i` to `i + n - 1` of one tensor row touch. -/
def Desc.touch (d : Desc) (i n : Nat) : Nat :=
  let hi := min (i + n) d.cols
  if hi ≤ i then 0 else cdiv (hi * d.format.width) 512 - i * d.format.width / 512

/-- The distinct scale rows and metadata rows that hold entries of elements `i` to `i + n - 1` of rows `r` to `r + m - 1`. -/
def Desc.sideTouch (d : Desc) (r m i n : Nat) : Nat :=
  let hi := min (i + n) d.cols
  if hi ≤ i then 0
  else
    let sc := if d.format.mx then
        (((List.range m).flatMap (fun x => (List.range (cdiv hi 32 - i / 32)).map
          (fun y => ((r + x) * d.blocks + i / 32 + y) / 64))).eraseDups).length
      else 0
    let me := if d.sp24 then
        (((List.range m).flatMap (fun x => [((r + x) * d.cols + i) * 2 / 512, ((r + x) * d.cols + hi - 1) * 2 / 512])).eraseDups).length
      else 0
    sc + me

/-- The slots of an operand block of `m` tensor rows from `r`, elements `i` to `i + n - 1`, rows beyond `actual` padded (R180). -/
def Desc.blockSlots (d : Desc) (actual r m i n : Nat) : Nat :=
  let rows := min (r + m) (min actual d.rows) - r
  rows * d.touch i n + d.sideTouch r rows i n

/-- Slots of dA, of dB and of dD over the blocks of a tile; positions beyond K_act are padded, and a null
pass that writes nothing takes no slot (R178, R179, R182, R190). -/
def TensorOp.slotWalk (o : TensorOp) : Nat × Nat × Nat :=
  let a := Desc.ofBits o.dA
  let b := Desc.ofBits o.dB
  let dD := Desc.ofBits o.dD
  let depth := blockDepth o.shape a.cls
  let (rows, cols) := o.written
  let dSlots := fun (m n width : Nat) =>
    (min (32 * m + 32) rows - 32 * m) * (let hi := min (32 * n + 32) cols
      if hi ≤ 32 * n then 0 else cdiv (hi * width) 512 - 32 * n * width / 512)
  let kAct := o.extents.2.2
  let kept := 2 * cdiv kAct 4
  let part := fun (i n lim : Nat) => min n (lim - i)
  let aSlots := fun (m k : Nat) =>
    let n := if b.sp24 then 2 * depth else depth
    a.blockSlots o.rowsA (32 * m) 32 (k * n) (part (k * n) n (if a.sp24 then kept else kAct))
  let bSlots := fun (k n : Nat) =>
    if b.sp24 then b.blockSlots o.rowsB (32 * n) 32 (k * depth) (part (k * depth) depth kept)
    else
      let dk := if a.sp24 then 2 * depth else depth
      b.blockSlots (min o.rowsB kAct) (k * dk) dk (32 * n) 32
  let finW := dD.format.width
  let step := fun (st : (Nat × Nat × Nat) × Option (Nat × Nat × Nat)) (x : Nat × Nat × Nat) =>
    let ((sa, sb, sd), prev) := st
    let (m, n, k) := x
    let sa := if (prev.map (fun p => (p.1, p.2.2))) = some (m, k) then sa else sa + aSlots m k
    let sb := if (prev.map (fun p => (p.2.2, p.2.1))) = some (k, n) then sb else sb + bSlots k n
    let sd := if (prev.map (fun p => (p.1, p.2.1))) = some (m, n) then sd
      else sd
        + (match prev with
            | some p => dSlots p.1 p.2.1 (if p.2.2 + 1 < o.kBlocks then 32 else finW)
            | none => 0)
        + (if 0 < k || o.acc then dSlots m n 32 else 0)
    ((sa, sb, sd), some x)
  let (tot, last) := o.blockList.foldl step ((0, 0, 0), none)
  if rows = 0 ∨ cols = 0 then (0, 0, 0)
  else match last with
  | some p => (tot.1, tot.2.1, tot.2.2 + dSlots p.1 p.2.1 finW)
  | none => (0, 0, if o.acc then 0 else rows * cdiv (cols * finW) 512)

/-- The port of a descriptor's memory. -/
def Desc.port (d : Desc) : Nat := ((regionOf d.base).map (fun r => portOf r.1)).getD 0

/-- The row slots of a finished tensor operation are counted in their memories. -/
def Core.opSlots (k : Core) (o : TensorOp) : Core :=
  let a := Desc.ofBits o.dA
  let b := Desc.ofBits o.dB
  let dD := Desc.ofBits o.dD
  match o.kind with
  | .tmm =>
    let (sa, sb, sd) := o.slotWalk
    ((k.slots a.port sa).slots b.port sb).slots dD.port sd
  | .tcvt =>
    let n := min o.rowsD o.rowsA
    (k.slots a.port (n * a.span + a.scaleRows n)).slots dD.port (o.rowsD * dD.span + dD.scaleRows o.rowsD)
  | .tscat =>
    (k.slots a.port (o.rowsA * a.span)).slots b.port (cdiv o.rowsA b.cols * b.span)

/-! VOP (R41). -/

/-- VOP: checked, then the vector unit runs and the sequencer is blocked until VOP_COMPLETE. -/
def Dev.vop (d : Dev) (c : CoreId) (f : BitVec 26) (w : Nat) : Dev :=
  let vf := fld f 8 6
  let rD := fld f 22 4
  let rA := fld f 18 4
  let rB := fld f 14 4
  let bin := vopBinary vf
  let illegal := !(vopValid vf) || fld f 0 7 != 0 || (!bin && (rB != 0 || fld f 7 1 != 0))
  d.instr c 0x28 f illegal [] (if bin then [rD, rA, rB] else [rD, rA]) (fun k0 =>
    let k := k0.settleWait w
    match k.vopFault rD rA rB vf (fld f 7 1 == 1) with
    | some e => d.fault c k e
    | none =>
      let dD := k.desc rD
      let o : VopOp :=
        { vfunc := vf, bcast := fld f 7 1 == 1, dD := k.dr rD, dA := k.dr rA, dB := k.dr rB,
          rowsD := k.actualRows dD, rowsA := k.actualRows (k.desc rA), rowsB := k.actualRows (k.desc rB),
          frm := k.frm, lfsr := k.lfsr, dur := 0 }
      if k.holds (dD.spans ++ (k.desc rA).spans ++ (if bin then (k.desc rB).spans else [])) then
        d.block c k (wordOf 0x28 f) (.interlock true)
      else
        let narrow := !(dD.format == .fp32 || dD.format == .fp64)
        let n := if narrow && dD.rnd == 2 then dD.rows * dD.cols else 0
        d.setCore c { k with vop := some { o with dur := o.ck }, lfsr := lfsrSteps (16 * n) k.lfsr,
                             wait := some ⟨wordOf 0x28 f, .vop, 0⟩ })

def execVop (c : CoreId) (f : BitVec 26) (w : Nat) (s : State) : Host.Outcome State Fault Refusal :=
  s.onCore c (fun d => d.vop c f w)

/-- Rows that a tensor or vector operation writes to a tier outside the mask change nothing; each is counted and reported (R120). -/
def Dev.offMaskRows (d : Dev) (c : CoreId) (o : Desc) (n : Nat) : Dev :=
  if (d.core c).addrOff o.base then (o.rowAddrs n).foldl (fun d a => d.offMaskWrite c (d.core c) a) d else d

/-- The last result row of the VOP retires and the sequencer goes on. -/
def Dev.vopComplete (d : Dev) (c : CoreId) : Dev :=
  let k := d.core c
  match k.vop with
  | none => d
  | some o =>
    let k1 := { k.vopWrite o o.rowsD with vop := none }
    let k2 := o.slots.foldl (fun k p => k.slots p.1 p.2) k1
    (d.retire c k2 o.dur).offMaskRows c (Desc.ofBits o.dD) o.rowsD

def execVopComplete (c : CoreId) (s : State) : Host.Outcome State Fault Refusal :=
  s.onCore c (fun d => d.vopComplete c)

/-! Tensor issue (R42, R46, R64). -/

/-- The arcade controller of a core. -/
def Dev.arcade (d : Dev) (n : Nat) : Arcade := Tab.get (fun _ => Arcade.reset) d.arcades n
def Dev.setArcade (d : Dev) (n : Nat) (a : Arcade) : Dev :=
  { d with arcades := Tab.set (fun _ => Arcade.reset) d.arcades n a }
def arcadeNo (c : CoreId) : Nat := arcadeOf c.x.toNat c.y.toNat

/-- A TMM issue of an arcade counts toward its next spot check, and a core in recovery queues a request (R106, R108). -/
def Dev.countTmm (d : Dev) (c : CoreId) (recovery : Bool) : Dev :=
  let a := d.arcade (arcadeNo c)
  d.setArcade (arcadeNo c)
    { a with countdown := if d.get WARD_SPOT_CFG_en = 1 then a.countdown - 1 else a.countdown,
             queue := if recovery then a.queue ++ [⟨c.key, false⟩] else a.queue }

/-- The LFSR after the draws that an instruction reserves at issue (R64). -/
def Core.reserve (k : Core) (d : Desc) (rounds : Bool) : BitVec 32 :=
  if rounds && d.rnd == 2 then lfsrSteps (16 * (d.rows * d.cols)) k.lfsr else k.lfsr

/-- The operation that a T-format instruction asks for. -/
def Core.tensorOp (k : Core) (kind : TensorKind) (f : BitVec 26) : TensorOp :=
  let rD := fld f 22 4
  let rA := fld f 18 4
  let rB := fld f 14 4
  { kind := kind, ctr := BitVec.ofNat 6 (fld f 8 6), dD := k.dr rD, dA := k.dr rA, dB := k.dr rB,
    shape := fld f 5 3, order := fld f 3 2, bias := fld f 2 1 == 1, acc := kind == .tmm && fld f 1 1 == 1,
    rowsD := k.actualRows (k.desc rD), rowsA := k.actualRows (k.desc rA), rowsB := k.actualRows (k.desc rB),
    lfsr := k.lfsr, booked := 0, onCheck := kind == .tmm && k.recovery, spot := none, done := false }

/-- A tensor instruction: checked, held back by a full queue or another unit's footprint, then issued in 2 ck (R42, R46).  The
booked completion is that of a unit with its ports to itself (R103, R175, R472). -/
def Dev.tensor (d : Dev) (c : CoreId) (op : Nat) (f : BitVec 26) (w : Nat) (kind : TensorKind) (illegal : Bool)
    (ds : List Nat) (check : Core → Option CoreFault) (rounds : Core → Bool) : Dev :=
  d.instr c op f illegal [] ds (fun k0 =>
    let k := k0.settleWait w
    match check k with
    | some e => d.fault c k e
    | none =>
      let o := k.tensorOp kind f
      let own := if kind = .tmm then k.tmm else k.mov
      let other := if kind = .tmm then k.mov else k.tmm
      if 4 ≤ own.length then d.block c k (wordOf op f) (.interlock true)
      else if unitConflict o other then d.block c k (wordOf op f) (.interlock true)
      else
        let free := if kind = .tmm then k.tmmFree else k.movFree
        let fin := max (k.cycle.toNat + 2) free + o.bookedCk - 1
        let o' := { o with booked := fin }
        let lf := k.reserve (k.desc (fld f 22 4)) (rounds k)
        let k' := if kind = .tmm then { k with tmm := k.tmm ++ [o'], tmmFree := fin + 1, lfsr := lf }
          else { k with mov := k.mov ++ [o'], movFree := fin + 1, lfsr := lf }
        let d' := if kind = .tmm then d.countTmm c k.recovery else d
        d'.retire c k' 2)

/-- TMM: shape codes 5 to 7 and order 3 are ILLEGAL (R42). -/
def execTmm (c : CoreId) (f : BitVec 26) (w : Nat) (s : State) : Host.Outcome State Fault Refusal :=
  s.onCore c (fun d => d.tensor c 0x20 f w .tmm (fld f 0 1 != 0 || decide (4 < fld f 5 3) || fld f 3 2 == 3)
    [fld f 22 4, fld f 18 4, fld f 14 4]
    (fun k => k.tmmFault (fld f 22 4) (fld f 18 4) (fld f 14 4) (fld f 5 3) (fld f 3 2) (fld f 1 1 == 1))
    (fun k => !((k.desc (fld f 22 4)).format == .fp32 || (k.desc (fld f 22 4)).format == .fp64)))

/-- TCVT: the dB, shape, order, bias_comp and acc fields must be 0 (R35, R42). -/
def execTcvt (c : CoreId) (f : BitVec 26) (w : Nat) (s : State) : Host.Outcome State Fault Refusal :=
  s.onCore c (fun d => d.tensor c 0x21 f w .tcvt (fld f 0 8 != 0 || fld f 14 4 != 0) [fld f 22 4, fld f 18 4]
    (fun k => k.tcvtFault (fld f 22 4) (fld f 18 4))
    (fun k => tcvtRounds (k.desc (fld f 18 4)) (k.desc (fld f 22 4))))

def execTscat (c : CoreId) (f : BitVec 26) (w : Nat) (s : State) : Host.Outcome State Fault Refusal :=
  s.onCore c (fun d => d.tensor c 0x22 f w .tscat (fld f 0 8 != 0) [fld f 22 4, fld f 18 4, fld f 14 4]
    (fun k => k.tscatFault (fld f 22 4) (fld f 18 4) (fld f 14 4)) (fun _ => false))

/-! Completions. -/

/-- An operation leaves its unit: its counter gains 1 (R42), and waits for it know its booked completion (R103). -/
def Core.finishOp (k : Core) (o : TensorOp) (cause : Nat) : Core :=
  { (k.opSlots o).advance o.ctr.toNat 1 (.tensor o.booked cause) with lastUnit := (o.booked, cause) }

/-- The first operation of the matrix engine whose result is not written yet: its rows are written; its counter gains 1 unless a spot
check holds it (R106, R175). -/
def Core.tmmFinish (k : Core) : Core :=
  let pre := k.tmm.takeWhile (fun o => o.done)
  match k.tmm.dropWhile (fun o => o.done) with
  | [] => k
  | o :: rest =>
    let k' := k.tmmWrite o o.written.1
    if o.spot.isSome then { k' with tmm := pre ++ { o with done := true } :: rest }
    else ({ k' with tmm := pre ++ rest }).finishOp o (if o.onCheck then 0xB else 0)

/-- TMM_COMPLETE: the matrix engine's work only; work on the check engine ends under CHECK_ENGINE_REQUEST (R108). -/
def Dev.tmmComplete (d : Dev) (c : CoreId) : Dev :=
  match (d.core c).tmm.dropWhile (fun o => o.done) with
  | o :: _ => if o.onCheck then d else d.upd c Core.tmmFinish
  | [] => d

def execTmmComplete (c : CoreId) (s : State) : Host.Outcome State Fault Refusal :=
  s.onCore c (fun d => d.tmmComplete c)

def Dev.tcvtComplete (d : Dev) (c : CoreId) : Dev :=
  let k := d.core c
  match k.mov with
  | o :: rest =>
    if o.kind = .tcvt then
      (d.setCore c (({ k.tcvtWrite o o.rowsD with mov := rest }).finishOp o 0)).offMaskRows c (Desc.ofBits o.dD) o.rowsD
    else d
  | [] => d

def execTcvtComplete (c : CoreId) (s : State) : Host.Outcome State Fault Refusal :=
  s.onCore c (fun d => d.tcvtComplete c)

/-! The scatter path (R101, R102). -/

/-- The queue and the service of a bank. -/
def Scatter.queue (s : Scatter) (b : Nat) : List RowAdd := Tab.get (fun _ => []) s.queues b
def Scatter.bank (s : Scatter) (b : Nat) : Option BankBusy := Tab.get (fun _ => none) s.busy b

/-- Row adds in service come one ck nearer their end; one that ends writes back the row of its first ck plus its addend
(R102, R118). -/
def Core.scatService (k : Core) : Core :=
  (List.range 16).foldl (fun k b =>
    match k.scat.bank b with
    | none => k
    | some x =>
      if 1 < x.left then
        { k with scat := { k.scat with busy := Tab.set (fun _ => none) k.scat.busy b (some { x with left := x.left - 1 }) } }
      else
        let k' := match x.add.target with
          | some r => k.store (0x80000 + r * 64) 64 (addRow x.old x.add.addend).toNat
              (x.add.poison || k.rowPoisoned (0x80000 + r * 64))
          | none => k
        { k' with scat := { k'.scat with busy := Tab.set (fun _ => none) k'.scat.busy b none, lastEnd := k.scat.ck } }) k

/-- At most one row add starts: the free bank whose head was pushed earliest, when the PM port is free (R102, step 1). -/
def Core.scatStart (k : Core) (portFree : Bool) : Core :=
  let s := k.scat
  let ready := (List.range 16).filterMap (fun b =>
    match s.bank b, s.queue b with
    | none, a :: _ => some (a.pushedAt, b)
    | _, _ => none)
  match ready with
  | [] => k
  | r :: rs =>
    if portFree then
      let b := (rs.foldl (fun m x => if x.1 < m.1 then x else m) r).2
      match s.queue b with
      | [] => k
      | a :: q =>
        let old := BitVec.ofNat 512 (Memory.readN k.mem (0x80000 + a.target.getD 0 * 64) 64)
        let k' := k.slots 2 1
        { k' with scat := { s with queues := Tab.set (fun _ => []) s.queues b q,
                                   busy := Tab.set (fun _ => none) s.busy b (some ⟨a, old, 4⟩) } }
    else k

/-- The mover pushes its next row add unless that bank's queue holds 8 entries (R102, step 2). -/
def Core.scatPush (k : Core) : Core :=
  let s := k.scat
  match s.todo with
  | [] => k
  | a :: rest =>
    match a.target with
    | none => { k with scat := { s with todo := rest, lastPush := s.ck } }
    | some r =>
      let q := s.queue (r % 16)
      if 8 ≤ q.length then k
      else { k with scat := { s with todo := rest, lastPush := s.ck,
                                     queues := Tab.set (fun _ => []) s.queues (r % 16) (q ++ [{ a with pushedAt := s.ck }]) } }

/-- The scatter path takes up the TSCAT at the head of the mover. -/
def Core.scatBegin (k : Core) : Core :=
  if k.scat.active then k
  else match k.mov with
    | o :: _ =>
      if o.kind = .tscat then
        { (k.bump CORE_SCAT_STAT_oob (k.scatSkipped o)) with
          scat := { Scatter.idle with active := true, todo := k.scatAll o } }
      else k
    | [] => k

/-- One ck of the scatter path. -/
def Core.scatCk (k : Core) (portFree : Bool) : Core :=
  let k1 := k.scatBegin
  if k1.scat.active then
    let k2 := ((k1.scatService).scatStart portFree).scatPush
    { k2 with scat := { k2.scat with ck := k2.scat.ck + 1 } }
  else k1

def execScatterRowAdd (c : CoreId) (portFree : Bool) (s : State) : Host.Outcome State Fault Refusal :=
  s.onCore c (fun d => d.upd c (fun k => k.scatCk portFree))

/-- Whether every row add of the TSCAT has ended. -/
def Scatter.drained (s : Scatter) : Bool :=
  s.todo.isEmpty && s.queues.all (fun p => p.2.isEmpty) && s.busy.all (fun p => p.2.isNone)

/-- TSCAT_COMPLETE: the last row add has ended and the counter advances; a null pass never enters the scatter path (R100, R102). -/
def Dev.tscatComplete (d : Dev) (c : CoreId) : Dev :=
  let k := d.core c
  match k.mov with
  | o :: rest =>
    if o.kind = .tscat ∧ (o.rowsA = 0 ∨ (k.scat.active = true ∧ k.scat.drained = true)) then
      d.setCore c (({ k with mov := rest, scat := Scatter.idle }).finishOp o 6)
    else d
  | [] => d

def execTscatComplete (c : CoreId) (s : State) : Host.Outcome State Fault Refusal :=
  s.onCore c (fun d => d.tscatComplete c)

end Sys2Proof.Machine
end

