-- ==== Sys2Proof/Machine/CheckEngine.lean ====
section
/-! DEFINITION. The check engines of the arcades: spot checks and recovery (R104 to R109). -/

namespace Sys2Proof.Machine

/-- Whether a core of an arcade is in recovery. -/
def Dev.arcadeRecovers (d : Dev) (n : Nat) : Bool :=
  d.cores.any (fun p => p.2.recovery && arcadeOf (p.1 % 256) (p.1 / 256) == n)

/-- A TMM's spot check: a segment of 16 consecutive elements of one tensor row, drawn by the arcade controller (R106; log 1). -/
def TensorOp.segment (o : TensorOp) (v : Nat) : SpotCheck :=
  let dD := Desc.ofBits o.dD
  let per := max 1 (cdiv dD.cols 16)
  ⟨v / per % max 1 o.rowsD, v % per * 16⟩

/-- The last TMM that a core has issued and that has no check gets one. -/
def markLast (v : Nat) : List TensorOp → List TensorOp
  | [] => []
  | [o] => [if o.spot.isNone && !o.done && !o.onCheck then { o with spot := some (o.segment v) } else o]
  | o :: os => o :: markLast v os

/-- SPOT_CHECK_SELECT: with spot checks on, a working check engine, no core of the arcade in recovery and the count expired, the TMM is
selected, its request queues, and the next count is drawn from 1 to 2^(period + 1) (R106, R109). -/
def Dev.spotSelect (d : Dev) (c : CoreId) : Dev :=
  let n := arcadeNo c
  let a := d.arcade n
  let k := d.core c
  let free := match k.tmm.getLast? with | some o => o.spot.isNone && !o.done && !o.onCheck | none => false
  if d.get WARD_SPOT_CFG_en = 1 ∧ a.working = true ∧ a.countdown = 0 ∧ d.arcadeRecovers n = false ∧ free = true then
    let (v1, d1) := d.free
    let (v2, d2) := d1.free
    (d2.setCore c { k with tmm := markLast v1 k.tmm }).setArcade n
      { a with countdown := v2 % 2 ^ (d.get WARD_SPOT_CFG_period + 1) + 1, queue := a.queue ++ [⟨c.key, true⟩] }
  else d

def execSpotCheckSelect (c : CoreId) (s : State) : Host.Outcome State Fault Refusal := s.onCore c (fun d => d.spotSelect c)

/-- CHECK_ENGINE_REQUEST: the request at the head of the arcade's queue is served: a spot check is recomputed and waits for its comparison; a
TMM of a core in recovery is run, once the core's earlier TMMs have ended, with the bits of the matrix engine (R104, R106, R108). -/
def Dev.checkRequest (d : Dev) (n : Nat) : Dev :=
  let a := d.arcade n
  match a.queue with
  | [] => d
  | r :: rest =>
    if a.working = false ∨ a.recomputed = true then d
    else if r.spot then d.setArcade n { a with recomputed := true }
    else
      let c := coreOfKey r.core
      match (d.core c).tmm.dropWhile (fun o => o.done) with
      | o :: _ =>
        if o.onCheck then
          ((d.setArcade n { a with queue := rest }).upd c Core.tmmFinish).count (fun x => { x with recovery := true })
        else d
      | [] => d.setArcade n { a with queue := rest }

def execCheckEngineRequest (arcade : BitVec 10) (s : State) : Host.Outcome State Fault Refusal :=
  s.onDev (fun d => d.checkRequest arcade.toNat)

/-- A mismatch: counted, recorded, reported, and the matrix engine marked faulty; from the next TMM on the core is in recovery where the
arcade's check engine works (R107 to R109). -/
def Dev.spotMismatch (d : Dev) (c : CoreId) : Dev :=
  let k := d.core c
  let d1 := (((d.bump WARD_SPOT_FAILS_count 1).put WARD_SPOT_LAST_arcade (arcadeNo c)).put WARD_SPOT_LAST_core
    (c.y.toNat % 4 * 4 + c.x.toNat % 4)).count (fun n => { n with spotFails := n.spotFails + 1 })
  (d1.setCore c { k with meFaulty := true, recovery := (d.arcade (arcadeNo c)).working }).raise 0x0032 (k.errAt c 0)

/-- SPOT_CHECK_COMPARE: a recomputed segment of a TMM whose result is written is compared; the TMM then leaves its unit and its counter
advances (R106, R107). -/
def Dev.spotCompare (d : Dev) (c : CoreId) (ok : Bool) : Dev :=
  let n := arcadeNo c
  let a := d.arcade n
  let k := d.core c
  match a.queue, k.tmm.find? (fun o => o.spot.isSome && o.done) with
  | r :: rest, some o =>
    if r.core = c.key ∧ r.spot = true ∧ a.recomputed = true then
      let d1 := d.setArcade n { a with queue := rest, recomputed := false }
      let d2 := d1.setCore c ({ k with tmm := k.tmm.erase o }.finishOp o 0xB)
      let d3 := d2.put WARD_SPOT_CHECKS_count ((d.get WARD_SPOT_CHECKS_count + 1) % 2 ^ 32)
      if ok then d3 else d3.spotMismatch c
    else d
  | _, _ => d

def execSpotCheckCompare (c : CoreId) (ok : Bool) (s : State) : Host.Outcome State Fault Refusal :=
  s.onCore c (fun d => d.spotCompare c ok)

end Sys2Proof.Machine
end

