-- ==== Sys2Proof/Machine/Control.lean ====
section
/-! DEFINITION. Counter, Porter request, fence, rank, CSR and halt instructions of the core (R30, R31, R33, R34, R44). -/

namespace Sys2Proof.Machine

/-! Counters. -/

/-- A counter wait that is satisfied retires, or raises POISON when the counter's poison bit is set (R30, R223).  A wait whose entry
has cause EPOCH_TURN closes the window (R191). -/
def Dev.counterRetire (d : Dev) (c : CoreId) (k : Core) (ctr n : Nat) : Dev :=
  match Tab.get (fun _ => (none : CtrPoison)) k.cPoison ctr with
  | some a => (d.fault c (k.counterWait ctr n) (.poison, a.toNat)).raise 0x0014 (k.errAt c a.toNat)
  | none =>
    let cause := ((k.booking k.pc).map (fun b => b.1)).getD 0
    let k1 := (k.counterWait ctr n).spendIssue 1
    let k2 := if cause = 12 then k1.closeWindow (d.get WARD_BUCKET_STAT_variant) else k1
    (d.retireTo c k2 (k.pc + 1)).waited c k (k.counterCharged ctr n)

/-- WAITC or WAITCR on counter `ctr` with target `t`. -/
def Dev.waitOp (d : Dev) (c : CoreId) (k : Core) (word : BitVec 32) (ctr : Nat) (t : BitVec 32) : Dev :=
  if counterMet (k.cr ctr) t then d.counterRetire c k ctr 0
  else d.block c k word (.counter (BitVec.ofNat 6 ctr) t)

/-- WAITC: target imm20, zero-extended (R44). -/
def execWaitc (c : CoreId) (f : BitVec 26) (s : State) : Host.Outcome State Fault Refusal :=
  s.onCore c (fun d => d.instr c 0x34 f false [] [] (fun k =>
    d.waitOp c k (wordOf 0x34 f) (fld f 20 6) (BitVec.ofNat 32 (fld f 0 20))))

/-- WAITCR: target register [19:15] (R44). -/
def execWaitcr (c : CoreId) (f : BitVec 26) (s : State) : Host.Outcome State Fault Refusal :=
  s.onCore c (fun d => d.instr c 0x35 f (fld f 0 15 != 0) [fld f 15 5] [] (fun k =>
    d.waitOp c k (wordOf 0x35 f) (fld f 20 6) ((k.gr (fld f 15 5)).setWidth 32)))

/-- The counter wait of the core retires once its counter satisfies it (R30). -/
def Dev.counterWaitRetire (d : Dev) (c : CoreId) (w : Nat) : Dev :=
  let k := d.core c
  match k.wait with
  | some ⟨_, .counter n t, _⟩ =>
    if k.run == .run && counterMet (k.cr n.toNat) t then d.counterRetire c k n.toNat w else d
  | _ => d

def execCounterWaitRetire (c : CoreId) (w : Nat) (s : State) : Host.Outcome State Fault Refusal :=
  s.onCore c (fun d => d.counterWaitRetire c w)

/-- CSETC: counter := register bits [31:0]; its poison bit clears (R31, R223). -/
def execCsetc (c : CoreId) (f : BitVec 26) (s : State) : Host.Outcome State Fault Refusal :=
  s.onCore c (fun d => d.instr c 0x36 f (fld f 0 15 != 0) [fld f 15 5] [] (fun k =>
    let k1 := k.setCr (fld f 20 6) ((k.gr (fld f 15 5)).setWidth 32)
    d.retire c { k1 with cPoison := Tab.set (fun _ => none) k1.cPoison (fld f 20 6) none } 1))

/-- CRD: register := counter, zero-extended (R31, R44). -/
def execCrd (c : CoreId) (f : BitVec 26) (s : State) : Host.Outcome State Fault Refusal :=
  s.onCore c (fun d => d.instr c 0x37 f (fld f 0 15 != 0) [] [] (fun k =>
    d.writeResult c k (fld f 15 5) ((k.cr (fld f 20 6)).setWidth 64) 2))

/-! Errand requests (R44, R159, R171). -/

/-- The wait of an instruction of R171 ends and it retires, with `f` done to the core. -/
def Dev.errandRetire (d : Dev) (c : CoreId) (k : Core) (cost : Nat) (f : Core → Core) : Dev :=
  (d.retire c (f (k.bookWait 9 k.stallWaited)) cost).waited c k k.stallWaited

/-- A packet enters the injection queue, or the instruction waits for a place (R171). -/
def Dev.errandIssue (d : Dev) (c : CoreId) (k : Core) (word : BitVec 32) (cost : Nat) (p : Packet) (f : Core → Core) : Dev :=
  if 8 ≤ k.errand.length then d.block c k word (.stall 9)
  else d.errandRetire c k cost (fun k => f { k with errand := k.errand ++ [p] })

/-- The router of a stack's service ports (R169). -/
def stackRouter (rows stack : Nat) : Nat × Nat := (24 * (stack % 4) + 12, if stack < 4 then 0 else rows - 1)

/-- PREQ: the target register, then the 32-byte descriptor in AM (R23, R44, R471). -/
def Dev.preqOp (d : Dev) (c : CoreId) (f : BitVec 26) (w : Nat) : Dev :=
  d.instr c 0x38 f false [fld f 21 5, fld f 16 5] [] (fun k0 =>
    let k := k0.settleWait w
    let t := (k.gr (fld f 21 5)).toNat
    let a := k.addr f
    if 64 ≤ t ∨ 5 < bits t 3 3 then d.fault c k (.addr, wrap 32 t)
    else if a % 32 ≠ 0 then d.fault c k (.align, wrap 32 a)
    else if a < 0x40000 ∨ 0x60000 ≤ a then d.fault c k (.addr, wrap 32 a)
    else
      let (x, y) := stackRouter d.rows (bits t 0 3)
      let v := Memory.readN k.mem a 32
      d.errandIssue c k (wordOf 0x38 f) 4
        (k.packet c 0x04 x y 2 (bits t 3 3) 0 0 [BitVec.ofNat 128 v, BitVec.ofNat 128 (v / 2 ^ 128)])
        (fun k => k.slotAt a))

def execPreq (c : CoreId) (f : BitVec 26) (w : Nat) (s : State) : Host.Outcome State Fault Refusal :=
  s.onCore c (fun d => d.preqOp c f w)

/-- Whether a job is the epoch owner (R158). -/
def Dev.ownsEpoch (d : Dev) (job : BitVec 16) (jgen : BitVec 8) : Bool :=
  d.get MESH_EPOCH_CTL_owner_valid == 1 && d.get MESH_EPOCH_CTL_owner_job == job.toNat
    && d.get MESH_EPOCH_CTL_owner_gen == jgen.toNat

/-- Whether (x, y) is a core of the job of core `k`. -/
def Dev.inJob (d : Dev) (k : Core) (t : CoreId) : Bool :=
  let o := d.core t
  d.logical t && o.image.present && o.job == k.job && o.jgen == k.jgen

/-- ERRINC: adds imm15 to a counter of a core of the job, or votes for an epoch turn at 0xFEFE (R44, R159). -/
def Dev.errincOp (d : Dev) (c : CoreId) (f : BitVec 26) (w : Nat) : Dev :=
  d.instr c 0x3E f false [fld f 21 5] [] (fun k0 =>
    let k := k0.settleWait w
    let t := bits (k.gr (fld f 21 5)).toNat 0 16
    let x := bits t 0 8
    let y := bits t 8 8
    let inl := fld f 15 6 + fld f 0 15 * 2 ^ 6
    if t = 0xFEFE then
      if d.ownsEpoch k.job k.jgen then d.errandIssue c k (wordOf 0x3E f) 2 (k.packet c 0x03 0 0 2 1 0 inl []) id
      else d.fault c k (.addr, t)
    else if d.inJob k ⟨BitVec.ofNat 8 x, BitVec.ofNat 8 y⟩ then
      d.errandIssue c k (wordOf 0x3E f) 2 (k.packet c 0x03 x y 0 0 0 inl []) id
    else d.fault c k (.addr, t))

def execErrinc (c : CoreId) (f : BitVec 26) (w : Nat) (s : State) : Host.Outcome State Fault Refusal :=
  s.onCore c (fun d => d.errincOp c f w)

/-- A packet at the head of the injection queue is accepted onto the errand network (R171). -/
def Dev.errandInject (d : Dev) (c : CoreId) : Dev :=
  match (d.core c).errand with
  | [] => d
  | p :: rest => (d.upd c (fun k => { k with errand := rest })).send p

def execErrandInject (c : CoreId) (s : State) : Host.Outcome State Fault Refusal :=
  s.onCore c (fun d => d.errandInject c)

/-! FENCE, ranks, HALT. -/

/-- FENCE: waits for the classes of imm[3:0] (R44). -/
def Dev.fenceOp (d : Dev) (c : CoreId) (f : BitVec 26) (w : Nat) : Dev :=
  let m := fld f 0 16
  d.instr c 0x39 f (fld f 16 10 != 0 || m == 0 || decide (16 ≤ m)) [] [] (fun k0 =>
    let k := k0.settleWait w
    if (bit m 0 && !k.tmm.isEmpty) || (bit m 1 && !k.mov.isEmpty) then d.block c k (wordOf 0x39 f) (.interlock true)
    else if bit m 2 && !k.stores.isEmpty then d.block c k (wordOf 0x39 f) (.interlock false)
    else if bit m 3 && !k.errand.isEmpty then d.block c k (wordOf 0x39 f) (.stall 9)
    else if bit m 3 then d.errandRetire c k 1 id
    else d.retire c k 1)

def execFence (c : CoreId) (f : BitVec 26) (w : Nat) (s : State) : Host.Outcome State Fault Refusal :=
  s.onCore c (fun d => d.fenceOp c f w)

/-- RANKUP: imm16 equal to CSR_RANK or greater in rank order (R33, R44). -/
def execRankup (c : CoreId) (f : BitVec 26) (s : State) : Host.Outcome State Fault Refusal :=
  s.onCore c (fun d => d.instr c 0x3A f (fld f 16 10 != 0) [] [] (fun k =>
    let r := fld f 0 16
    if r == k.rank.toNat || rankGt r k.rank.toNat then d.retire c { k with rank := BitVec.ofNat 16 r } 1
    else d.fault c k (.rank, k.rank.toNat + r * 2 ^ 16)))

/-- SLOTNEXT: the next slot with stage 0; imm16 must be 0 (R44). -/
def execSlotnext (c : CoreId) (f : BitVec 26) (s : State) : Host.Outcome State Fault Refusal :=
  s.onCore c (fun d => d.instr c 0x3B f (f != 0) [] [] (fun k =>
    d.retire c { k with rank := BitVec.ofNat 16 ((bits k.rank.toNat 8 8 + 1) % 256 * 256) } 1))

/-- HALT: waits for tensor work and stores, then records the exit code, closes the window and the endpoints and reports
(R44, R138, R191). -/
def Dev.haltOp (d : Dev) (c : CoreId) (f : BitVec 26) (w : Nat) : Dev :=
  d.instr c 0x3F f (fld f 16 10 != 0) [] [] (fun k0 =>
    let k := k0.settleWait w
    if !k.tmm.isEmpty || !k.mov.isEmpty then d.block c k (wordOf 0x3F f) (.interlock true)
    else if !k.stores.isEmpty then d.block c k (wordOf 0x3F f) (.interlock false)
    else
      let k1 := (k.spendIssue 1).closeWindow (d.get WARD_BUCKET_STAT_variant)
      let k2 := { k1 with exit := BitVec.ofNat 16 (fld f 0 16), run := .halted, wait := none, instret := k1.instret + 1, ended := d.ck,
                          acct := { k1.acct with openWin := false } }
      ((d.leaveRunning k).closeCore c k2 4).send (k2.report c (1 + fld f 0 16 * 2 ^ 16)))

def execHalt (c : CoreId) (f : BitVec 26) (w : Nat) (s : State) : Host.Outcome State Fault Refusal :=
  s.onCore c (fun d => d.haltOp c f w)

/-! Control and status registers (R34). -/

/-- The code of a run state. -/
def RunState.code : RunState → Nat
  | .run => 0 | .halted => 1 | .faulted => 2 | .reset => 3

/-- CSR_STATUS as read. -/
def Core.status (k : Core) : Nat := k.run.code + k.tmm.length * 2 ^ 2 + k.mov.length * 2 ^ 5 + k.exit.toNat * 2 ^ 16

/-- CSR_ID as read. -/
def Dev.csrId (d : Dev) (c : CoreId) : Nat :=
  c.x.toNat + c.y.toNat * 2 ^ 8 + arcadeOf c.x.toNat c.y.toNat * 2 ^ 16 + d.hallOf c.x.toNat c.y.toNat * 2 ^ 26
    + d.devnum.toNat * 2 ^ 32

/-- A core CSR as read; none for an unlisted number. -/
def Dev.csr (d : Dev) (c : CoreId) (k : Core) (n : Nat) : Option (BitVec 64) :=
  if n = 0x000 then some (BitVec.ofNat 64 (d.csrId c))
  else if n = 0x001 then some (BitVec.ofNat 64 k.status)
  else if n = 0x002 then some (BitVec.ofNat 64 k.fault.toBits)
  else if n = 0x003 then some (k.rank.setWidth 64)
  else if n = 0x004 then some (k.fflags.setWidth 64)
  else if n = 0x005 then some (k.frm.setWidth 64)
  else if n = 0x006 then some (k.lfsr.setWidth 64)
  else if n = 0x007 then some k.cycle
  else if n = 0x008 then some k.instret
  else if n = 0x009 then some (k.step.setWidth 64)
  else if n = 0x00A then some (BitVec.ofNat 64 (k.job.toNat + k.jgen.toNat * 2 ^ 16))
  else if 0x011 ≤ n ∧ n ≤ 0x017 then some ((Tab.get (fun _ => (0 : BitVec 16)) k.dyn (n - 0x010)).setWidth 64)
  else none

/-- CSRR (R34). -/
def execCsrr (c : CoreId) (f : BitVec 26) (s : State) : Host.Outcome State Fault Refusal :=
  s.onCore c (fun d => d.instr c 0x3C f (fld f 12 9 != 0) [] [] (fun k =>
    match d.csr c k (fld f 0 12) with
    | none => d.fault c k (.csr, fld f 0 12)
    | some v => d.writeResult c k (fld f 21 5) v 2))

/-- CSRW: CSR_FFLAGS is W1C and CSR_FRM is RW; a CSR_FRM value of 5 to 7 raises CSR_ACCESS (R34). -/
def execCsrw (c : CoreId) (f : BitVec 26) (s : State) : Host.Outcome State Fault Refusal :=
  s.onCore c (fun d => d.instr c 0x3D f (fld f 12 4 != 0 || fld f 21 5 != 0) [fld f 16 5] [] (fun k =>
    let v := k.gr (fld f 16 5)
    if fld f 0 12 = 0x004 then d.retire c { k with fflags := k.fflags &&& ~~~(v.setWidth 5) } 1
    else if fld f 0 12 = 0x005 ∧ (v.setWidth 3).toNat < 5 then d.retire c { k with frm := v.setWidth 3 } 1
    else d.fault c k (.csr, fld f 0 12)))

end Sys2Proof.Machine
end

