-- ==== Sys2Proof/Machine/Tally.lean ====
section
/-! DEFINITION. Tally queues and the packets of channels: contributions, deadlines and releases (R70 to R72, R140 to R147), and
the arrival of CREDIT, RECEIPT, ERRINC and DONE packets (R133, R134, R137, R139, R168, R170, R381). -/

namespace Sys2Proof.Machine

/-! Accumulators (R70 to R72, R142). -/

/-- An accumulator: 192 bits in two's complement, and the flags pos_over, neg_over and nan in bits 192 to 194. -/
def accInt (v : Nat) : Int := signed 192 v
def accFlag (v i : Nat) : Bool := bit v (192 + i)

/-- The address of the accumulator of element `e` of queue `q` (R142). -/
def Core.accAddr (k : Core) (q e : Nat) : Nat := 0x80000 + (k.get (CORE_TQ_pm_base q) + e / 2) * 64 + e % 2 * 32

/-- Ec of the block that holds element `e` (R70, R140). -/
def Core.ceiling (k : Core) (q e : Nat) : Int :=
  let cols := k.get (CORE_TQ_cols q)
  let b := e / cols * cdiv cols 32 + e % cols / 32
  (bits (k.get (CORE_TQ_ceil q)) (8 * b) 8 : Int) - 127

/-- Whether m × 2^e is at least 2^ec. -/
def reaches (m : Nat) (e ec : Int) : Bool := m != 0 && decide (ec ≤ Val.log m e)

/-- ⌊v ÷ 2^q⌋ of a finite value. -/
def floorMag (neg : Bool) (m : Nat) (e q : Int) : Int :=
  let (n, inexact, _, _) := scaleDown m e q
  if neg then -(n : Int) - (if inexact then 1 else 0) else n

/-- What one contribution element does to its accumulator (R71). -/
def accAdd (ec : Int) (acc : Nat) (v : Val) : Nat :=
  let flag := fun i => setBits acc (192 + i) 1 1
  match v with
  | .nan => flag 2
  | .inf false => flag 0
  | .inf true => flag 1
  | .fin neg m e =>
    if reaches m e ec then flag (if neg then 1 else 0)
    else setBits acc 0 192 (wrap 192 (accInt acc + floorMag neg m e (ec - 160)))

/-- The value a release makes of an accumulator (R72). -/
def accValue (ec : Int) (acc : Nat) : Val :=
  if accFlag acc 2 || (accFlag acc 0 && accFlag acc 1) then .nan
  else if accFlag acc 0 then .inf false
  else if accFlag acc 1 then .inf true
  else .fin (decide (accInt acc < 0)) (accInt acc).natAbs (ec - 160)

/-- One row add of data row `part` of a contribution: its elements whose accumulators lie in PM row number `row` of the rows it
reaches (R142, R144). -/
def Core.contribAdd (k : Core) (q : Nat) (h : RowData) (part : Nat) (data : RowData) (row : Nat) : Core :=
  let (e, n) := k.contribElems q h part
  let f := contribFmt h
  (List.range n).foldl (fun k j =>
    if (e + j) / 2 = e / 2 + row then
      let a := k.accAddr q (e + j)
      let old := Memory.readN k.mem a 32
      let v := f.value 0 (bits data.toNat (j * f.width) f.width)
      { k with mem := Memory.writeN k.mem a 32 (accAdd (k.ceiling q (e + j)) old v) }
    else k) k

/-! Classification and deadlines (R143, R145, R147). -/

/-- The test at the end of ck `t` (R145). -/
def Core.tallyTest (k : Core) (q t : Nat) : Core :=
  let n := k.get (CORE_TQ_count q)
  let r := k.tqRun q
  if k.get (CORE_TQ_valid q) = 0 ∨ k.get (CORE_TQ_closed q) = 1 then k
  else if k.get (CORE_TQ_expect q) ≤ n then (k.put (CORE_TQ_closed q) 1).setTqRun q { r with byDeadline := false }
  else if k.get (CORE_TQ_armed q) = 1 ∧ r.tArm + k.get (CORE_TQ_deadline q) ≤ t ∧ k.get (CORE_TQ_quorum q) ≤ n then
    (k.put (CORE_TQ_closed q) 1).setTqRun q { r with byDeadline := true }
  else k

/-- The group of a contribution is dropped: its queued rows leave PM's queue and its further rows are discarded. -/
def Core.dropContrib (k : Core) (tag : BitVec 8) : Core :=
  let keep := (k.queue 2).filter (fun o => match o with
    | .contrib _ _ _ _ t _ => t != tag
    | _ => true)
  match k.group tag with
  | some g => (k.setQueue 2 keep).endGroup tag { g with kind := .absorbed, queued := 0 }
  | none => k

/-- A contribution whose header is accepted: a poisoned one marks the queue's next release (R430); one without rows ends. -/
def Core.takeContrib (k : Core) (q : Nat) (h : HeldHeader) : Core :=
  let k1 := if h.poison then k.setTqRun q { k.tqRun q with poison := true } else k
  match k1.group h.tag with
  | some g => k1.endGroup h.tag g
  | none => k1

/-- The oldest held header of queue `q` is classified in ck `t` (R143, R147). -/
def Dev.classify (d : Dev) (c : CoreId) (q t : Nat) : Dev :=
  let k := d.core c
  let r := k.tqRun q
  match r.held with
  | [] => d
  | h :: rest =>
    if r.releasing then d
    else
      let k1 := k.setTqRun q { r with held := rest }
      let gap := (k.get (CORE_TQ_slot q) + 256 - rowBytes h.header 3 1) % 256
      if rowBytes h.header 2 1 ≠ k.get (CORE_TQ_gen q) ∨ 63 < gap then
        ((d.setCore c (k1.dropContrib h.tag)).countStale c).send (k.headerReceipt c h.header 0 1)
      else if gap = 0 ∧ k.get (CORE_TQ_closed q) = 0 then
        let n := k.get (CORE_TQ_count q)
        let k2 := k1.put (CORE_TQ_count q) (sat 16 (n + 1))
        let k3 := if n = 0 ∧ k.get (CORE_TQ_deadline q) ≠ 0 then
            (k2.put (CORE_TQ_armed q) 1).setTqRun q { k2.tqRun q with tArm := t }
          else k2
        d.setCore c ((k3.takeContrib q h).tallyTest q t)
      else if k.get (CORE_TQ_late_fold q) = 1 then
        let k2 := (k1.put (CORE_TQ_folded q) (sat 16 (k.get (CORE_TQ_folded q) + 1))).bump CORE_CHAN_STAT_late_fold 1
        (d.setCore c (k2.takeContrib q h)).count (fun n => { n with folds := n.folds + 1 })
      else
        (d.setCore c ((k1.bump CORE_CHAN_STAT_late_drop 1).dropContrib h.tag)).count
          (fun n => { n with drops := n.drops + 1 })

/-- TALLY_HEADER_CLASSIFY (R143). -/
def execTallyHeaderClassify (c : CoreId) (q : BitVec 3) (t : Nat) (s : State) : Host.Outcome State Fault Refusal :=
  s.onCore c (fun d => d.classify c q.toNat t)

/-- TALLY_DEADLINE: the test of R145 at the end of ck `t`. -/
def execTallyDeadline (c : CoreId) (q : BitVec 3) (t : Nat) (s : State) : Host.Outcome State Fault Refusal :=
  s.onCore c (fun d => d.upd c (fun k => k.tallyTest q.toNat t))

/-- Whether the header of a group's contribution still waits for its classification. -/
def Core.unclassified (k : Core) (q : Nat) (tag : BitVec 8) : Bool := (k.tqRun q).held.any (fun h => h.tag == tag)

/-- TALLY_ROW_ADD: the contribution row at the head of PM's queue makes its next row add, and leaves the queue with its last one; it
waits while a release runs and while its header is unclassified (R143, R144, R146). -/
def Dev.tallyRowAdd (d : Dev) (c : CoreId) : Dev :=
  let k := d.core c
  match k.queue 2 with
  | .contrib q part data poison tag n :: rest =>
    match k.group tag with
    | none => d.setCore c ((k.setQueue 2 rest).passAhead 2)
    | some g =>
      if (k.tqRun q).releasing || k.unclassified q tag then d
      else
        let total := (k.contribRows q g.header part).length
        let k1 := if poison then k.setTqRun q { k.tqRun q with poison := true } else k
        let k2 := if n < total then (k1.contribAdd q g.header part data n).slots 2 1 else k1
        if n + 1 < total then d.setCore c (k2.setQueue 2 (.contrib q part data poison tag (n + 1) :: rest))
        else
          let k3 := (k2.setQueue 2 rest).rowDone tag 0 false
          d.setCore c ({ k3 with acct := { k3.acct with deliver := k3.acct.deliver + 1 } }.passAhead 2)
  | _ => d

def execTallyRowAdd (c : CoreId) (s : State) : Host.Outcome State Fault Refusal :=
  s.onCore c (fun d => d.tallyRowAdd c)

/-! Releases (R146). -/

/-- Whether every accepted contribution of a queue has finished its row adds. -/
def Core.tallyQuiet (k : Core) (q : Nat) : Bool :=
  k.groups.all (fun p => match p.2 with
    | some g => g.kind != .tally q || k.unclassified q (BitVec.ofNat 8 p.1)
    | none => true)

/-- The format of a queue's releases (R140). -/
def Core.relFmt (k : Core) (q : Nat) : Fmt := (Fmt.ofCode (k.get (CORE_TQ_ofmt q))).getD .fp32

/-- Output rows of a tensor row of a release. -/
def Core.relSpan (k : Core) (q : Nat) : Nat := cdiv (k.get (CORE_TQ_cols q) * (k.relFmt q).width) 512

/-- The header row of a release (R131, R146). -/
def Core.relHeader (k : Core) (c : CoreId) (q : Nat) : RowData :=
  let rows := k.get (CORE_TQ_rows q)
  let cols := k.get (CORE_TQ_cols q)
  BitVec.ofNat 512 (ofBytes (toBytes 1 3 ++ toBytes 1 (k.get (CORE_TQ_out_ep q)) ++ toBytes 1 (k.get (CORE_TQ_gen q))
    ++ toBytes 1 (k.get (CORE_TQ_slot q)) ++ toBytes 1 c.x.toNat ++ toBytes 1 c.y.toNat ++ toBytes 1 q
    ++ toBytes 1 (if (k.tqRun q).byDeadline then 4 else 0) ++ toBytes 2 rows ++ toBytes 2 cols
    ++ toBytes 1 (k.get (CORE_TQ_ofmt q)) ++ toBytes 1 0 ++ toBytes 2 0 ++ toBytes 4 (rows * cols)
    ++ toBytes 2 (rows * k.relSpan q) ++ toBytes 2 0 ++ toBytes 2 (k.get (CORE_TQ_count q))
    ++ toBytes 2 (k.get (CORE_TQ_expect q)) ++ toBytes 2 (k.get (CORE_TQ_folded q))))

/-- The accumulators of a queue as one span of PM. -/
def Core.accSpan (k : Core) (q : Nat) : Nat × Nat :=
  (0x80000 + k.get (CORE_TQ_pm_base q) * 64, cdiv (k.get (CORE_TQ_rows q) * k.get (CORE_TQ_cols q)) 2 * 64)

/-- Whether a release carries poison: a poisoned contribution, or a poisoned accumulator row (R116, R430). -/
def Core.relPoison (k : Core) (q : Nat) : Bool :=
  let (a, n) := k.accSpan q
  (k.tqRun q).poison || (List.range (n / 64)).any (fun j => k.rowPoisoned (a + j * 64))

/-- The encodings of tensor row `i` of a release, rounded once to nearest even (R72). -/
def Core.relRow (k : Core) (q i : Nat) : Nat :=
  let cols := k.get (CORE_TQ_cols q)
  packElems (k.relFmt q).width ((List.range cols).map (fun x =>
    let e := i * cols + x
    (k.relFmt q).narrow 0 .even (accValue (k.ceiling q e) (Memory.readN k.mem (k.accAddr q e) 32))))

/-- The rows of a release are written to the entry of out_ep at `base`, and the accumulators read are left zero. -/
def Core.relWrite (k : Core) (c : CoreId) (q base : Nat) : Core :=
  let p := k.relPoison q
  let sp := k.relSpan q
  let k1 := k.store base 64 (k.relHeader c q).toNat p
  let k2 := (List.range (k.get (CORE_TQ_rows q))).foldl
    (fun k' i => k'.storeRows (base + 64 + i * sp * 64) p sp (k.relRow q i)) k1
  let (a, n) := k.accSpan q
  let k3 := { k2 with mem := Memory.zero k2.mem a n, poison := Tab.clear k2.poison (a / 64) (n / 64) }
  ((k3.slots 1 (1 + k.get (CORE_TQ_rows q) * sp)).slots 2 (n / 64)).setTqRun q
    { k.tqRun q with releasing := true, poison := false }

/-- TALLY_RELEASE: the queue is closed, its contributions are added, and out_ep has a free entry (R146); a release at a deadline marks the
members that feed it LATE (R271). -/
def Dev.tallyRelease (d : Dev) (c : CoreId) (q : Nat) : Dev :=
  let k := d.core c
  let n := k.get (CORE_TQ_out_ep q)
  if k.get (CORE_TQ_closed q) = 1 ∧ (k.tqRun q).releasing = false ∧ k.tallyQuiet q = true
      ∧ k.get (CORE_EP_held n) ≤ k.get (CORE_EP_qdepth n) then
    let d1 := d.setCore c (k.relWrite c q (k.entryBase n (k.epRun n).fill))
    if (k.tqRun q).byDeadline then (d1.hopLate c q).count (fun n => { n with deadlineRel := n.deadlineRel + 1 }) else d1
  else d

def execTallyRelease (c : CoreId) (q : BitVec 3) (s : State) : Host.Outcome State Fault Refusal :=
  s.onCore c (fun d => d.tallyRelease c q.toNat)

/-- A release ends: its message is present and out_ep's counter gains 1, unless the endpoint has closed, which discards it; the slot
advances, and the queue opens for it (R134, R138, R146). -/
def Core.relEnd (k : Core) (q : Nat) : Core :=
  let n := k.get (CORE_TQ_out_ep q)
  let e := k.epRun n
  let k1 := if k.get (CORE_EP_closed n) = 1 then k
    else (k.setEpRun n { e with fill := (e.fill + 1) % (k.get (CORE_EP_qdepth n) + 1) }).put (CORE_EP_held n) (k.get (CORE_EP_held n) + 1)
  let k2 := if k.get (CORE_EP_closed n) = 0 ∧ k.get (CORE_EP_cnt_en n) = 1 then k1.advance (k.get (CORE_EP_cnt n)) 1 .other else k1
  let k3 := k2.put (CORE_TQ_slot q) ((k.get (CORE_TQ_slot q) + k.get (CORE_TQ_sstep q)) % 256)
  ((((k3.put (CORE_TQ_count q) 0).put (CORE_TQ_folded q) 0).put (CORE_TQ_armed q) 0).put (CORE_TQ_closed q) 0).setTqRun q
    { k.tqRun q with releasing := false, byDeadline := false }

/-- The CREDIT packets of a release: one per core of the contributor rectangle (R146, R168). -/
def Core.relCredits (k : Core) (c : CoreId) (q : Nat) : List Packet :=
  (k.rectangle q).map (fun p => k.packet c 0x01 p.1 p.2 0 0 1 (q + k.get (CORE_TQ_gen q) * 2 ^ 8 + 2 ^ 16) [])

/-- TALLY_RELEASE_END (R146). -/
def Dev.tallyReleaseEnd (d : Dev) (c : CoreId) (q : Nat) : Dev :=
  let k := d.core c
  if (k.tqRun q).releasing then (k.relCredits c q).foldl Dev.send (d.setCore c (k.relEnd q)) else d

def execTallyReleaseEnd (c : CoreId) (q : BitVec 3) (s : State) : Host.Outcome State Fault Refusal :=
  s.onCore c (fun d => d.tallyReleaseEnd c q.toNat)

/-! Packets at a core (R134, R137, R139, R147, R168, R170, R381). -/

/-- A packet is dropped: ERRAND_STAT.absorbed counts it (R168, R170, R381). -/
def Dev.absorbPacket (d : Dev) : Dev := d.bump ERRAND_STAT_absorbed 1

/-- Whether a packet names the job a core works for (R170). -/
def Core.ofJob (k : Core) (p : Packet) : Bool := k.job == p.job && k.jgen == p.jgen

/-- The send endpoints that a CREDIT or RECEIPT matches (R139, R147). -/
def Core.matching (k : Core) (tq : Bool) (n gen : Nat) : List Nat :=
  (List.range 32).filter (fun e => k.isSend e && k.get (CORE_EP_gen e) == gen &&
    (if tq then k.get (CORE_EP_tally e) == 1 && k.get (CORE_EP_dst e) == n else e == n))

/-- A CREDIT at a send endpoint (R133, R147). -/
def Core.takeCredit (k : Core) (tq : Bool) (rx n : Nat) : Core :=
  if tq then k.put (CORE_EP_credits n) 1
  else
    let e := k.epRun n
    let r := Tab.set (fun _ => 0) e.returned rx (Tab.get (fun _ => 0) e.returned rx + 1)
    (k.setEpRun n { e with returned := r }).recount n

/-- A RECEIPT at a send endpoint: rx_gone, and gone when every receiver of the fanout is gone; credits follow the live ones (R133,
R139). -/
def Core.takeReceipt (k : Core) (rx n : Nat) : Core :=
  let g := setBits (k.get (CORE_EP_rx_gone n)) rx 1 1
  let k1 := k.put (CORE_EP_rx_gone n) g
  if (List.range (k.get (CORE_EP_fanout n) + 1)).all (fun i => bit g i) then k1.put (CORE_EP_gone n) 1
  else if k.get (CORE_EP_tally n) = 1 then k1 else k1.recount n

/-- A packet that reaches a core is dropped while the core is in RESET (R381), and when its job is another (R170, R137). -/
def Dev.atCore (d : Dev) (p : Packet) (stale : Bool) (f : Core → Dev) : Dev :=
  let c := packetCore p
  let k := d.core c
  if k.run = .reset then d.absorbPacket
  else if k.ofJob p then f k
  else if stale then (d.absorbPacket).countStale c else d.absorbPacket

/-- A CREDIT or RECEIPT takes effect at the endpoints it matches, or is discarded as stale (R137, R147). -/
def Dev.channelPacket (d : Dev) (p : Packet) (tqBit : Nat) (f : Bool → Nat → Core → Nat → Core) : Dev :=
  d.atCore p true (fun k =>
    let v := p.inl.toNat
    let tq := bit v tqBit
    match k.matching tq (bits v 0 5) (bits v 8 8) with
    | [] => d.countStale (packetCore p)
    | es => d.setCore (packetCore p) (es.foldl (f tq (bits v 5 3)) k))

end Sys2Proof.Machine
end

