-- ==== Sys2Proof/Machine/Hbm.lean ====
section
/-! DEFINITION. Errors of HBM and of the cores' memories, page retirement, and the patrols (R125, R426 to R429). -/

namespace Sys2Proof.Machine

/-! Errors (R426, R429). -/

/-- Milliseconds in 24 h. -/
def dayMs : Nat := 86400000

/-- Naeno retires the page of an address: it is recorded in flash region 7 (R429). -/
def Dev.retirePage (d : Dev) (pa : Nat) : Dev :=
  if d.badPages.contains (pageNo pa) then d
  else { d.bump (HBM_STAT_retired (stackOf pa)) 1 with badPages := d.badPages ++ [pageNo pa] }

/-- The check of a read of an HBM line: a corrected read is recorded and counts toward its page, an uncorrectable one marks the line
and retires the page (R426, R429). -/
def Dev.checkLine (d : Dev) (pa : Nat) (e : Ecc) (job : BitVec 16) (jgen : BitVec 8) : Dev :=
  let k := stackOf pa
  let at' : ErrAt := ⟨5, k, job, jgen, BitVec.ofNat 32 (d.get WARD_STEP_NOW_step), pageNo pa⟩
  match e with
  | .clean => d
  | .corrected =>
    let recent := d.ms :: (Tab.get (fun _ => []) d.pageReads (pageNo pa)).filter (fun t => decide (d.ms < t + dayMs))
    let d1 := (({ d with pageReads := Tab.set (fun _ => []) d.pageReads (pageNo pa) recent }).bump (HBM_ERR_ce k) 1).raise
      0x0010 at'
    if d.get ERR_CFG_page_ce < recent.length then d1.retirePage pa else d1
  | .uncorrectable =>
    let d1 := ({ d with hbmPoison := Tab.set (fun _ => false) d.hbmPoison (pa / 64) true }).bump (HBM_ERR_ue k) 1
    (d1.raise 0x0011 at').retirePage pa

/-- The check of a read of row number `row` of a core's memories (R426, R429). -/
def Dev.checkRow (d : Dev) (c : CoreId) (row : Nat) (e : Ecc) : Dev :=
  let k := d.core c
  match e with
  | .clean => d
  | .corrected =>
    let key := c.key * 2 ^ 18 + row
    let recent := d.ms :: (Tab.get (fun _ => []) d.rowReads key).filter (fun t => decide (d.ms < t + dayMs))
    let d1 := ({ d with rowReads := Tab.set (fun _ => []) d.rowReads key recent }).raise 0x0001 (k.errAt c (row * 64))
    if d.get ERR_CFG_row_ce < recent.length ∧ ¬(d.badRows.contains key = true) then
      { d1 with badRows := d1.badRows ++ [key] }
    else d1
  | .uncorrectable => (d.setCore c (k.setPoison (row * 64) true)).raise 0x0002 (k.errAt c (row * 64))

/-- PATROL_READ: a row of WM, AM, PM or of a stock tier in the mask is read in an idle slot; only its error is acted on (R125,
R427). -/
def execPatrolRead (c : CoreId) (row : Nat) (e : Ecc) (s : State) : Host.Outcome State Fault Refusal :=
  s.onCore c (fun d =>
    match regionOf (row * 64) with
    | some (g, _, _) => if g = 3 ∨ (d.core c).offMask g = true then d else d.checkRow c row e
    | none => d)

/-- HBM_PATROL: a usable line of a stack is read in an idle slot (R427). -/
def execHbmPatrol (k : BitVec 3) (line : Nat) (e : Ecc) (s : State) : Host.Outcome State Fault Refusal :=
  s.onDev (fun d =>
    let pa := k.toNat * 2 ^ 36 + line * 64
    if line * 64 < 2 ^ 36 ∧ d.usable pa = true then d.checkLine pa e 0 0 else d)

end Sys2Proof.Machine
end

