-- ==== Sys2Proof/Machine/Porter.lean ====
section
/-! DEFINITION. The Porters: descriptors, streams, tags, LOAD, STORE and FILL, credits, fences and failures (R205 to R224, R381). -/

namespace Sys2Proof.Machine

/-! Descriptors (R210). -/

/-- Bytes `[i, i + n)` of a descriptor. -/
def descBytes (v : BitVec 256) (i n : Nat) : Nat := bits v.toNat (8 * i) (8 * n)

/-- The fields of a Porter descriptor. -/
structure PDesc where
  op : Nat
  flags : Nat
  ctr : Nat
  pool : Nat
  hva : Nat
  dtag : Nat
  segRows : Nat
  nseg : Nat
  hstride : Nat
  caddr : Nat
  cstride : Nat
  x0 : Nat
  y0 : Nat
  x1 : Nat
  y1 : Nat
  inc : Nat
  fence : Nat
  fstep : Nat
deriving DecidableEq, Repr

/-- Reads a descriptor's fields. -/
def PDesc.ofBits (v : BitVec 256) : PDesc :=
  let b := descBytes v
  ⟨b 0 1, b 1 1, b 2 1, b 3 1, b 4 5, b 9 1, b 10 2, b 12 2, b 14 4, b 18 3, b 21 2, b 23 1, b 24 1, b 25 1, b 26 1,
    b 27 1, b 28 2, b 30 2⟩

/-- The payload of a PREQ packet as one number. -/
def packetDesc (p : Packet) : BitVec 256 :=
  BitVec.ofNat 256 ((p.payload.getD 0 0).toNat + (p.payload.getD 1 0).toNat * 2 ^ 128)

def PDesc.fenced (p : PDesc) : Bool := bit p.flags 0
def PDesc.gated (p : PDesc) : Bool := bit p.flags 1
def PDesc.notify (p : PDesc) : Bool := bit p.flags 2
def PDesc.stream (p : PDesc) : Nat := bits p.flags 4 2
def PDesc.rows (p : PDesc) : Nat := p.segRows * p.nseg

/-- The counter and the increment when cnt_en = 1. -/
def PDesc.counter (p : PDesc) : Option (BitVec 6 × BitVec 8) :=
  if bit p.ctr 6 then some (BitVec.ofNat 6 p.ctr, BitVec.ofNat 8 p.inc) else none

/-- The core addresses of the rows in transfer order. -/
def PDesc.coreRows (p : PDesc) : List Nat :=
  (List.range p.nseg).flatMap (fun s => (List.range p.segRows).map (fun i => p.caddr + (s * p.cstride + i) * 64))

/-- The pieces of `n` rows from virtual address `va`: cut at 512-byte boundaries (R214). -/
def piecesOf : Nat → Nat → Nat → List (Nat × Nat)
  | 0, _, _ => []
  | fuel + 1, va, n =>
    if n = 0 then []
    else
      let m := min n (8 - va / 64 % 8)
      (va, m) :: piecesOf fuel (va + m * 64) (n - m)

/-- The pieces of a transfer, as (virtual address, rows). -/
def PDesc.pieces (p : PDesc) : List (Nat × Nat) :=
  (List.range p.nseg).flatMap (fun s => piecesOf p.segRows (p.hva + s * p.hstride) p.segRows)

/-- The virtual pages a transfer touches. -/
def PDesc.pages (p : PDesc) : List Nat :=
  (List.range p.nseg).flatMap (fun s => pagesOf (p.hva + s * p.hstride) (p.segRows * 64))

/-! Porters. -/

def Dev.porter (d : Dev) (n : Nat) : Porter := Tab.get (fun _ => Porter.reset) d.porters n

/-- Tags not FREE (R214). -/
def Transfer.tags (t : Transfer) : Nat := (t.pieces.filter (fun p => p.phase != .free && p.phase != .done)).length
def Porter.tags (p : Porter) : Nat := p.transfers.foldl (fun n t => n + t.tags) 0

/-- Stores a Porter; tags_busy follows its tags, and tags_hwm the largest count. -/
def Dev.setPorter (d : Dev) (n : Nat) (p : Porter) : Dev :=
  let d1 := ({ d with porters := Tab.set (fun _ => Porter.reset) d.porters n p }).put (PORTER_STAT_tags_busy n) p.tags
  if d1.get (PORTER_STAT_tags_hwm n) < p.tags then d1.put (PORTER_STAT_tags_hwm n) p.tags else d1

/-- The context that holds a job (R209, R211). -/
def Dev.porterCtx (d : Dev) (n : Nat) (job : BitVec 16) (jgen : BitVec 8) : Option Nat :=
  (List.range 8).find? (fun j => d.get (PORTER_CTX_valid n j) == 1 && d.get (PORTER_CTX_job n j) == job.toNat
    && d.get (PORTER_CTX_jgen n j) == jgen.toNat)

/-- The physical address of a context's page table. -/
def Dev.ptBase (d : Dev) (n j : Nat) : Nat := d.get (PORTER_PTBASE_base n j) * 2 ^ 22

/-- The key of a fence table entry (R220). -/
def fenceKey (stack ctx fence : Nat) : Nat := (stack * 8 + ctx) * 4096 + fence

/-- A fence table entry. -/
def Dev.fence (d : Dev) (stack ctx fence : Nat) : Nat := Tab.get (fun _ => 0) d.fences (fenceKey stack ctx fence)

/-! Checks (R211). -/

/-- The cores of a descriptor's rectangle. -/
def PDesc.cores (p : PDesc) : List CoreId :=
  (List.range (p.y1 + 1 - p.y0)).flatMap (fun j =>
    (List.range (p.x1 + 1 - p.x0)).map (fun i => ⟨BitVec.ofNat 8 (p.x0 + i), BitVec.ofNat 8 (p.y0 + j)⟩))

/-- Whether (x, y) is a core of a job. -/
def Dev.coreOfJob (d : Dev) (c : CoreId) (job : BitVec 16) (jgen : BitVec 8) : Bool :=
  let k := d.core c
  d.logical c && k.image.present && k.job == job && k.jgen == jgen

/-- Whether a span of core memory leaves one region or includes IM (R211, 0x6). -/
def badSpan (a n : Nat) : Bool :=
  match regionOf a with
  | none => true
  | some (g, lo, size) => g == 3 || decide (lo + size < a + n)

/-- Reason 0x2: reserved fields, alignments and limits of R210. -/
def PDesc.malformed (p : PDesc) (ownsEpoch : Bool) : Bool :=
  let reserved := !([1, 2, 3, 4].contains p.op) || bit p.flags 3 || bits p.flags 6 2 != 0 || bit p.ctr 7
    || bits p.pool 4 4 != 0 || bits p.fence 12 4 != 0
  if p.op = 4 then reserved
  else reserved || p.hva % 64 != 0 || p.caddr % 64 != 0 || p.hstride % 64 != 0 || decide (65535 < p.rows)
    || (p.op == 2 && decide (512 < p.pieces.length)) || (p.dtag == 0xFF && p.op != 3) || (p.op == 3 && !ownsEpoch)

/-- The lowest reason for which Porter `n` refuses a descriptor, and the context otherwise (R211; R410: a stack that is not ON gives
0x3). -/
def Dev.porterCheck (d : Dev) (n : Nat) (p : PDesc) (job : BitVec 16) (jgen : BitVec 8) : Nat ⊕ Nat :=
  match (if d.ending job then none else d.porterCtx n job jgen) with
  | none => .inl 1
  | some ctx =>
    let stack := n / 4
    if p.malformed (d.ownsEpoch job jgen) then .inl 2
    else if p.op = 4 then .inr ctx
    else
      let ptes := if p.rows = 0 then [] else (p.pages.map (d.pte (d.ptBase n ctx)))
      let spans := (List.range p.nseg).map (fun s => (p.caddr + s * p.cstride * 64, p.segRows * 64))
      let cs := if p.op = 2 then [⟨BitVec.ofNat 8 p.x0, BitVec.ofNat 8 p.y0⟩] else p.cores
      if d.get (PWR_DOM_state (80 + stack)) ≠ 0 ∨ ptes.any (fun e => !e.valid || e.job != job.toNat) then .inl 3
      else if ptes.any (fun e => if p.op = 2 then !e.pw else !e.pr) then .inl 4
      else if ptes.any (fun e => e.stack != stack) then .inl 5
      else if p.op = 3 then .inr ctx
      else if cs.any (fun c => !(d.coreOfJob c job jgen)) || (p.rows != 0 && spans.any (fun s => badSpan s.1 s.2)) then .inl 6
      else if p.rows != 0 && spans.any (fun s => cs.any (fun c => (d.core c).addrOff s.1)) then .inl 7
      else .inr ctx

/-- A refused descriptor is recorded and, but for a job being torn down, reported (R211, R386). -/
def Dev.porterRefuse (d : Dev) (n reason : Nat) (p : Packet) : Dev :=
  let d1 := (d.bump (PORTER_ERR_refused n) 1).put (PORTER_ERR_reason n) reason
  if d.ending p.job then d1 else d1.raise 0x0040
    ⟨3, n, p.job, p.jgen, BitVec.ofNat 32 (d.get WARD_STEP_NOW_step), (PDesc.ofBits (packetDesc p)).hva⟩

/-! Completion. -/

/-- The packet that answers a requester: from a service port back to the packet's source. -/
def answerPacket (p : Packet) (type inl : Nat) : Packet :=
  { p with type := BitVec.ofNat 8 type, dstX := p.srcX, dstY := p.srcY, dstSub := p.srcSub, dstUnit := p.srcUnit,
           srcX := p.dstX, srcY := p.dstY, srcSub := p.dstSub, srcUnit := p.dstUnit, vc := 1,
           inl := BitVec.ofNat 40 inl, payload := [] }

/-- DONE goes to the requester; its inline payload is not stated and is a free value (R168, R218; log 1). -/
def Dev.sendDonePacket (d : Dev) (p : Packet) : Dev :=
  let (v, d1) := d.free
  d1.send (answerPacket p 0x0A v)

/-- A transfer is done: it leaves the Porter and DONE goes out under notify (R216, R218). -/
def Dev.transferDone (d : Dev) (n i : Nat) : Dev :=
  let q := d.porter n
  match q.transfers[i]? with
  | none => d
  | some t =>
    let d1 := d.setPorter n { q with transfers := q.transfers.eraseIdx i }
    if (PDesc.ofBits t.desc).notify then d1.sendDonePacket t.pkt else d1

/-- A counter of the source core of a STORE gains its increment. -/
def Dev.storeCounter (d : Dev) (p : PDesc) : Dev :=
  match p.counter with
  | some (c, inc) => d.upd ⟨BitVec.ofNat 8 p.x0, BitVec.ofNat 8 p.y0⟩ (fun k => k.advance c.toNat inc.toNat .other)
  | none => d

/-- A transfer of a failed stack completes as fully poisoned without an HBM access: the pieces of a LOAD or FILL are full of poisoned
rows, and a STORE is done.  The counter of a STORE whose CMD has left advances at its source core; that of another advances here
(R219, R223, R224). -/
def Dev.failTransfer (d : Dev) (n i : Nat) : Dev :=
  let q := d.porter n
  match q.transfers[i]? with
  | none => d
  | some t =>
    let p := PDesc.ofBits t.desc
    if p.op = 2 then (if t.started then d else d.storeCounter p).transferDone n i
    else
      let ps := t.pieces.map (fun x => if x.phase = .done then x
        else { x with phase := .full, poison := true,
                      data := if x.phase = .full then x.data else List.replicate x.rows 0 })
      d.setPorter n { q with transfers := q.transfers.set i { t with started := true, credit := true, pieces := ps } }

/-- Every transfer of a Porter of a failed stack completes; STOREs leave, so the list is walked from its end. -/
def Dev.failAll (d : Dev) (n : Nat) : Dev :=
  (List.range (d.porter n).transfers.length).reverse.foldl (fun d i => d.failTransfer n i) d

/-! Accepting (R210, R211, R213, R221). -/

/-- The Porter that a packet addresses: sub 0 to 3 of a stack's service router (R169). -/
def Dev.porterOf (d : Dev) (p : Packet) : Option Nat :=
  ((List.range 8).find? (fun k => stackRouter d.rows k == (p.dstX.toNat, p.dstY.toNat))).bind (fun k =>
    if p.dstUnit = 2 ∧ p.dstSub.toNat < 4 then some (4 * k + p.dstSub.toNat) else none)

/-- A CREDIT descriptor adds to its pool, saturating (R221). -/
def Dev.poolCredit (d : Dev) (n ctx : Nat) (p : PDesc) : Dev := d.bump (PORTER_POOL_credits n ctx (bits p.pool 0 4)) p.inc

/-- A transfer joins its Porter; a null STORE advances its counter and is done at once (R210). -/
def Dev.accept (d : Dev) (n ctx : Nat) (pkt : Packet) (p : PDesc) : Dev :=
  let q := d.porter n
  let base := d.ptBase n ctx
  let ps := p.pieces.map (fun x =>
    let e := d.pte base (x.1 / 2 ^ 21)
    (⟨e.phys x.1, x.2, .free, [], false, 0, e.coh⟩ : Piece))
  let t : Transfer := ⟨packetDesc pkt, pkt, ctx, false, false, false, false, false, false, false, ps⟩
  let d1 := d.setPorter n { q with transfers := q.transfers ++ [t] }
  if p.op = 2 ∧ p.rows = 0 then (d1.storeCounter p).transferDone n q.transfers.length
  else if d.get (HBM_STAT_marked (n / 4)) = 1 then d1.failTransfer n q.transfers.length
  else d1

/-- A PREQ at Porter `n`. -/
def Dev.porterRequest (d : Dev) (n : Nat) (pkt : Packet) : Dev :=
  let p := PDesc.ofBits (packetDesc pkt)
  match d.porterCheck n p pkt.job pkt.jgen with
  | .inl reason => d.porterRefuse n reason pkt
  | .inr ctx => if p.op = 4 then d.poolCredit n ctx p else d.accept n ctx pkt p

/-- DESCRIPTOR_ACCEPT: a packet at a Porter's port.  A type other than PREQ, or a port that nothing serves, drops it (R170, R211). -/
def execDescriptorAccept (p : Packet) (s : State) : Host.Outcome State Fault Refusal :=
  s.onDev (fun d =>
    match d.porterOf p with
    | some n => if p.type = 0x04 then (d.eject p).porterRequest n p else (d.eject p).absorbPacket
    | none => (d.eject p).absorbPacket)

/-- PORTER_CREDIT: a CREDIT descriptor at a Porter; any other descriptor is left to DESCRIPTOR_ACCEPT (R213, R221). -/
def execPorterCredit (p : Packet) (s : State) : Host.Outcome State Fault Refusal :=
  s.onDev (fun d =>
    match d.porterOf p with
    | some n => if p.type = 0x04 ∧ (PDesc.ofBits (packetDesc p)).op = 4 then (d.eject p).porterRequest n p else d
    | none => d)

/-! Starting (R213, R215, R216, R220). -/

/-- The stream of a transfer. -/
def Transfer.stream (t : Transfer) : Nat := (PDesc.ofBits t.desc).stream

/-- The CMD packet of a STORE to its source core, with the descriptor as its payload and the Porter and the two waits of R217 in line
(R219; log 12). -/
def Dev.storeCmdPacket (d : Dev) (n : Nat) (t : Transfer) : Packet :=
  let p := PDesc.ofBits t.desc
  let (x, y) := stackRouter d.rows (n / 4)
  servicePacket 0x06 x y 2 (n % 4) ⟨BitVec.ofNat 8 p.x0, BitVec.ofNat 8 p.y0⟩ 0 t.pkt.job t.pkt.jgen
    (n + t.fenceWait.toNat * 2 ^ 5 + t.tagWait.toNat * 2 ^ 6)
    [BitVec.ofNat 128 t.desc.toNat, BitVec.ofNat 128 (t.desc.toNat / 2 ^ 128)]

/-- Whether a transfer's fence allows it: it is not fenced, or the entry has reached fstep (R220). -/
def Dev.fenceOpen (d : Dev) (n : Nat) (t : Transfer) : Bool :=
  let p := PDesc.ofBits t.desc
  !p.fenced || decide ((d.fence (n / 4) t.ctx (bits p.fence 0 12) + 2 ^ 16 - p.fstep) % 2 ^ 16 < 2 ^ 15)

/-- The tag issue of `m` pieces in order, from number `k`. -/
def tagAll : Nat → List Piece → List Piece
  | _, [] => []
  | k, x :: xs => { x with phase := .fill, seq := k } :: tagAll (k + 1) xs

/-- TRANSFER_START: the head transfer of a stream starts, or is marked with what it waits for.  A FILL of no rows is done as it starts
(R216). -/
def Dev.startTransfer (d : Dev) (n st : Nat) : Dev :=
  let q := d.porter n
  match q.transfers.findIdx? (fun t => t.stream == st && !t.started) with
  | none => d
  | some i =>
    match q.transfers[i]? with
    | none => d
    | some t =>
      let p := PDesc.ofBits t.desc
      let running := (q.transfers.filter (fun x => x.ctx == t.ctx && x.started)).length
      let keep := fun t' => d.setPorter n { q with transfers := q.transfers.set i t' }
      if p.cores.any d.moving then d
      else if !(d.fenceOpen n t) then keep { t with fenceWait := true }
      else if d.get (PORTER_CTX_a2 n t.ctx) = 1 ∧ 4 ≤ running then
        (if t.a2Wait then d else ((keep { t with a2Wait := true, tagWait := true }).bump (PORTER_WAITS_a2_waits n) 1).bump
          (PORTER_WAITS_tag_waits n) (!t.tagWait).toNat)
      else if p.op = 2 then
        if 1024 < q.tags + t.pieces.length then
          (if t.tagWait then d else (keep { t with tagWait := true }).bump (PORTER_WAITS_tag_waits n) 1)
        else
          let t' := { t with started := true, pieces := tagAll q.issued t.pieces }
          (d.setPorter n { q with transfers := q.transfers.set i t', issued := q.issued + t.pieces.length }).send
            (d.storeCmdPacket n t)
      else if p.op = 3 ∧ p.rows = 0 then d.transferDone n i
      else keep { t with started := true }

def execTransferStart (p : BitVec 5) (st : BitVec 2) (s : State) : Host.Outcome State Fault Refusal :=
  s.onDev (fun d => d.startTransfer p.toNat st.toNat)

/-! Tags (R214, R215, R221). -/

/-- Whether a transfer has a piece that may take a tag now: started, not a STORE, with an untagged piece, and within hold while it is
gated and has no credit. -/
def Dev.wantsTag (d : Dev) (n : Nat) (t : Transfer) : Bool :=
  let p := PDesc.ofBits t.desc
  t.started && p.op != 2 && t.pieces.any (fun x => x.phase == .free)
    && (!(p.op == 1 && p.gated) || t.credit || decide (t.tags < d.get (PORTER_CTX_hold n t.ctx)))

/-- The first piece without a tag takes one. -/
def tagFirst (k : Nat) : List Piece → List Piece
  | [] => []
  | x :: xs => if x.phase = .free then { x with phase := .read, seq := k } :: xs else x :: tagFirst k xs

/-- One pclk of the allocator: the next stream in turn that has a piece to tag gets the free tag; with none free, every transfer with
such a piece waits for tags. -/
def Dev.grantTag (d : Dev) (n : Nat) : Dev :=
  let q := d.porter n
  if 1024 ≤ q.tags then
    let waits := (q.transfers.filter (fun t => d.wantsTag n t && !t.tagWait)).length
    (d.setPorter n { q with transfers := q.transfers.map (fun t => if d.wantsTag n t then { t with tagWait := true } else t) }).bump
      (PORTER_WAITS_tag_waits n) waits
  else
    let order := (List.range 4).map (fun i => (q.next + i) % 4)
    match order.find? (fun st => q.transfers.any (fun t => t.stream == st && d.wantsTag n t)) with
    | none => d
    | some st =>
      match q.transfers.findIdx? (fun t => t.stream == st && d.wantsTag n t) with
      | none => d
      | some i =>
        match q.transfers[i]? with
        | none => d
        | some t => d.setPorter n ⟨q.transfers.set i { t with pieces := tagFirst q.issued t.pieces }, (st + 1) % 4, q.issued + 1⟩

def execTagGrant (p : BitVec 5) (s : State) : Host.Outcome State Fault Refusal := s.onDev (fun d => d.grantTag p.toNat)

/-! Pieces (R207, R208, R214, R222, R223). -/

/-- A piece of a Porter. -/
def Dev.piece (d : Dev) (n t i : Nat) : Option (Transfer × Piece) :=
  ((d.porter n).transfers[t]?).bind (fun x => (x.pieces[i]?).map (fun p => (x, p)))

/-- Changes a piece of a Porter. -/
def Dev.setPiece (d : Dev) (n t i : Nat) (p : Piece) : Dev :=
  let q := d.porter n
  match q.transfers[t]? with
  | none => d
  | some x => d.setPorter n { q with transfers := q.transfers.set t { x with pieces := x.pieces.set i p } }

/-- Whether an access of the Porter to a line of this piece whose tag was issued earlier has not taken effect (R208). -/
def Porter.orderedBefore (q : Porter) (p : Piece) : Bool :=
  q.transfers.any (fun t => t.pieces.any (fun x =>
    (x.phase == .read || x.phase == .fill || x.phase == .write) && decide (x.seq < p.seq)
      && (linesOf x.addr x.rows).any (fun l => (linesOf p.addr p.rows).contains l)))

/-- PIECE_RETURN: the rows of a piece are in the buffer.  A coherent line is snooped first, and an earlier access to a line goes
first. -/
def Dev.returnPiece (d : Dev) (n t i : Nat) (e : Ecc) : Dev :=
  match d.piece n t i with
  | some (x, p) =>
    if p.phase ≠ .read ∨ (d.porter n).orderedBefore p = true then d
    else if p.coh && !((linesOf p.addr p.rows).all d.readable) then (linesOf p.addr p.rows).foldl Dev.snoopRead d
    else
      let d1 := d.checkLine p.addr e x.pkt.job x.pkt.jgen
      let addrs := (List.range p.rows).map (fun j => p.addr + j * 64)
      let bad := addrs.any d1.linePoisoned
      let d2 := d1.setPiece n t i { p with phase := .full, data := addrs.map d1.line, poison := bad }
      if bad then d2.bump (PORTER_ERR_poisoned n) 1 else d2
  | none => d

def execPieceReturn (p : BitVec 5) (t i : Nat) (e : Ecc) (s : State) : Host.Outcome State Fault Refusal :=
  s.onDev (fun d => d.returnPiece p.toNat t i e)

/-- PIECE_TIMEOUT: a piece still in READ is treated as uncorrectable; the data that may come later is discarded (R222). -/
def Dev.timeoutPiece (d : Dev) (n t i : Nat) : Dev :=
  match d.piece n t i with
  | some (x, p) =>
    if p.phase ≠ .read then d
    else
      ((d.setPiece n t i { p with phase := .full, data := List.replicate p.rows 0, poison := true }).bump
        (PORTER_ERR_poisoned n) 1).raise 0x0012
        ⟨3, n, x.pkt.job, x.pkt.jgen, BitVec.ofNat 32 (d.get WARD_STEP_NOW_step), p.addr⟩
  | none => d

def execPieceTimeout (p : BitVec 5) (t i : Nat) (s : State) : Host.Outcome State Fault Refusal :=
  s.onDev (fun d => d.timeoutPiece p.toNat t i)

/-! Rows out (R212, R217, R218, R221). -/

/-- The header row of a Porter group (R217). -/
def porterHeader (n : Nat) (t : Transfer) (kind poison : Nat) : RowData :=
  let p := PDesc.ofBits t.desc
  BitVec.ofNat 512 (ofBytes (toBytes 1 kind ++ toBytes 1 (poison + 2 * t.fenceWait.toNat + 4 * t.tagWait.toNat)
    ++ toBytes 1 (p.ctr % 128) ++ toBytes 1 p.inc ++ toBytes 3 p.caddr ++ toBytes 1 0 ++ toBytes 2 p.segRows
    ++ toBytes 2 p.nseg ++ toBytes 2 p.cstride ++ toBytes 2 t.pkt.job.toNat ++ toBytes 1 t.pkt.jgen.toNat ++ toBytes 1 n))

/-- The transfer whose rows a stream is sending: its first LOAD or FILL that has started. -/
def Porter.sending (q : Porter) (st : Nat) : Option Nat :=
  q.transfers.findIdx? (fun t => t.stream == st && t.started && (PDesc.ofBits t.desc).op != 2)

/-- The pieces after one row of the first piece with rows left has gone, with that row and its mark; none while that piece is not
FULL. -/
def drainRow : List Piece → Option ((RowData × Bool) × List Piece)
  | [] => none
  | x :: xs =>
    if x.phase = .done then (drainRow xs).map (fun r => (r.1, x :: r.2))
    else if x.phase = .full then
      match x.data with
      | [] => none
      | v :: vs => some ((v, x.poison), { x with data := vs, phase := if vs.isEmpty then .done else .full } :: xs)
    else none

/-- The next row of a stream: the header of a LOAD, then its rows in transfer order; the rows of a FILL have dtag 0xFF and no header
(R218); the last row's sideband carries poison when any piece was poisoned, and frees the transfer. -/
def Dev.porterRow (d : Dev) (n st : Nat) : Option (Row × Dev) :=
  let q := d.porter n
  match q.sending st with
  | none => none
  | some i =>
    match q.transfers[i]? with
    | none => none
    | some t =>
      let p := PDesc.ofBits t.desc
      let tag := if p.op = 3 then 0xFF else BitVec.ofNat 8 p.dtag
      let keep := fun t' => d.setPorter n { q with transfers := q.transfers.set i t' }
      if p.op = 1 ∧ p.gated = true ∧ t.credit = false then none
      else if p.op = 1 ∧ t.headerSent = false then
        let d1 := keep { t with headerSent := true }
        some (⟨porterHeader n t 0x10 0, true, p.rows == 0, false, tag⟩, if p.rows = 0 then d1.transferDone n i else d1)
      else
        (drainRow t.pieces).map (fun ⟨(v, bad), ps⟩ =>
          let last := ps.all (fun x => x.phase == .done)
          let any := ps.any (fun x => x.poison)
          let d1 := keep { t with pieces := ps }
          (⟨v, false, last, bad || (last && any), tag⟩, if last then d1.transferDone n i else d1))

/-- GATED_CREDIT_TAKE: the gated LOAD at the head of its stream takes a credit when its pool is nonzero (R221). -/
def Dev.takePoolCredit (d : Dev) (n st : Nat) : Dev :=
  let q := d.porter n
  match q.sending st with
  | none => d
  | some i =>
    match q.transfers[i]? with
    | none => d
    | some t =>
      let p := PDesc.ofBits t.desc
      let f := PORTER_POOL_credits n t.ctx (bits p.pool 0 4)
      if p.op = 1 ∧ p.gated = true ∧ t.credit = false ∧ d.get f ≠ 0 then
        (d.setPorter n { q with transfers := q.transfers.set i { t with credit := true } }).put f (d.get f - 1)
      else d

def execGatedCreditTake (p : BitVec 5) (st : BitVec 2) (s : State) : Host.Outcome State Fault Refusal :=
  s.onDev (fun d => d.takePoolCredit p.toNat st.toNat)

/-! STORE (R219, R381). -/

/-- The CMD of a STORE at its source core: while the core is in RESET a poisoned header alone answers it. -/
def Dev.storeCmd (d : Dev) (p : Packet) (portFree : Bool) : Dev :=
  let c := packetCore p
  let k := d.core c
  let ds := PDesc.ofBits (packetDesc p)
  let stream := 32 + ds.stream
  let tag := BitVec.ofNat 8 ds.dtag
  let t : Transfer := { (⟨packetDesc p, p, 0, false, false, false, false, false, false, false, []⟩ : Transfer) with
    fenceWait := bit p.inl.toNat 5, tagWait := bit p.inl.toNat 6 }
  let head := fun (bad : Bool) =>
    (⟨stream, ⟨porterHeader (p.inl.toNat % 32) t 0x11 bad.toNat, true, bad, bad, tag⟩⟩ : InjRow)
  match k.storeRun with
  | none =>
    if k.run = .reset then (d.eject p).setCore c { k with inj := k.inj ++ [head true] }
    else if 64 ≤ k.inj.length then d
    else d.setCore c { k with inj := k.inj ++ [head false], storeRun := some ⟨p, ds.coreRows, stream, tag, ds.counter⟩ }
  | some r =>
    if r.cmd ≠ p then d
    else match r.rest with
      | [] => (d.eject p).setCore c { k with storeRun := none }
      | a :: rest =>
        let m := addrPort a
        let last := rest.isEmpty
        let k1 := { k with storeRun := if last then none else some { r with rest := rest } }
        let d1 := if last then d.eject p else d
        if (k.queue m).isEmpty ∧ portFree = true then
          (if 64 ≤ k.inj.length then d else d1.setCore c (k1.readRow a stream last tag r.ctr false))
        else if (k.queue m).length < 16 then d1.setCore c (k1.enqueue m (.read a stream last tag r.ctr))
        else (d1.setCore c (k1.readRow a stream last tag r.ctr true)).overflow c a

def execStoreCmd (p : Packet) (portFree : Bool) (s : State) : Host.Outcome State Fault Refusal :=
  s.onCore (packetCore p) (fun d => d.storeCmd p portFree)

/-- A row joins the first piece of a STORE that is not complete; a complete piece is written. -/
def fillPiece (v : RowData) (bad : Bool) : List Piece → List Piece
  | [] => []
  | x :: xs =>
    if x.phase = .fill then
      let data := x.data ++ [v]
      { x with data := data, poison := x.poison || bad, phase := if data.length = x.rows then .write else .fill } :: xs
    else x :: fillPiece v bad xs

/-- The STORE of Porter `n` that awaits rows with a tag: one whose header has, or has not, come. -/
def Porter.awaiting (q : Porter) (tag : BitVec 8) (seen : Bool) : Option Nat :=
  q.transfers.findIdx? (fun t => (PDesc.ofBits t.desc).op == 2 && t.started && t.headerSeen == seen
    && (PDesc.ofBits t.desc).dtag == tag.toNat && t.pieces.any (fun x => x.phase == .fill))

/-- A row at a stack's Porters: a header opens its STORE, a poisoned one without rows ends it; a data row fills the next piece; a row
that matches no STORE is dropped (R219, R381). -/
def Dev.storeRow (d : Dev) (k : Nat) (r : Row) : Dev :=
  let lost := (d.bump MESH_STAT_orphan 1).raise 0x0020 ⟨3, 4 * k, 0, 0, BitVec.ofNat 32 (d.get WARD_STEP_NOW_step), r.tag.toNat⟩
  let find := fun (seen : Bool) => (List.range 4).findSome? (fun j =>
    ((d.porter (4 * k + j)).awaiting r.tag seen).map (fun i => (4 * k + j, i)))
  match find (!r.head) with
  | none => lost
  | some (n, i) =>
    let q := d.porter n
    match q.transfers[i]? with
    | none => lost
    | some t =>
      if r.head then
        if r.last then d.transferDone n i
        else d.setPorter n { q with transfers := q.transfers.set i { t with headerSeen := true } }
      else
        let ps := fillPiece r.data r.poison t.pieces
        d.setPorter n { q with transfers := q.transfers.set i { t with pieces := ps } }

def execStoreRowArrival (k : BitVec 3) (r : Row) (s : State) : Host.Outcome State Fault Refusal :=
  s.onDev (fun d => { d with edgeRows := d.edgeRows.erase (k.toNat, r) }.storeRow k.toNat r)

/-- PIECE_WRITE_ACK: the lines of a piece are written, poisoned when the piece is; holders of a coherent line drop it first.  The last
acknowledgement ends the transfer (R207, R208, R219, R223). -/
def Dev.writeAck (d : Dev) (n t i : Nat) : Dev :=
  match d.piece n t i with
  | some (_, p) =>
    if p.phase ≠ .write ∨ (d.porter n).orderedBefore p = true then d
    else if p.coh && !((linesOf p.addr p.rows).all d.writable) then (linesOf p.addr p.rows).foldl Dev.snoopWrite d
    else
      let d1 := (List.range p.rows).foldl (fun d j => d.setLine (p.addr + j * 64) (p.data.getD j 0) p.poison) d
      let d2 := (d1.setPiece n t i { p with phase := .done, data := [] }).bump (PORTER_ERR_poisoned n) p.poison.toNat
      let done : Bool := match (d2.porter n).transfers[t]? with
        | some x => x.pieces.all (fun y => y.phase == .done)
        | none => false
      if done then d2.transferDone n t else d2
  | none => d

def execPieceWriteAck (p : BitVec 5) (t i : Nat) (s : State) : Host.Outcome State Fault Refusal :=
  s.onDev (fun d => d.writeAck p.toNat t i)

/-! Fences and failures (R220, R224). -/

/-- FENCE_POST_ARRIVAL: the oldest post for a stack reaches its fence table. -/
def Dev.postArrives (d : Dev) (k : Nat) : Dev :=
  match d.posts.find? (fun p => p.stack == k) with
  | none => d
  | some p => { d with posts := d.posts.erase p,
                       fences := Tab.set (fun _ => 0) d.fences (fenceKey k p.ctx p.fence.toNat) p.step.toNat }

def execFencePostArrival (k : BitVec 3) (s : State) : Host.Outcome State Fault Refusal :=
  s.onDev (fun d => d.postArrives k.toNat)

/-- STACK_FAIL: Naeno marks a stack failed; its Porters complete every transfer, and Naeno reports DEVICE_LOST. -/
def Dev.stackFail (d : Dev) (k : Nat) : Dev :=
  let d1 := ((d.put (HBM_STAT_marked k) 1).put (HBM_STAT_state k) 3)
  ((List.range 4).foldl (fun d j => d.failAll (4 * k + j)) d1).raise 0x0013
    ⟨5, k, 0, 0, BitVec.ofNat 32 (d.get WARD_STEP_NOW_step), 0⟩

def execStackFail (k : BitVec 3) (s : State) : Host.Outcome State Fault Refusal :=
  s.onDev (fun d => d.stackFail k.toNat)

end Sys2Proof.Machine
end

