-- ==== Sys2Proof/Machine/Relay.lean ====
section
/-! DEFINITION. The port relays: egress and ingress messages, null messages (R164, R258 to R262). -/

namespace Sys2Proof.Machine

/-- Runs a command of a port that the device must have. -/
def State.onPort (s : State) (p : BitVec 7) (f : Dev → Dev) : Host.Outcome State Fault Refusal :=
  if s.dev.portOn p.toNat then s.onDev f else .fault (.noSuchUnit "port" p.toNat)

/-! Egress (R258, R262). -/

/-- The egress flow whose ltag a row carries, on the router's own lane or its joined lane. -/
def Dev.egressFlow (d : Dev) (r : CoreId) (tag : Nat) : Option (Nat × Nat) :=
  let on := fun (l : Option (Nat × Nat)) => l.bind (fun q => ((List.range 64).find? (fun f =>
    d.portOn q.1 && d.get (LINK_FLOW_valid q.1 f) == 1 && d.get (LINK_FLOW_dir q.1 f) == 0
      && d.get (LINK_FLOW_ltag q.1 f) == tag)).map (fun f => (q.1, f)))
  match on (d.ownLane r) with
  | some x => some x
  | none => on (d.joinedLane r)

/-- A row that leaves router `r` on O joins its flow's message; a whole message is buffered, or discarded when the flow is gone; a row
without a flow is dropped (R154, R258). -/
def Dev.egressRow (d : Dev) (r : CoreId) (row : Row) : Dev :=
  match d.egressFlow r row.tag.toNat with
  | none => d.orphan r (d.core r) row.tag.toNat
  | some (p, f) =>
    let y := d.relay p
    let rows := Tab.get (fun _ => []) y.part f ++ [row]
    if row.last then
      let d1 := d.setRelay p { y with part := Tab.set (fun _ => []) y.part f [] }
      if d.get (LINK_FLOW_gone p f) = 1 then d1.discardEgress p f
      else
        let m : LinkMsg := ⟨rows.map (fun x => x.data), rows.any (fun x => x.poison), d.get (LINK_FLOW_lane p f)⟩
        d1.setRelay p { d1.relay p with queue := Tab.set (fun _ => []) y.queue f (Tab.get (fun _ => []) y.queue f ++ [m]) }
    else d.setRelay p { y with part := Tab.set (fun _ => []) y.part f rows }

/-- The lane a message leaves on: VL0 becomes VL1 at a dateline (R262). -/
def Dev.txLane (d : Dev) (p : Nat) (m : LinkMsg) : Nat :=
  if m.lane = 0 ∧ d.get (LINK_PORT_CFG_dateline p) = 1 then 1 else m.lane

/-- EGRESS_TRANSMIT: a live flow with a credit takes it and starts its oldest message (R258). -/
def Dev.egressTransmit (d : Dev) (p f : Nat) : Dev :=
  let r := d.relay p
  match Tab.get (fun _ => []) r.queue f with
  | [] => d
  | m :: ms =>
    if d.get (LINK_FLOW_valid p f) = 0 ∨ d.get (LINK_FLOW_gone p f) = 1 ∨ d.get (LINK_FLOW_credits p f) = 0 ∨ d.linkState p ≠ 5
    then d
    else
      let vl := d.txLane p m
      let d1 := (d.setRelay p { r with queue := Tab.set (fun _ => []) r.queue f ms,
                                       sending := Tab.set (fun _ => []) r.sending f (Tab.get (fun _ => []) r.sending f ++ [m]) }).put
        (LINK_FLOW_credits p f) (d.get (LINK_FLOW_credits p f) - 1)
      let x := d1.port p
      let msg : TxMsg := ⟨some f, messageBytes (d.get (LINK_FLOW_rflow p f)) 0 m.poison m.rows⟩
      (d1.setPort p (x.setTx vl (x.txOf vl ++ [msg]))).flush p

def execEgressTransmit (p : BitVec 7) (f : BitVec 6) (s : State) : Host.Outcome State Fault Refusal :=
  s.onPort p (fun d => d.egressTransmit p.toNat f.toNat)

/-- Whether a message of a flow still has bytes to leave. -/
def Port.stillSending (x : Port) (f : Nat) : Bool := x.tx.any (fun q => q.2.any (fun m => m.flow == some f))

/-- EGRESS_MESSAGE_SENT: the last flit of a flow's message has left; its entry is free and its sender gets the credit (R258). -/
def Dev.egressSent (d : Dev) (p f : Nat) : Dev :=
  let r := d.relay p
  match Tab.get (fun _ => []) r.sending f with
  | [] => d
  | _ :: ms =>
    if (d.port p).stillSending f then d
    else (d.setRelay p { r with sending := Tab.set (fun _ => []) r.sending f ms }).entryFreed p f

def execEgressMessageSent (p : BitVec 7) (f : BitVec 6) (s : State) : Host.Outcome State Fault Refusal :=
  s.onPort p (fun d => d.egressSent p.toNat f.toNat)

/-! Ingress (R259, R261, R288). -/

/-- A header row with bytes 4, 5 and 6 rewritten: the router's coordinates and the flow number modulo 32 (R259). -/
def relayHeader (h : RowData) (r : CoreId) (f : Nat) : RowData :=
  BitVec.ofNat 512 (setBits h.toNat 32 24 (r.x.toNat + r.y.toNat * 2 ^ 8 + f % 32 * 2 ^ 16))

/-- The rows of a group with the sideband of a relay: head and last, the relay's own tag, one poison mark for all. -/
def sideband (tag : BitVec 8) (poison : Bool) (rows : List RowData) : List Row :=
  (List.range rows.length).map (fun i => ⟨rows.getD i 0, i == 0, i + 1 == rows.length, poison, tag⟩)

/-- Rows join those ready on the O lane of a flow. -/
def Dev.presentRows (d : Dev) (p f : Nat) (rows : List Row) : Dev :=
  let r := d.relay p
  d.setRelay p { r with lane := Tab.set (fun _ => []) r.lane (flowLane f) (Tab.get (fun _ => []) r.lane (flowLane f) ++ rows) }

/-- After a presented message the flow's slot advances and an entry of its receivers is taken (R261). -/
def Dev.afterPresent (d : Dev) (p f : Nat) : Dev :=
  let n := 64 + f
  (d.put (LINK_FLOW_slot p n) ((d.get (LINK_FLOW_slot p n) + d.get (LINK_FLOW_sstep p n)) % 256)).put (LINK_FLOW_credits p n)
    (d.get (LINK_FLOW_credits p n) - 1)

/-- Whether egress flow `f` of port `p` has a free entry (R258). -/
def Dev.egressRoom (d : Dev) (p f : Nat) : Bool :=
  let r := d.relay p
  decide ((Tab.get (fun _ => []) r.queue f).length + (Tab.get (fun _ => []) r.sending f).length < d.get (LINK_FLOW_depth p f))

/-- A message of an ingress flow is presented: on the O lane of its router, or for pass = 1 to the egress flow it names, which must have a
free entry unless it is gone (R259, R261). -/
def Dev.relayPresent (d : Dev) (p f : Nat) (m : LinkMsg) : Option Dev :=
  let n := 64 + f
  if d.get (LINK_FLOW_pass p n) = 1 then
    let q := d.get (LINK_FLOW_ax p n)
    let g := d.get (LINK_FLOW_aep p n)
    if d.get (LINK_FLOW_gone q g) = 1 then some ((d.discardEgress q g).afterPresent p f)
    else if d.egressRoom q g then
      let y := d.relay q
      some ((d.setRelay q { y with queue := Tab.set (fun _ => []) y.queue g (Tab.get (fun _ => []) y.queue g ++ [m]) }).afterPresent p f)
    else none
  else
    match m.rows with
    | [] => some d
    | h :: rows =>
      let rs := sideband (BitVec.ofNat 8 (d.get (LINK_FLOW_ltag p n))) m.poison (relayHeader h (d.flowRouter p f) f :: rows)
      some ((d.presentRows p f rs).afterPresent p f)

/-- INGRESS_MESSAGE: the oldest message of an open flow is presented (R259, R261). -/
def Dev.ingressMessage (d : Dev) (p f : Nat) : Dev :=
  let r := d.relay p
  match Tab.get (fun _ => []) r.ready f with
  | [] => d
  | m :: ms =>
    if Tab.get (fun _ => false) r.closed f = true then d
    else ((d.setRelay p { r with ready := Tab.set (fun _ => []) r.ready f ms }).relayPresent p f m).getD d

def execIngressMessage (p : BitVec 7) (f : BitVec 6) (s : State) : Host.Outcome State Fault Refusal :=
  s.onPort p (fun d => d.ingressMessage p.toNat f.toNat)

/-- The header row of a null message: the flow's kind, target, gen and slot, and zero elements (R131, R261).  The spec states no flags,
format, zero point and pad for it: they are free (log 1). -/
def Dev.nullHeader (d : Dev) (p f free : Nat) : RowData :=
  let n := 64 + f
  let r := d.flowRouter p f
  BitVec.ofNat 512 (ofBytes (toBytes 1 (if d.get (LINK_FLOW_tally p n) = 1 then 2 else 1) ++ toBytes 1 (d.get (LINK_FLOW_aep p n) % 32)
    ++ toBytes 1 (d.get (LINK_FLOW_gen p n)) ++ toBytes 1 (d.get (LINK_FLOW_slot p n)) ++ toBytes 1 r.x.toNat ++ toBytes 1 r.y.toNat
    ++ toBytes 1 (f % 32) ++ toBytes 1 free ++ toBytes 4 0 ++ toBytes 4 (free / 256)))

/-- NULL_MESSAGE: a gone, open ingress flow with a credit presents a null message to its receivers (R261). -/
def Dev.nullMessage (d : Dev) (p f : Nat) : Dev :=
  let n := 64 + f
  if d.get (LINK_FLOW_valid p n) = 1 ∧ d.get (LINK_FLOW_gone p n) = 1 ∧ d.get (LINK_FLOW_credits p n) ≠ 0
      ∧ Tab.get (fun _ => false) (d.relay p).closed f = false then
    let (v, d0) := d.free
    ((d0.relayPresent p f ⟨[d.nullHeader p f v], false, d.get (LINK_FLOW_lane p n)⟩).map
      (fun x => x.count (fun c => { c with nulls := c.nulls + 1 }))).getD d
  else d

def execNullMessage (p : BitVec 7) (f : BitVec 6) (s : State) : Host.Outcome State Fault Refusal :=
  s.onPort p (fun d => d.nullMessage p.toNat f.toNat)

/-- The next row ready on a lane of a port, and the device without it. -/
def Dev.laneRow (d : Dev) (l : Option (Nat × Nat)) : Option (Row × Dev) :=
  match l with
  | none => none
  | some (p, i) =>
    let r := d.relay p
    match Tab.get (fun _ => []) r.lane i with
    | [] => none
    | x :: xs => some (x, d.setRelay p { r with lane := Tab.set (fun _ => []) r.lane i xs })

end Sys2Proof.Machine
end

