-- ==== Sys2Proof/Machine/Clerk.lean ====
section
/-! DEFINITION. The Clerks: requests and their checks, update programs, the row commit, step skip, norm passes, export records and pair
failover (R225 to R244, R430). -/

namespace Sys2Proof.Machine

/-! Requests and shard entries (R225 to R229). -/

/-- Bytes `i` to `i + n - 1` of a request. -/
def reqAt (p : Packet) (i n : Nat) : Nat := descBytes (packetDesc p) i n
def reqOp (p : Packet) : Nat := reqAt p 0 1
def reqShard (p : Packet) : Nat := reqAt p 2 2
def reqStep (p : Packet) : BitVec 32 := BitVec.ofNat 32 (reqAt p 4 4)
def reqEva (p : Packet) : Nat := reqAt p 8 5
def reqSel (p : Packet) : Nat := reqAt p 13 1

/-- Reserved fields and the alignment of a request (R230, reason 0x2). -/
def reqMalformed (p : Packet) : Bool :=
  !([0x21, 0x22, 0x23, 0x24].contains (reqOp p)) || reqAt p 1 1 / 2 != 0 || reqAt p 14 18 != 0
    || (decide (0x23 ≤ reqOp p) && reqEva p % 64 != 0) || (reqOp p == 0x23 && decide (15 < reqSel p))
    || (reqOp p == 0x24 && decide (3 < reqSel p))

/-- Bytes of a shard entry. -/
def entAt (e : BitVec 1024) (i n : Nat) : Nat := bits e.toNat (8 * i) (8 * n)

/-- A shard table entry (R227). -/
structure Shard where
  count : Nat
  prog : Nat
  hset : Nat
  split : Bool
  bf16 : Bool
  server : Nat
  factored : Bool
  fmt : Option Fmt
  code : Nat
  crnd : Nat
  zp : Int
  fence : Nat
  cols : Nat
  clamp : Nat
deriving DecidableEq, Repr

def Shard.ofBits (e : BitVec 1024) : Shard :=
  let m := entAt e 16 1
  ⟨entAt e 10 4, entAt e 14 1 % 16, entAt e 15 1 % 16, bit m 0, bit m 1, bits m 2 1, bit m 3, Fmt.ofCode (entAt e 17 1), entAt e 17 1,
    entAt e 18 1 % 4, signed 8 (entAt e 19 1), entAt e 20 2 % 4096, entAt e 22 2, entAt e 52 4⟩

/-- The address of array `i`: master, first moment, second moment, gradient, copy (R227). -/
def arrayVa (e : BitVec 1024) (i : Nat) : Nat := entAt e (24 + 5 * i) 5

/-- Reserved bits and alignments of an entry (R230, reason 0x2). -/
def entMalformed (e : BitVec 1024) : Bool :=
  bit (entAt e 4 6) 47 || decide (15 < entAt e 14 1) || decide (15 < entAt e 15 1) || decide (15 < entAt e 16 1)
    || decide (3 < entAt e 18 1) || (entAt e 18 1 == 3 && !(Shard.ofBits e).split) || decide (4095 < entAt e 20 2)
    || entAt e 49 3 != 0 || entAt e 56 4 != 0 || entAt e 61 3 != 0 || entAt e 112 16 != 0
    || (List.range 5).any (fun i => arrayVa e i % 64 != 0)

/-- Whether an entry is inconsistent (R230, reason 0x9): copy format outside 0x02 to 0x0C, clamp_max, a rule of R226, the shape. -/
def entInconsistent (e : BitVec 1024) : Bool :=
  let s := Shard.ofBits e
  let shape := (List.range 4).foldl (fun n i => n * entAt e (96 + 4 * i) 4) 1
  decide (s.code < 2) || decide (12 < s.code) || s.clamp == 0 || decide (0x7F800000 ≤ s.clamp)
    || (s.split && (s.code != 2 || decide (0x7F7FFFFF < s.clamp))) || shape != s.count || s.count == 0
    || entAt e 60 1 == 0 || decide (4 < entAt e 60 1)

/-- Rows of a factored shard, ⌈count ÷ cols⌉. -/
def Shard.rows (s : Shard) : Nat := if s.cols = 0 then 0 else cdiv s.count s.cols

/-- Width of a moment in bits. -/
def Shard.momentWidth (s : Shard) : Nat := if s.bf16 then 16 else 32

/-- Elements of the second moment: one a parameter, or one a row and column when it is factored. -/
def Shard.m2Count (s : Shard) : Nat := if s.factored then s.rows + s.cols else s.count

/-- Width of a copy element, and the bytes of the copy's elements before its MX scales (R77, R225). -/
def Shard.copyWidth (s : Shard) : Nat := (s.fmt.map Fmt.width).getD 16
def Shard.isMx (s : Shard) : Bool := (s.fmt.map Fmt.mx).getD false
def Shard.scaleOffset (s : Shard) : Nat := cdiv (s.count * s.copyWidth) 512 * 64

/-- The byte spans of stream `st`: 0 master, 1 and 2 moments, 3 gradient, 4 copy (R225, R226). -/
def streamSpans (e : BitVec 1024) (st : Nat) : List (Nat × Nat) :=
  let s := Shard.ofBits e
  match st with
  | 0 => if s.split then [(arrayVa e 0, s.count * 2), (arrayVa e 4, s.count * 2)] else [(arrayVa e 0, s.count * 4)]
  | 1 => [(arrayVa e 1, cdiv (s.count * s.momentWidth) 8)]
  | 2 => [(arrayVa e 2, cdiv (s.m2Count * s.momentWidth) 8)]
  | 3 => [(arrayVa e 3, s.count * 4)]
  | _ =>
    if s.split then []
    else if s.isMx then [(arrayVa e 4, s.scaleOffset + cdiv s.count 32)]
    else [(arrayVa e 4, cdiv (s.count * s.copyWidth) 8)]

/-! Programs (R231 to R233). -/

/-- The fields of a micro-op. -/
def opOf (w : BitVec 32) : Nat := bits w.toNat 26 6
def opD (w : BitVec 32) : Nat := bits w.toNat 22 4
def opA (w : BitVec 32) : Nat := bits w.toNat 17 5
def opB (w : BitVec 32) : Nat := bits w.toNat 12 5
def opC (w : BitVec 32) : Nat := bits w.toNat 7 5
def opClamp (w : BitVec 32) : Bool := bit w.toNat 6

/-- The AdamW program of slot 1 (R233). -/
def adamW : List (BitVec 32) :=
  [0x04060000, 0x1401A000, 0x04420000, 0x14431000, 0x18412080, 0x04840000, 0x14853000, 0x14C00000, 0x18874100, 0x15037000,
   0x15458000, 0x214A0000, 0x0D4B5000, 0x1D085000, 0x05800000, 0x158D6000, 0x19899300, 0x08420000, 0x08840000, 0x080C0040,
   0x090C0040, 0xFC000000]

/-- The program of a slot: vendor programs in 0 to 6, the job's in 7 to 15. -/
def Dev.clerkProgram (d : Dev) (slot : Nat) : List (BitVec 32) :=
  if slot = 1 then adamW else if slot < 7 then Config.vendorProgram slot else Tab.get (fun _ => []) d.clerkPrograms slot

/-- The micro-ops before END. -/
def programBody (p : List (BitVec 32)) : List (BitVec 32) := p.takeWhile (fun w => opOf w != 0x3F)

/-- The register sources a micro-op reads. -/
def opSources (w : BitVec 32) : List Nat :=
  let o := opOf w
  if o = 6 then [opA w, opB w, opC w]
  else if o = 3 ∨ o = 4 ∨ o = 5 ∨ o = 7 ∨ o = 9 ∨ o = 10 then [opA w, opB w]
  else if o = 2 ∨ o = 8 ∨ (0x0B ≤ o ∧ o ≤ 0x0E) ∨ (0x10 ≤ o ∧ o ≤ 0x12) then [opA w]
  else []

/-- Whether a micro-op writes register d. -/
def opWrites (w : BitVec 32) : Bool :=
  let o := opOf w
  o == 1 || (decide (3 ≤ o) && decide (o ≤ 0x0E)) || o == 0x13 || o == 0x14

/-- Whether every register is written before it is read. -/
def readsWritten : List (BitVec 32) → List Nat → Bool
  | [], _ => true
  | w :: ws, regs =>
    (opSources w).all (fun r => decide (16 ≤ r) || regs.contains r)
      && readsWritten ws (if opWrites w then opD w :: regs else regs)

def progLoads (p : List (BitVec 32)) : List Nat := (p.filter (fun w => opOf w == 1)).map opA
def progStores (p : List (BitVec 32)) : List Nat := (p.filter (fun w => opOf w == 2)).map opD

/-- Naeno's check of a program at slot load (R232). -/
def programOk (p : List (BitVec 32)) : Bool :=
  let b := programBody p
  decide (p.length ≤ 64) && decide (b.length < p.length)
    && p.all (fun w => bits w.toNat 0 6 == 0 && (opOf w == 0x3F || (decide (1 ≤ opOf w) && decide (opOf w ≤ 0x0E))
        || (decide (0x10 ≤ opOf w) && decide (opOf w ≤ 0x14))))
    && (progLoads b).all (fun s => decide (s < 4)) && (progStores b).all (fun s => [0, 1, 2, 4].contains s)
    && (progLoads b).Nodup && (progStores b).Nodup && readsWritten b []
    && !(b.any (fun w => [0x10, 0x11, 0x12].contains (opOf w)) && b.any (fun w => opOf w == 2))

/-- Whether the pass may run a program over a shard (R230, reason 0x7; R232). -/
def programFits (s : Shard) (update : Bool) (p : List (BitVec 32)) : Bool :=
  let b := programBody p
  let uses := fun (l : List Nat) => b.any (fun w => l.contains (opOf w))
  !p.isEmpty && !(update && uses [0x10, 0x11, 0x12]) && !(!update && uses [2])
    && !(uses [0x11, 0x12, 0x13, 0x14] && !(s.factored && s.cols != 0 && decide (s.rows ≤ 4096) && decide (s.cols ≤ 4096)))
    && !(s.factored && ((progLoads b).contains 2 || (progStores b).contains 2))

/-! Virtual accesses. -/

/-- The line numbers of a span that lie on pages with coh = 1. -/
def Dev.cohLines (d : Dev) (base va n : Nat) : List Nat :=
  (List.range (if n = 0 then 0 else cdiv (va % 64 + n) 64)).filterMap (fun i =>
    let a := va / 64 * 64 + 64 * i
    let e := d.pte base (a / 2 ^ 21)
    if e.coh then some (e.phys a / 64) else none)

/-- Whether the directories let a unit read and write spans now, and the snoops it asks for otherwise (R207, R353). -/
def Dev.cohReady (d : Dev) (base : Nat) (reads writes : List (Nat × Nat)) : Bool :=
  (reads.flatMap (fun s => d.cohLines base s.1 s.2)).all d.readable && (writes.flatMap (fun s => d.cohLines base s.1 s.2)).all d.writable
def Dev.cohAsk (d : Dev) (base : Nat) (reads writes : List (Nat × Nat)) : Dev :=
  let d1 := (reads.flatMap (fun s => d.cohLines base s.1 s.2)).foldl Dev.snoopRead d
  (writes.flatMap (fun s => d.cohLines base s.1 s.2)).foldl Dev.snoopWrite d1

/-! Checks (R230). -/

/-- The Clerk that serves queue `k`: its own, or its partner while it is failed (R242). -/
def Dev.serverOf (d : Dev) (k : Nat) : Nat := if (d.clerk k).failed then k ^^^ 1 else k

/-- The queues of a pair are not served once both have failed (R243). -/
def Dev.served (d : Dev) (k : Nat) : Bool := !((d.clerk k).failed && (d.clerk (k ^^^ 1)).failed)

/-- The page table and the context of a Clerk's job. -/
def Dev.clerkCtx (d : Dev) (k : Nat) (p : Packet) : Option Nat :=
  if d.ending p.job then none else d.porterCtx (4 * (k / 2)) p.job p.jgen
def Dev.clerkBase (d : Dev) (k ctx : Nat) : Nat := d.ptBase (4 * (k / 2)) ctx

/-- The address of a request's shard entry. -/
def Dev.entryVa (d : Dev) (k ctx : Nat) (p : Packet) : Nat := d.get (CLERK_CTX_stbase k ctx) + 128 * reqShard p

/-- The lowest reason of R230 that a span of pages gives: 0x3, 0x4 or 0x5; 0 for none. -/
def Dev.pageReason (d : Dev) (base job stack : Nat) (spans : List (Nat × Nat)) (write : Bool) : Nat :=
  let ps := (spans.flatMap (fun s => pagesOf s.1 s.2)).map (d.pte base)
  if ps.any (fun e => !e.valid || e.job != job) then 3
  else if ps.any (fun e => if write then !e.pw else !e.pr) then 4
  else if ps.any (fun e => e.stack != stack) then 5
  else 0

/-- The fence entry as the stack's Clerks see it: with the posts that have not reached the Porters yet. -/
def Dev.fenceSeen (d : Dev) (stack ctx fence : Nat) : Nat :=
  match (d.posts.filter (fun q => q.stack == stack && q.ctx == ctx && q.fence.toNat == fence)).getLast? with
  | some q => q.step.toNat
  | none => d.fence stack ctx fence

/-- The program of a request, its END left out. -/
def Dev.reqProgram (d : Dev) (p : Packet) (s : Shard) : List (BitVec 32) :=
  if reqOp p = 0x21 then d.clerkProgram s.prog else if reqOp p = 0x23 then d.clerkProgram (reqSel p) else []

/-- Payload bytes of an export (R244). -/
def exportLength (s : Shard) (sel : Nat) : Nat :=
  if sel = 0 then 4 * s.count
  else if sel = 1 then cdiv (s.count * s.momentWidth) 8
  else if sel = 2 then cdiv (s.m2Count * s.momentWidth) 8
  else if s.split then 2 * s.count
  else cdiv (s.count * s.copyWidth) 8 + (if s.isMx then cdiv s.count 32 else 0)

/-- Whether a program adds into the factor accumulators. -/
def usesFactors (p : List (BitVec 32)) : Bool := (programBody p).any (fun w => opOf w == 0x11 || opOf w == 0x12)

/-- Bytes of a NORM result (R241). -/
def normLength (s : Shard) (p : List (BitVec 32)) : Nat := 16 + (if usesFactors p then 4 * (s.rows + s.cols) else 0)

/-- The spans a request reads and those it writes, apart from the shard entry. -/
def Dev.reqSpans (d : Dev) (k ctx : Nat) (p : Packet) (e : BitVec 1024) : List (Nat × Nat) × List (Nat × Nat) :=
  let s := Shard.ofBits e
  let prog := d.reqProgram p s
  let b := programBody prog
  let factor := b.any (fun w => opOf w == 0x13 || opOf w == 0x14)
  let streams := (progLoads b ++ (if factor then [2] else [])).flatMap (streamSpans e)
  let consts := [(d.get (CLERK_CTX_hbase k ctx) + 64 * s.hset, 64)]
  match reqOp p with
  | 0x21 => (consts ++ streams, (progStores b).flatMap (streamSpans e))
  | 0x22 => (streamSpans e 3, [])
  | 0x23 => (consts ++ streams, [(reqEva p, normLength s prog)])
  | _ => ((if reqSel p = 3 then (if s.split then [(arrayVa e 0, 2 * s.count)] else streamSpans e 4)
      else streamSpans e (reqSel p)),
    [(reqEva p, 128 + cdiv (exportLength s (reqSel p)) 64 * 64)])

/-- The lowest reason for which queue `k` refuses a request before it looks at the shard. -/
def Dev.reqReason (d : Dev) (k : Nat) (p : Packet) : Nat :=
  match d.clerkCtx k p with
  | none => 1
  | some ctx => if reqMalformed p || decide (d.get (CLERK_CTX_nshard k ctx) ≤ reqShard p) then 2 else 0

/-- The lowest nonzero reason of a list; 0 for none. -/
def lowestReason (l : List Nat) : Nat := (l.filter (· ≠ 0)).foldl (fun a b => if a = 0 then b else min a b) 0

/-- The lowest reason for which a request is refused, or its context and shard entry (R230; R410 for a stack that is not ON). -/
def Dev.clerkCheck (d : Dev) (k : Nat) (p : Packet) : Nat ⊕ (Nat × BitVec 1024) :=
  match d.clerkCtx k p with
  | none => .inl 1
  | some ctx =>
    let stack := k / 2
    let base := d.clerkBase k ctx
    let ea := d.entryVa k ctx p
    let r0 := d.reqReason k p
    let r1 := d.pageReason base p.job.toNat stack [(ea, 128)] false
    if r0 ≠ 0 then .inl r0
    else if d.get (PWR_DOM_state (80 + stack)) ≠ 0 then .inl 3
    else if r1 ≠ 0 then .inl r1
    else
      let e := BitVec.ofNat 1024 (Memory.readN d.hbm (d.translate base ea) 128)
      let s := Shard.ofBits e
      let spans := d.reqSpans k ctx p e
      let fence := d.fenceSeen stack ctx s.fence
      let ahead := (reqStep p - BitVec.ofNat 32 fence).toNat % 65536
      let coh := (pagesOf (reqEva p) 128).any (fun v => !(d.pte base v).coh)
      let r := if entMalformed e then 2 else lowestReason [
        d.pageReason base p.job.toNat stack spans.1 false, d.pageReason base p.job.toNat stack spans.2 true,
        if reqOp p = 0x24 ∧ ((spans.2.flatMap (fun x => pagesOf x.1 x.2)).any (fun v => !(d.pte base v).coh) || coh) = true then 4 else 0,
        if s.server ≠ k % 2 then 6 else 0,
        if (reqOp p = 0x21 ∨ reqOp p = 0x23) ∧ programFits s (reqOp p == 0x21) (d.reqProgram p s) = false then 7 else 0,
        if (reqOp p = 0x21 ∧ ¬(1 ≤ ahead ∧ ahead ≤ 32767)) ∨ (reqOp p = 0x24 ∧ ahead ≠ 0) then 8 else 0,
        if entInconsistent e then 9 else 0]
      if r ≠ 0 then .inl r else .inr (ctx, e)

/-- The step and place of an error of a Clerk (R432). -/
def clerkErrAt (k : Nat) (p : Packet) : ErrAt := ⟨4, k, p.job, p.jgen, reqStep p, reqShard p⟩

/-- The request at the head of queue `k` leaves it. -/
def Dev.popClerk (d : Dev) (k : Nat) : Dev :=
  let c := d.clerk k
  d.setClerk k { c with queue := c.queue.tail, run := none }

/-- A refusal is recorded and, but for a job being torn down, reported; no DONE goes out (R230, R386). -/
def Dev.recordRefusal (d : Dev) (k reason : Nat) (p : Packet) : Dev :=
  let d1 := (d.bump (CLERK_STAT_refused k) 1).put (CLERK_STAT_reason k) reason
  if d.ending p.job then d1 else d1.raise 0x0041 (clerkErrAt k p)

/-- The Clerk whose service port a packet addresses: dst_sub 4 or 5 of a stack's router (R169, R229). -/
def Dev.clerkOf (d : Dev) (p : Packet) : Option Nat :=
  ((List.range 8).find? (fun k => stackRouter d.rows k == (p.dstX.toNat, p.dstY.toNat))).bind (fun k =>
    if p.dstUnit = 2 ∧ (p.dstSub = 4 ∨ p.dstSub = 5) then some (2 * k + (p.dstSub.toNat - 4)) else none)

/-- CLERK_REQUEST: a packet at a Clerk's port.  With 64 requests queued the port takes none; a type other than PREQ, or a port that no
Clerk serves, drops it (R170, R230). -/
def execClerkRequest (p : Packet) (s : State) : Host.Outcome State Fault Refusal :=
  s.onDev (fun d =>
    match d.clerkOf p with
    | none => (d.eject p).absorbPacket
    | some k =>
      if p.type ≠ 0x04 then (d.eject p).absorbPacket
      else if 64 ≤ (d.clerk k).queue.length then d
      else
        let d1 := d.eject p
        let r := d1.reqReason k p
        if r ≠ 0 then d1.recordRefusal k r p
        else d1.setClerk k { d1.clerk k with queue := (d1.clerk k).queue ++ [p] })

/-! The element program (R226, R231, R235, R236). -/

/-- The accumulators of a pass: two of ACC, those of rows and those of columns, in FP64. -/
structure Accs where
  two : Tab Nat
  rows : Tab Nat
  cols : Tab Nat
deriving DecidableEq, Repr

/-- A lane in the middle of its program: registers, the values its STS would store, whether the gradient read is not finite, whether a
gradient or a state line read is poisoned, and the accumulators. -/
structure Lane where
  regs : Tab Nat
  stores : List (Nat × Nat × Bool)
  badGrad : Bool
  gradPoison : Bool
  statePoison : Bool
  accs : Accs
deriving DecidableEq, Repr

def f32 (v : Nat) : Val := Machine.fp32.decode v
def to32 (v : Val) : Nat := (Machine.fp32.ieeeRound .even v).1

/-- Whether an FP32 encoding is a NaN or an infinity. -/
def notFinite (v : Nat) : Bool := bits v 23 8 == 255

/-- FP64 accumulation of an FP32 value (R231). -/
def accSum (acc v : Nat) : Nat := (Machine.fp64.ieeeRound .even (Val.add .even (Machine.fp64.decode acc) (f32 v)).1).1

/-- The result of a register micro-op (R231). -/
def aluOp (o a b c : Nat) : Nat :=
  match o with
  | 3 => to32 (Val.add .even (f32 a) (f32 b)).1
  | 4 => to32 (Val.add .even (f32 a) (f32 (b ^^^ 0x80000000))).1
  | 5 => to32 (Val.mul (f32 a) (f32 b)).1
  | 6 => to32 (Val.fma .even (f32 a) (f32 b) (f32 c)).1
  | 7 => to32 (Val.div (f32 a) (f32 b)).1
  | 8 => to32 (Val.sqrt (f32 a)).1
  | 9 => to32 (Val.minimum (f32 a) (f32 b))
  | 10 => to32 (Val.maximum (f32 a) (f32 b))
  | 11 => a % 2 ^ 31
  | 12 => a ^^^ 0x80000000
  | 13 =>
    if (f32 a).isNan then Machine.fp32.nanBits else if (f32 a).isZero then 0
    else if (f32 a).neg then 0xBF800000 else 0x3F800000
  | _ => a

/-- The bits of element `e` of an array of `w`-bit elements, and whether its line is poisoned (R73). -/
def Dev.element (d : Dev) (base va w e : Nat) : Nat × Bool :=
  let o := e * w
  let r := d.virtRead base (va + o / 8) (cdiv (o % 8 + w) 8)
  (bits r.1 (o % 8) w, r.2)

/-- Element `e` of a stream, widened to FP32 (R226, R231). -/
def Dev.streamValue (d : Dev) (base : Nat) (ent : BitVec 1024) (st e : Nat) : Nat × Bool :=
  let s := Shard.ofBits ent
  if st = 0 ∧ s.split = true then
    let hi := d.element base (arrayVa ent 0) 16 e
    let lo := d.element base (arrayVa ent 4) 16 e
    ((hi.1 + 65536 - bits lo.1 15 1) % 65536 * 65536 + lo.1, hi.2 || lo.2)
  else if (st = 1 ∨ st = 2) ∧ s.bf16 = true then
    let r := d.element base (arrayVa ent st) 16 e
    (r.1 * 65536, r.2)
  else d.element base (arrayVa ent st) 32 e

/-- One micro-op on element `e`. -/
def Dev.microOp (d : Dev) (base : Nat) (ent : BitVec 1024) (consts : BitVec 512) (e : Nat) (l : Lane) (w : BitVec 32) : Lane :=
  let s := Shard.ofBits ent
  let src := fun (n : Nat) => if n < 16 then Tab.get (fun _ => 0) l.regs n else bits consts.toNat (32 * (n - 16)) 32
  let write := fun (l : Lane) (v : Nat) => { l with regs := Tab.set (fun _ => 0) l.regs (opD w) v }
  let row := e / s.cols
  let col := e % s.cols
  let load := fun (st i : Nat) =>
    let r := d.streamValue base ent st i
    write { l with gradPoison := l.gradPoison || (st == 3 && r.2), statePoison := l.statePoison || (st != 3 && r.2),
                   badGrad := l.badGrad || (st == 3 && notFinite r.1) } r.1
  match opOf w with
  | 0x01 => load (opA w) e
  | 0x02 => { l with stores := l.stores ++ [(opD w, src (opA w), opClamp w)] }
  | 0x10 =>
    let i := opD w % 2
    { l with accs := { l.accs with two := Tab.set (fun _ => 0) l.accs.two i (accSum (Tab.get (fun _ => 0) l.accs.two i) (src (opA w))) } }
  | 0x11 =>
    { l with accs := { l.accs with
               rows := Tab.set (fun _ => 0) l.accs.rows row (accSum (Tab.get (fun _ => 0) l.accs.rows row) (src (opA w))) } }
  | 0x12 =>
    { l with accs := { l.accs with
               cols := Tab.set (fun _ => 0) l.accs.cols col (accSum (Tab.get (fun _ => 0) l.accs.cols col) (src (opA w))) } }
  | 0x13 => load 2 row
  | 0x14 => load 2 (s.rows + col)
  | o => write l (aluOp o (src (opA w)) (src (opB w)) (src (opC w)))

/-- The whole program on element `e`. -/
def Dev.runLane (d : Dev) (base : Nat) (ent : BitVec 1024) (consts : BitVec 512) (prog : List (BitVec 32)) (accs : Accs)
    (e : Nat) : Lane :=
  (programBody prog).foldl (fun l w => d.microOp base ent consts e l w) ⟨[], [], false, false, false, accs⟩

/-- A value as STS stores it: clamped when its bit is set, and whether it was (R236). -/
def clampValue (s : Shard) (v : Nat) (clamp : Bool) : Nat × Bool :=
  if clamp && decide (s.clamp < v % 2 ^ 31) then (v / 2 ^ 31 * 2 ^ 31 + s.clamp, true) else (v, false)

/-- The start of the stochastic draws of a request (R231). -/
def drawSeed (seed step : BitVec 32) (shard : Nat) : BitVec 32 :=
  let s := seed ^^^ (step * 0x9E3779B9#32) ^^^ (BitVec.ofNat 32 shard * 0x85EBCA6B#32)
  if s = 0 then 1 else s

/-! The row (R235 to R237). -/

/-- What a lane stores under R235: none when the element stays unchanged. -/
def Lane.result (l : Lane) (s : Shard) : Option (List (Nat × Nat) × Bool) :=
  if l.badGrad || l.stores.any (fun x => notFinite x.2.1) then none
  else
    let vs := l.stores.map (fun x => (x.1, clampValue s x.2.1 x.2.2))
    some (vs.map (fun x => (x.1, x.2.1)), vs.any (fun x => x.2.2))

/-- Replaces elements of a packed span of an array: `vals` gives the new bits of elements from `e0`, none for one that stays; written
as the bytes from the first to the last element, and not at all when every element stays. -/
def Dev.packRow (d : Dev) (base va w e0 : Nat) (vals : List (Option Nat)) : Dev :=
  if vals.all Option.isNone then d
  else
    let o := e0 * w
    let n := cdiv (o % 8 + vals.length * w) 8
    let old := (d.virtRead base (va + o / 8) n).1
    let new := (vals.foldl (fun (r : Nat × Nat) v => (match v with
      | some x => setBits r.1 (o % 8 + r.2 * w) w x
      | none => r.1, r.2 + 1)) (old, 0)).1
    d.virtWrite base (va + o / 8) (toBytes n new)

/-- The values a row stores into stream `st`, by lane. -/
def rowValues (rs : List (Option (List (Nat × Nat) × Bool))) (st : Nat) : List (Option Nat) :=
  rs.map (fun r => r.bind (fun x => (x.1.find? (fun v => v.1 == st)).map (fun v => v.2)))

/-- Splits an FP32 master into hi and lo (R226). -/
def splitHi (v : Nat) : Nat := Machine.bf16.narrow .away (f32 v)

/-- The copy elements a row writes, outside the MX formats (R83 to R86, R231). -/
def copyBits (s : Shard) (start : BitVec 32) (e0 : Nat) (vals : List (Option Nat)) : List (Option Nat) :=
  (List.range vals.length).map (fun i => (vals.getD i none).map (fun v =>
    match s.fmt with
    | some f => f.narrow s.zp (rndMode s.crnd start (e0 + i)) (f32 v)
    | none => 0))

/-- The value an element of an MX copy holds. -/
def Dev.mxValue (d : Dev) (base : Nat) (ent : BitVec 1024) (f : Fmt) (e : Nat) : Val :=
  let s := Shard.ofBits ent
  Val.scale (d.element base (arrayVa ent 4 + s.scaleOffset) 8 (e / 32)).1
    (f.value 0 (d.element base (arrayVa ent 4) f.width e).1)

/-- Writes one block of an MX copy: its elements and its scale byte (R77, R85).  Elements that stay keep the value they had. -/
def Dev.mxBlock (d : Dev) (base : Nat) (ent : BitVec 1024) (f : Fmt) (start : BitVec 32) (e0 : Nat) (vals : List (Option Nat)) : Dev :=
  if vals.all Option.isNone then d
  else
    let s := Shard.ofBits ent
    let vs := (List.range vals.length).map (fun i => match vals.getD i none with
      | some v => f32 v
      | none => d.mxValue base ent f (e0 + i))
    let sc := mxScale f vs
    let es := (List.range vs.length).map (fun i => some (mxElem f sc (rndMode s.crnd start (e0 + i)) (vs.getD i .nan)))
    (d.packRow base (arrayVa ent 4) f.width e0 es).packRow base (arrayVa ent 4 + s.scaleOffset) 8 (e0 / 32) [some sc]

/-- The copy's part of a row: the values wait for the block's last row in an MX format (R237). -/
def Dev.storeCopy (d : Dev) (k base : Nat) (r : ClerkRun) (start : BitVec 32) (e0 : Nat) (vals : List (Option Nat)) (poison : Bool) :
    Dev :=
  let s := Shard.ofBits r.ent
  let va := arrayVa r.ent 4
  if s.split then d
  else match s.fmt with
    | none => d
    | some f =>
      let past := e0 + vals.length
      if f.mx then
        let b0 := e0 / 32 * 32
        let all := (if e0 % 32 = 0 then [] else r.block.map (fun v => v.map BitVec.toNat)) ++ vals
        let bad := poison || (e0 % 32 != 0 && r.blockPoison)
        if past % 32 = 0 ∨ past = s.count then
          let d1 := d.mxBlock base r.ent f start b0 all
          if bad then (d1.virtMark base (va + b0 * f.width / 8) (cdiv (all.length * f.width) 8)).virtMark base (va + s.scaleOffset + b0 / 32) 1
          else d1
        else d.setClerk k { d.clerk k with run := some { r with block := vals.map (fun v => v.map (BitVec.ofNat 32)), blockPoison := bad } }
      else
        let d1 := d.packRow base va f.width e0 (copyBits s start e0 vals)
        if poison then d1.virtMark base (va + e0 * f.width / 8) (cdiv (vals.length * f.width) 8) else d1

/-- The master's and the moments' part of a row. -/
def Dev.storeState (d : Dev) (base : Nat) (ent : BitVec 1024) (e0 : Nat) (rs : List (Option (List (Nat × Nat) × Bool))) : Dev :=
  let s := Shard.ofBits ent
  let m := rowValues rs 0
  let d1 := if s.split then
      (d.packRow base (arrayVa ent 0) 16 e0 (m.map (fun v => v.map splitHi))).packRow base (arrayVa ent 4) 16 e0
        (m.map (fun v => v.map (fun x => x % 65536)))
    else d.packRow base (arrayVa ent 0) 32 e0 m
  [1, 2].foldl (fun d st =>
    if s.bf16 then d.packRow base (arrayVa ent st) 16 e0 ((rowValues rs st).map (fun v => v.map (fun x => Machine.bf16.narrow .even (f32 x))))
    else d.packRow base (arrayVa ent st) 32 e0 (rowValues rs st)) d1

/-- Adds to the counts of a Clerk and, for an UPDATE, to those of its step (R235, R236, R275). -/
def Dev.clerkCounts (d : Dev) (k : Nat) (p : Packet) (grad result clamped : Nat) : Dev :=
  let n := d.serverOf k
  let d1 := ((d.bump (CLERK_CNT_nf_grad n) grad).bump (CLERK_CNT_nf_result n) result).put (CLERK_CNT_clamped n)
    ((d.get (CLERK_CNT_clamped n) + clamped) % 2 ^ 32)
  if reqOp p ≠ 0x21 then d1
  else d1.updJob p.job (fun j =>
    let old := (j.updates.find? (fun u => u.1 == reqStep p)).getD (reqStep p, 0, 0, 0)
    { j with updates := (j.updates.filter (fun u => u.1 != reqStep p)) ++
               [(reqStep p, old.2.1 + grad, old.2.2.1 + result, old.2.2.2 + clamped)] })

/-- The spans that elements e0 to e1 − 1 take in the arrays a program names; factors are single elements (R231). -/
def rowSpans (ent : BitVec 1024) (streams : List Nat) (e0 e1 : Nat) : List (Nat × Nat) :=
  let s := Shard.ofBits ent
  let span := fun (va w : Nat) => (va + e0 * w / 8, cdiv ((e1 - e0) * w + e0 * w % 8) 8)
  streams.flatMap (fun st =>
    if st = 0 then (if s.split then [span (arrayVa ent 0) 16, span (arrayVa ent 4) 16] else [span (arrayVa ent 0) 32])
    else if st = 3 then [span (arrayVa ent 3) 32]
    else if st = 4 then (if s.split then [] else
      if s.isMx then streamSpans ent 4 else [span (arrayVa ent 4) s.copyWidth])
    else if st = 2 ∧ s.factored = true then streamSpans ent 2
    else [span (arrayVa ent st) s.momentWidth])

/-! Completion (R218, R238, R240). -/

/-- A request is complete: DONE goes out under notify, and the request leaves the queue. -/
def Dev.clerkDone (d : Dev) (k : Nat) (p : Packet) : Dev :=
  let d1 := d.popClerk k
  if bit (reqAt p 1 1) 0 then d1.sendDonePacket p else d1

/-- The fence of an UPDATE is posted, and DONE follows (R238). -/
def Dev.postFence (d : Dev) (k ctx : Nat) (ent : BitVec 1024) (p : Packet) : Dev :=
  let post : FencePost := ⟨k / 2, ctx, BitVec.ofNat 12 (Shard.ofBits ent).fence, (reqStep p).truncate 16⟩
  ({ d with posts := d.posts ++ [post] }).clerkDone k p

/-- Whether an UPDATE of a step runs as skipped, runs, or waits for the verdict (R239, R240, R435). -/
inductive SkipState where
  | run | skip | wait
deriving DecidableEq, Repr

def Dev.skipState (d : Dev) (p : Packet) : SkipState :=
  if d.get CLERK_SKIP_en = 0 then
    match d.job p.job with
    | some j => if j.lost.contains (reqStep p) then .skip else .run
    | none => .run
  else match d.verdictOf (reqStep p) with
    | 0 => .wait
    | 1 => .run
    | _ => .skip

/-- A skipped step is counted once (R240). -/
def Dev.countSkip (d : Dev) (p : Packet) : Dev :=
  match d.job p.job with
  | some j =>
    if j.skipped.contains (reqStep p) then d
    else (d.updJob p.job (fun j => { j with skipped := reqStep p :: j.skipped })).bump CLERK_SKIP_STAT_skipped 1
  | none => d

/-! The commands. -/

/-- The request that queue `k` may start with the given operation. -/
def Dev.clerkHead (d : Dev) (k op : Nat) : Option Packet :=
  match (d.clerk k).queue with
  | p :: _ => if reqOp p = op ∧ (d.clerk k).run = none ∧ d.served k = true then some p else none
  | [] => none

/-- A request is refused at its start. -/
def Dev.refuseHead (d : Dev) (k reason : Nat) (p : Packet) : Dev := (d.popClerk k).recordRefusal k reason p

/-- UPDATE: the head request of queue `k` starts, is skipped, or is refused. -/
def Dev.startUpdate (d : Dev) (k : Nat) : Dev :=
  match d.clerkHead k 0x21 with
  | none => d
  | some p =>
    match d.clerkCheck k p with
    | .inl r => d.refuseHead k r p
    | .inr (ctx, e) =>
      match d.skipState p with
      | .wait => d
      | .skip => (d.countSkip p).postFence k ctx e p
      | .run =>
        let consts := BitVec.ofNat 512 (Memory.readN d.hbm
          (d.translate (d.clerkBase k ctx) (d.get (CLERK_CTX_hbase k ctx) + 64 * (Shard.ofBits e).hset)) 64)
        (d.setClerk k { d.clerk k with run := some ⟨ctx, e, consts, [], false⟩ }).put (CLERK_PROG_rows k) 0

def execUpdate (k : BitVec 4) (s : State) : Host.Outcome State Fault Refusal := s.onDev (fun d => d.startUpdate k.toNat)

/-- The next row of the UPDATE in service (R235 to R237, R430). -/
def Dev.commitRow (d : Dev) (k : Nat) : Dev :=
  match (d.clerk k).queue, (d.clerk k).run with
  | p :: _, some r =>
    if d.served k = false then d
    else
      let s := Shard.ofBits r.ent
      let base := d.clerkBase k r.ctx
      let prog := d.clerkProgram s.prog
      let b := programBody prog
      let row := d.get (CLERK_PROG_rows k)
      let e0 := 16 * row
      let e1 := min s.count (e0 + 16)
      let loads := progLoads b ++ (if b.any (fun w => opOf w == 0x13 || opOf w == 0x14) then [2] else [])
      let reads := rowSpans r.ent loads e0 e1
      let writes := rowSpans r.ent (progStores b) e0 e1
      if d.cohReady base reads writes = false then d.cohAsk base reads writes
      else
        let ls := (List.range (e1 - e0)).map (fun i => d.runLane base r.ent r.consts prog ⟨[], [], []⟩ (e0 + i))
        let start := drawSeed ((d.job p.job).map Job.seed |>.getD 0) (reqStep p) (reqShard p)
        let none' := ls.map (fun _ => (none : Option (List (Nat × Nat) × Bool)))
        let d1 :=
          if ls.any (fun l => l.gradPoison) then
            ((d.storeCopy k base r start e0 (rowValues none' 4) false).clerkCounts k p ls.length 0 0).raise 0x0014 (clerkErrAt k p)
          else
            let rs := ls.map (fun l => l.result s)
            let grad := (ls.filter (fun l => l.badGrad)).length
            let lost := (rs.filter (fun x => x.isNone)).length - grad
            let clamped := (rs.filter (fun x => (x.map (fun y => y.2)).getD false)).length
            let bad := ls.any (fun l => l.statePoison)
            let d2 := (d.storeCopy k base r start e0 (rowValues rs 4) bad).clerkCounts k p grad lost clamped
            if bad then (if s.split then d2.virtMark base (arrayVa r.ent 0 + 2 * e0) (2 * (e1 - e0)) else d2).raise 0x0044 (clerkErrAt k p)
            else d2.storeState base r.ent e0 rs
        let d3 := d1.put (CLERK_PROG_rows k) (row + 1)
        if e1 = s.count then d3.postFence k r.ctx r.ent p else d3
  | _, _ => d

/-- CLERK_ROW_COMMIT: the writes of one row of the UPDATE in service are applied together. -/
def execClerkRowCommit (k : BitVec 4) (s : State) : Host.Outcome State Fault Refusal := s.onDev (fun d => d.commitRow k.toNat)

/-- The verdict of a step from its SCANs: decided here without ext, reported to the orchestrator with it (R239, R367). -/
def Dev.scanTotal (d : Dev) (p : Packet) (n : Nat) : Dev :=
  let i := (reqStep p).toNat % 2
  let d1 := d.openSlot (reqStep p)
  let v := d1.verdict i
  let d2 := (d1.setVerdict i { v with total := v.total + n, scans := v.scans + 1 }).put CLERK_SKIP_STAT_total (sat 32 (v.total + n))
  if d.get CLERK_SKIP_en = 0 ∨ v.scans + 1 < d.get CLERK_SKIP_nscan then d2
  else if d.get CLERK_SKIP_ext = 0 then
    d2.decideVerdict (reqStep p) (if d.get CLERK_SKIP_threshold < v.total + n then 2 else 1)
  else d2.scanned p.job p.jgen (reqStep p) (v.total + n)

/-- SCAN: the non-finite elements of a gradient array are counted (R239, R430). -/
def Dev.runScan (d : Dev) (k : Nat) : Dev :=
  match d.clerkHead k 0x22 with
  | none => d
  | some p =>
    match d.clerkCheck k p with
    | .inl r => d.refuseHead k r p
    | .inr (ctx, e) =>
      let base := d.clerkBase k ctx
      let spans := streamSpans e 3
      if d.cohReady base spans [] = false then d.cohAsk base spans []
      else
        let vs := (List.range (Shard.ofBits e).count).map (fun i => d.streamValue base e 3 i)
        let n := (vs.filter (fun v => notFinite v.1)).length
        let d1 := d.clerkCounts k p n 0 0
        let d2 := if vs.any (fun v => v.2) then d1.raise 0x0014 (clerkErrAt k p) else d1
        (d2.scanTotal p n).clerkDone k p

def execScan (k : BitVec 4) (s : State) : Host.Outcome State Fault Refusal := s.onDev (fun d => d.runScan k.toNat)

/-- An FP64 accumulator as FP32 (R241). -/
def accToFp32 (v : Nat) : Nat := to32 (Machine.fp64.decode v)

/-- The result bytes of a NORM (R241). -/
def normBytes (s : Shard) (prog : List (BitVec 32)) (a : Accs) : List Byte :=
  [0, 1].flatMap (fun i => toBytes 8 (Tab.get (fun _ => 0) a.two i))
    ++ (if usesFactors prog then
      (List.range s.rows).flatMap (fun i => toBytes 4 (accToFp32 (Tab.get (fun _ => 0) a.rows i)))
        ++ (List.range s.cols).flatMap (fun i => toBytes 4 (accToFp32 (Tab.get (fun _ => 0) a.cols i)))
      else [])

/-- NORM: the accumulators of a program over the shard are written at eva (R241, R430). -/
def Dev.runNorm (d : Dev) (k : Nat) : Dev :=
  match d.clerkHead k 0x23 with
  | none => d
  | some p =>
    match d.clerkCheck k p with
    | .inl r => d.refuseHead k r p
    | .inr (ctx, e) =>
      let s := Shard.ofBits e
      let base := d.clerkBase k ctx
      let prog := d.clerkProgram (reqSel p)
      let spans := d.reqSpans k ctx p e
      if d.cohReady base spans.1 spans.2 = false then d.cohAsk base spans.1 spans.2
      else
        let consts := BitVec.ofNat 512 (Memory.readN d.hbm (d.translate base (d.get (CLERK_CTX_hbase k ctx) + 64 * s.hset)) 64)
        let r := (List.range s.count).foldl (fun (r : Accs × Nat × Bool) i =>
          let l := d.runLane base e consts prog r.1 i
          (l.accs, r.2.1 + l.badGrad.toNat, r.2.2 || l.gradPoison || l.statePoison)) (⟨[], [], []⟩, 0, false)
        let bs := normBytes s prog r.1
        let d1 := (d.clerkCounts k p r.2.1 0 0).virtWrite base (reqEva p) bs
        (if r.2.2 then d1.virtMark base (reqEva p) bs.length else d1).clerkDone k p

def execNorm (k : BitVec 4) (s : State) : Host.Outcome State Fault Refusal := s.onDev (fun d => d.runNorm k.toNat)

/-- The payload of an export and whether a line it reads is poisoned (R244). -/
def Dev.exportPayload (d : Dev) (base : Nat) (e : BitVec 1024) (sel : Nat) : List Byte × Bool :=
  let s := Shard.ofBits e
  if sel = 0 ∧ s.split = true then
    let vs := (List.range s.count).map (fun i => d.streamValue base e 0 i)
    (vs.flatMap (fun v => toBytes 4 v.1), vs.any (fun v => v.2))
  else if sel = 3 ∧ s.split = false ∧ s.isMx = true then
    let a := d.virtBytes base (arrayVa e 4) (cdiv (s.count * s.copyWidth) 8)
    let b := d.virtBytes base (arrayVa e 4 + s.scaleOffset) (cdiv s.count 32)
    (a.1 ++ b.1, a.2 || b.2)
  else d.virtBytes base (arrayVa e (if sel = 3 then (if s.split then 0 else 4) else sel)) (exportLength s sel)

/-- The format code of an export (R28, R244). -/
def exportFmt (s : Shard) (sel : Nat) : Nat :=
  if sel = 0 then 0 else if sel < 3 then (if s.bf16 then 2 else 0) else if s.split then 2 else s.code

/-- The record of an export: header and payload, filled up to 64 bytes (R244). -/
def Dev.exportRecord (d : Dev) (p : Packet) (e : BitVec 1024) (pay : List Byte) : List Byte :=
  let h := [0x53, 0x48, 0x52, 0x44] ++ toBytes 2 1 ++ toBytes 1 (exportFmt (Shard.ofBits e) (reqSel p)) ++ toBytes 1 (reqSel p)
    ++ toBytes 4 (entAt e 0 4) ++ toBytes 1 (entAt e 60 1) ++ toBytes 3 0 ++ toBytes 48 (entAt e 64 48)
    ++ toBytes 4 (reqStep p).toNat ++ toBytes 8 (entAt e 4 6) ++ toBytes 8 pay.length ++ toBytes 4 d.devnum.toNat
    ++ toBytes 4 (crc32c pay)
  h ++ toBytes 4 (crc32c h) ++ List.replicate 32 0 ++ pay ++ List.replicate (cdiv pay.length 64 * 64 - pay.length) 0

/-- A CKPT_EXPORT of the job that is under way is replied HW_ERROR: detail 5 and the shard (R430). -/
def Dev.exportPoisoned (d : Dev) (p : Packet) : Dev :=
  match d.cmds.find? (fun c => c.opcode == 0x0601 && c.job == p.job && (match c.phase with
      | .started | .delegated _ => true
      | _ => false)) with
  | some c => (d.freeCmdSlot c).reply c 0x0C (5 + reqShard p * 2 ^ 16) 0
  | none => d

/-- EXPORT: the record of an array is written at eva; none is written from poisoned data (R244, R430). -/
def Dev.runExport (d : Dev) (k : Nat) : Dev :=
  match d.clerkHead k 0x24 with
  | none => d
  | some p =>
    match d.clerkCheck k p with
    | .inl r => d.refuseHead k r p
    | .inr (ctx, e) =>
      let base := d.clerkBase k ctx
      let spans := d.reqSpans k ctx p e
      if d.cohReady base spans.1 spans.2 = false then d.cohAsk base spans.1 spans.2
      else
        let r := d.exportPayload base e (reqSel p)
        (if r.2 then d.exportPoisoned p else d.virtWrite base (reqEva p) (d.exportRecord p e r.1)).clerkDone k p

def execExportRecord (k : BitVec 4) (s : State) : Host.Outcome State Fault Refusal := s.onDev (fun d => d.runExport k.toNat)

/-! Pair failover (R242, R243). -/

/-- Naeno marks a Clerk failed: its partner covers, or the pair is lost. -/
def Dev.failClerk (d : Dev) (k : Nat) : Dev :=
  if (d.clerk k).failed then d
  else
    let at' : ErrAt := ⟨4, k, 0, 0, BitVec.ofNat 32 (d.get WARD_STEP_NOW_step), 0⟩
    let d1 := (d.setClerk k { d.clerk k with failed := true, passed := false }).raise 0x0042 at'
    if (d.clerk (k ^^^ 1)).failed then d1.raise 0x0043 at' else d1

/-- CLERK_WATCHDOG: a Clerk has held a request and applied no row for CLERK_CFG.watchdog µs. -/
def execClerkWatchdog (k : BitVec 4) (s : State) : Host.Outcome State Fault Refusal :=
  s.onDev (fun d =>
    if d.get (CLERK_CFG_watchdog k.toNat) = 0 ∨ ((d.clerk k.toNat).queue.isEmpty
        && !((d.clerk (k.toNat ^^^ 1)).failed && !(d.clerk (k.toNat ^^^ 1)).queue.isEmpty)) = true then d
    else d.failClerk k.toNat)

/-- CLERK_FAIL: CLERK_CFG.fail is written. -/
def execClerkFail (k : BitVec 4) (s : State) : Host.Outcome State Fault Refusal :=
  s.onDev (fun d => (d.put (CLERK_CFG_fail k.toNat) 1).failClerk k.toNat)

/-- CLERK_SELF_CHECK: a self-check reports a fault, or a failed Clerk has been reset and passes. -/
def execClerkSelfCheck (k : BitVec 4) (ok : Bool) (s : State) : Host.Outcome State Fault Refusal :=
  s.onDev (fun d =>
    if ok then
      if (d.clerk k.toNat).failed then (d.setClerk k.toNat { d.clerk k.toNat with passed := true }).put (CLERK_CFG_fail k.toNat) 0 else d
    else d.failClerk k.toNat)

/-- CLERK_TAKEBACK: at a request boundary of its partner, a Clerk that has passed takes its queue back. -/
def execClerkTakeback (k : BitVec 4) (s : State) : Host.Outcome State Fault Refusal :=
  s.onDev (fun d =>
    let c := d.clerk k.toNat
    if c.failed && c.passed && c.run.isNone then d.setClerk k.toNat { c with failed := false, passed := false } else d)

end Sys2Proof.Machine
end

