-- ==== Sys2Proof/Machine/Broker.lean ====
section
/-! DEFINITION. The Broker complexes: coherence messages, errand sends, the input loader, the orchestrator's messages and the telemetry
agent (R351 to R354, R358, R361, R362, R366 to R369). -/

namespace Sys2Proof.Machine

/-! Coherence (R351 to R354). -/

/-- Whether a complex may hold a line: a usable page inside one of its ranges, on a stack that is ON (R351, R410). -/
def Dev.brokerLine (d : Dev) (cpx line : Nat) : Bool :=
  d.usable (line * 64) && d.get (PWR_DOM_state (80 + stackOf (line * 64))) == 0 &&
    (List.range 16).any (fun i =>
      let p := d.pageOf (line * 64)
      decide (d.get (BRK_REGION_start cpx i) ≤ p) && decide (p < d.get (BRK_REGION_start cpx i) + d.get (BRK_REGION_pages cpx i)))

/-- The eviction buffer's entry of a line (R354). -/
def Dev.evicting (d : Dev) (cpx line : Nat) : Option Evicted := d.coh.buffer.find? (fun e => e.cpx == cpx && e.line == line)

/-- Changes the coherence fabric; BRK_CPX_STAT.evb follows the eviction buffers. -/
def Dev.setCoh (d : Dev) (c : Coherence) : Dev :=
  (List.range 4).foldl (fun d i => d.put (BRK_CPX_STAT_evb i) (c.buffer.filter (fun e => e.cpx == i)).length) { d with coh := c }

/-- Whether a snoop or its answer is between home and a complex. -/
def Dev.crossing (d : Dev) (cpx line : Nat) : Bool :=
  d.coh.snoops.any (fun s => s.line == line && s.cpx == cpx) || d.coh.replies.any (fun r => r.snoop.line == line && r.snoop.cpx == cpx)

/-- Takes a complex out of a line's entry; an entry without a holder goes (R352). -/
def Dev.dropHolder (d : Dev) (cpx line : Nat) : Dev :=
  match d.dirEntry line with
  | none => d
  | some e =>
    let e1 : DirEntry := { e with owner := if e.owner = some cpx then none else e.owner, sharers := e.sharers.filter (· != cpx) }
    d.setDir line (if e1.owner.isNone && e1.sharers.isEmpty then none else some e1)

/-- The entries that share a set with a line, as (line, stamp): 2^16 sets of 16 ways for each stack (R352; log 13). -/
def Dev.dirSet (d : Dev) (line : Nat) : List (Nat × Nat) :=
  d.coh.dir.filterMap (fun p => if p.1 / 2 ^ 30 = line / 2 ^ 30 ∧ p.1 % 2 ^ 16 = line % 2 ^ 16 then
    p.2.map (fun e => (p.1, e.stamp)) else none)

/-- The least recently allocated of a list of entries. -/
def oldest : List (Nat × Nat) → Option (Nat × Nat)
  | [] => none
  | p :: ps => match oldest ps with
    | none => some p
    | some q => if p.2 ≤ q.2 then some p else some q

/-- A full set's victim is invalidated in every holder, each of which counts it once (R352). -/
def Dev.invalidate (d : Dev) (line : Nat) : Dev :=
  (d.holders line).foldl (fun d c =>
    if d.crossing c line then d else (d.sendSnoop ⟨line, c, true⟩).bump (BRK_CPX_STAT_binv c) 1) d

/-- Writes the entry that serves a request. -/
def Dev.allocate (d : Dev) (w : DirWait) (sharers : List Nat) (stamp : Nat) : Dev :=
  d.setDir w.line (some ⟨if w.excl then some w.cpx else none, if w.excl then [] else sharers ++ [w.cpx], stamp⟩)

/-- Home tries to serve a request: it snoops the owner, or every other holder, makes room for a new entry, or answers (R352, R353). -/
def Dev.serve (d : Dev) (w : DirWait) : Dev :=
  let others := (d.holders w.line).filter (· != w.cpx)
  let owner := (d.dirEntry w.line).bind (fun e => e.owner)
  let done := fun (d : Dev) => { d with coh := { d.coh with waits := d.coh.waits.erase w } }
  if d.snooping w.line then d
  else if w.excl ∧ others ≠ [] then others.foldl (fun d c => d.sendSnoop ⟨w.line, c, true⟩) d
  else if w.excl = false ∧ owner.isSome ∧ owner ≠ some w.cpx then d.snoopRead w.line
  else match d.dirEntry w.line with
    | some e => done (d.allocate w (e.sharers.filter (· != w.cpx)) e.stamp)
    | none =>
      if 16 ≤ (d.dirSet w.line).length then
        match oldest (d.dirSet w.line) with
        | some v => d.invalidate v.1
        | none => d
      else done (({ d with coh := { d.coh with allocs := d.coh.allocs + 1 } }).allocate w [] d.coh.allocs)

/-- Home tries every request that waits, in the order they came, and those of the HBM window. -/
def Dev.serveAll (d : Dev) : Dev :=
  let d1 := d.coh.waits.foldl Dev.serve d
  d1.serveWindow d1.windowed

/-- A request reaches home.  A complex asks for no line that it is evicting, and only for lines it may hold (R351, R354). -/
def Dev.cohRequest (d : Dev) (cpx line : Nat) (excl : Bool) : Dev :=
  let w : DirWait := ⟨line, cpx, excl⟩
  if !(d.brokerLine cpx line) || (d.evicting cpx line).isSome || d.crossing cpx line
      || d.coh.waits.any (fun x => x.cpx == cpx && x.line == line)
      || ((d.dirEntry line).bind (fun e => e.owner)) == some cpx || (!excl && (d.holders line).contains cpx) then d
  else ({ d with coh := { d.coh with waits := d.coh.waits ++ [w] } }).serve w

def execRdS (cpx : BitVec 2) (line : BitVec 34) (s : State) : Host.Outcome State Fault Refusal :=
  s.onDev (fun d => d.cohRequest cpx.toNat line.toNat false)

def execRdO (cpx : BitVec 2) (line : BitVec 34) (s : State) : Host.Outcome State Fault Refusal :=
  s.onDev (fun d => d.cohRequest cpx.toNat line.toNat true)

/-- A line leaves a complex into its eviction buffer of 32 entries; only an owner evicts a dirty line. -/
def Dev.evictOut (d : Dev) (cpx line : Nat) (data : Option RowData) : Dev :=
  let owns := ((d.dirEntry line).bind (fun e => e.owner)) == some cpx
  if !((d.holders line).contains cpx) || (data.isSome && !owns) || (d.evicting cpx line).isSome
      || decide (32 ≤ (d.coh.buffer.filter (fun e => e.cpx == cpx)).length) then d
  else d.setCoh { d.coh with buffer := d.coh.buffer ++ [⟨cpx, line, data, false, false⟩] }

/-- An eviction reaches home: its data is written unless a snoop response brought it first, answers to snoops that are still under way will
be discarded, the complex leaves the entry, and the acknowledgement follows (R354). -/
def Dev.evictHome (d : Dev) (cpx line : Nat) (dirty : Bool) : Dev :=
  match d.evicting cpx line with
  | none => d
  | some e =>
    if e.home || e.data.isSome != dirty then d
    else
      let d1 := match e.data with
        | some v => if e.used then d else d.setLine (line * 64) v false
        | none => d
      let late := (d.coh.snoops ++ d.coh.replies.map (fun r => r.snoop)).filter (fun s => s.line == line && s.cpx == cpx)
      let d2 := d1.setCoh { d1.coh with
        buffer := d1.coh.buffer.map (fun x => if x = e then { x with home := true } else x),
        stale := d1.coh.stale ++ late, acks := d1.coh.acks ++ [(cpx, line)] }
      (d2.dropHolder cpx line).serveAll

def execEvictC (cpx : BitVec 2) (line : BitVec 34) (home : Bool) (s : State) : Host.Outcome State Fault Refusal :=
  s.onDev (fun d => if home then d.evictHome cpx.toNat line.toNat false else d.evictOut cpx.toNat line.toNat none)

def execEvictD (cpx : BitVec 2) (line : BitVec 34) (data : RowData) (home : Bool) (s : State) : Host.Outcome State Fault Refusal :=
  s.onDev (fun d => if home then d.evictHome cpx.toNat line.toNat true else d.evictOut cpx.toNat line.toNat (some data))

/-- A snoop reaches a complex and is answered: from the eviction buffer while the line is there, else with the data of the line if it is
dirty, which only an owner's can be (R353, R354). -/
def Dev.snoopAt (d : Dev) (s : Snoop) (dirty : Option RowData) : Dev :=
  if d.coh.snoops.contains s then
    let data := match d.evicting s.cpx s.line with
      | some e => e.data
      | none => if ((d.dirEntry s.line).bind (fun e => e.owner)) = some s.cpx then dirty else none
    { d with coh := { d.coh with snoops := d.coh.snoops.erase s, replies := d.coh.replies ++ [⟨s, data⟩] } }
  else d

def execSnpS (cpx : BitVec 2) (line : BitVec 34) (dirty : Option RowData) (s : State) : Host.Outcome State Fault Refusal :=
  s.onDev (fun d => d.snoopAt ⟨line.toNat, cpx.toNat, false⟩ dirty)

def execSnpI (cpx : BitVec 2) (line : BitVec 34) (dirty : Option RowData) (s : State) : Host.Outcome State Fault Refusal :=
  s.onDev (fun d => d.snoopAt ⟨line.toNat, cpx.toNat, true⟩ dirty)

/-- The entry of a line after a snoop: an owner becomes a sharer, or the complex leaves the entry (R353). -/
def Dev.afterSnoop (d : Dev) (s : Snoop) : Dev :=
  if s.inval then d.dropHolder s.cpx s.line
  else match d.dirEntry s.line with
    | some e => if e.owner = some s.cpx then d.setDir s.line (some { e with owner := none, sharers := [s.cpx] }) else d
    | none => d

/-- SNOOP_RESPONSE: the answer reaches home.  After an eviction of the line it is discarded; otherwise its data is written, a copy in the
eviction buffer counts no more, and the requests that waited go on (R354). -/
def Dev.snoopHome (d : Dev) (cpx line : Nat) : Dev :=
  match d.coh.replies.find? (fun r => r.snoop.cpx == cpx && r.snoop.line == line) with
  | none => d
  | some r =>
    let d1 := { d with coh := { d.coh with replies := d.coh.replies.erase r } }
    if d1.coh.stale.contains r.snoop then { d1 with coh := { d1.coh with stale := d1.coh.stale.erase r.snoop } }
    else
      let d2 := match r.data with
        | some v => { d1.setLine (line * 64) v false with
            coh := { d1.coh with buffer := d1.coh.buffer.map (fun (e : Evicted) =>
              if e.cpx = cpx ∧ e.line = line then { e with used := true } else e) } }
        | none => d1
      (d2.afterSnoop r.snoop).serveAll

def execSnoopResponse (cpx : BitVec 2) (line : BitVec 34) (s : State) : Host.Outcome State Fault Refusal :=
  s.onDev (fun d => d.snoopHome cpx.toNat line.toNat)

/-- WB_ACK: it follows every snoop that home sent the complex before it, and frees the buffer entry (R354). -/
def Dev.wbAck (d : Dev) (cpx line : Nat) : Dev :=
  if d.coh.acks.contains (cpx, line) = true ∧ d.coh.snoops.any (fun s => s.line == line && s.cpx == cpx) = false then
    d.setCoh { d.coh with acks := d.coh.acks.erase (cpx, line),
                          buffer := d.coh.buffer.filter (fun e => !(e.cpx == cpx && e.line == line)) }
  else d

def execWbAck (cpx : BitVec 2) (line : BitVec 34) (s : State) : Host.Outcome State Fault Refusal :=
  s.onDev (fun d => d.wbAck cpx.toNat line.toNat)

/-! Errand sends (R167 to R170, R358). -/

/-- The packet of a head flit and its payload flits (R167). -/
def packetOf (h : Nat) (payload : List (BitVec 128)) : Packet where
  type := BitVec.ofNat 8 h
  dstX := BitVec.ofNat 8 (bits h 8 8)
  dstY := BitVec.ofNat 8 (bits h 16 8)
  dstSub := BitVec.ofNat 4 (bits h 24 4)
  dstUnit := BitVec.ofNat 2 (bits h 28 2)
  vc := BitVec.ofNat 1 (bits h 30 1)
  srcX := BitVec.ofNat 8 (bits h 32 8)
  srcY := BitVec.ofNat 8 (bits h 40 8)
  srcSub := BitVec.ofNat 4 (bits h 48 4)
  srcUnit := BitVec.ofNat 2 (bits h 52 2)
  job := BitVec.ofNat 16 (bits h 64 16)
  jgen := BitVec.ofNat 8 (bits h 80 8)
  inl := BitVec.ofNat 40 (bits h 88 40)
  payload := payload.take (bits h 54 2)

/-- The corner router of a die (R169). -/
def Dev.corner (d : Dev) (die : Nat) : Nat × Nat := (if die % 2 = 1 then 95 else 0, if 2 ≤ die then d.rows - 1 else 0)

/-- The jobs bound to the service slots of a complex (R359). -/
def Dev.bound (d : Dev) (c : Nat) : List Nat :=
  [d.get (BRK_BIND_job0 c), d.get (BRK_BIND_job1 c), d.get (BRK_BIND_job2 c), d.get (BRK_BIND_job3 c)]

/-- Whether a packet addresses a Porter or Clerk service port (R169). -/
def Dev.memoryPort (d : Dev) (p : Packet) : Bool :=
  p.dstUnit == 2 && decide (p.dstSub.toNat < 6) && (List.range 8).any (fun k => stackRouter d.rows k == (p.dstX.toNat, p.dstY.toNat))

/-- ERRAND_SEND: the complex rewrites the source fields and accepts the packet, or drops it (R358). -/
def Dev.errandSend (d : Dev) (h : Nat) : Dev :=
  let c := h / 16
  let p := packetOf (d.get (BRK_ESEND_head h)) [BitVec.ofNat 128 (d.get (BRK_ESEND_pay0 h)), BitVec.ofNat 128 (d.get (BRK_ESEND_pay1 h))]
  let d1 := d.put (BRK_ESEND_go h) 0
  if (p.type ≠ 3 ∧ p.type ≠ 4) ∨ p.job = 0 ∨ (d.bound c).contains p.job.toNat = false
      ∨ (p.type = 4 ∧ p.dstUnit = 2 ∧ d.memoryPort p = false) then d1.put (BRK_ESEND_dropped h) 1
  else
    let r := d.corner c
    d1.send { p with srcX := BitVec.ofNat 8 r.1, srcY := BitVec.ofNat 8 r.2, srcUnit := 2, srcSub := BitVec.ofNat 4 (2 + h / 4 % 4) }

def execErrandSend (h : BitVec 6) (s : State) : Host.Outcome State Fault Refusal := s.onDev (fun d => d.errandSend h.toNat)

/-! The input loader (R361, R362). -/

/-- Words as bytes, padded with zero to whole rows. -/
def rowsOfWords (ws : List (BitVec 32)) : List Byte :=
  let bs := ws.flatMap (fun w => toBytes 4 w.toNat)
  bs ++ List.replicate (cdiv bs.length 64 * 64 - bs.length) 0

/-- The bytes of an input ring entry (R361). -/
def entryBytes (x : InputEntry) : List Byte :=
  let words := (x.lengths ++ x.tokens).flatMap (fun w => toBytes 4 w.toNat)
  let header := [0x49, 0x4E, 0x50, 0x54] ++ toBytes 4 x.step.toNat ++ toBytes 2 x.micro.toNat ++ toBytes 2 x.lengths.length
    ++ toBytes 4 x.tokens.length ++ toBytes 4 1 ++ toBytes 4 (crc32c words) ++ List.replicate 40 0
  header ++ rowsOfWords x.lengths ++ rowsOfWords x.tokens

/-- The virtual address of an entry: entry (s mod 2) × M + i of the ring (R361). -/
def inputVa (x : InputEntry) : Nat :=
  x.ring.toNat + (x.step.toNat % 2 * x.m.toNat + x.micro.toNat) * (entryBytes x).length

/-- The complex of the slot that a job's input loader holds. -/
def Dev.loaderOf (d : Dev) (id : BitVec 16) (gen : BitVec 8) : Option Nat :=
  ((List.range 16).find? (fun i => (Tab.get (fun _ => Slot.reset) d.slots i).use == some (.loader id gen))).map (· / 4)

/-- INPUT_ENTRY_READY: the loader writes the entry, and ERRINC with increment 1 goes to the counter of each core in list order.  The entries
of step s are written only when WARD_STEP_NOW is at least s − 1 (R362). -/
def Dev.inputEntry (d : Dev) (x : InputEntry) : Dev :=
  match d.job x.job with
  | none => d
  | some j =>
    match d.loaderOf x.job j.gen with
    | none => d
    | some cpx =>
      if d.get WARD_STEP_NOW_step + 1 < x.step.toNat then d
      else
        let r := d.corner cpx
        x.cores.foldl (fun d c => d.send (servicePacket 0x03 r.1 r.2 2 2 c 0 x.job j.gen (x.ctr.toNat + 2 ^ 6) []))
          (d.virtWrite j.table (inputVa x) (entryBytes x))

def execInputEntryReady (x : InputEntry) (s : State) : Host.Outcome State Fault Refusal := s.onDev (fun d => d.inputEntry x)

/-! The orchestrator (R272, R274, R366 to R368). -/

/-- Bytes `i` to `i + n - 1` of a row. -/
def rowAt (r : RowData) (i n : Nat) : Nat := bits r.toNat (8 * i) (8 * n)

/-- The oldest orchestrator message of a type that has arrived, as (message, row, job). -/
def Dev.orchMessage (d : Dev) (type : Nat) : Option (SvcMsg × RowData) :=
  (d.svc.find? (fun m => m.lane == 2 && m.flow == 2 && m.rows.any (fun r => rowAt r 0 1 == type))).bind (fun m =>
    m.rows.head?.map (fun r => (m, r)))

/-- Whether a message is kept: its CRC matches and it names the job whose orchestrator the device runs (R366). -/
def Dev.orchGood (d : Dev) (m : SvcMsg) (r : RowData) : Bool :=
  m.rows.length == 1 && !m.poison && crc32c (toBytes 60 r.toNat) == rowAt r 60 4
    && d.orchJob == some (BitVec.ofNat 16 (rowAt r 8 2), BitVec.ofNat 8 (rowAt r 10 1))

/-- Takes a message of a type; one that is not kept is discarded, and the others are acted on by `act`, given the row. -/
def Dev.takeOrch (d : Dev) (type : Nat) (act : Dev → RowData → SvcMsg → Dev) : Dev :=
  match d.orchMessage type with
  | none => d
  | some (m, r) =>
    let d1 := { d with svc := d.svc.erase m }
    if d.orchGood m r then act d1 r m else d1

/-- A message of the ring is forwarded while hops are left, with the step adopted here (R366). -/
def Dev.forward (d : Dev) (r : RowData) (step : BitVec 32) : Dev :=
  if rowAt r 1 1 = 0 then d
  else d.onward (orchRow (rowAt r 0 1) (rowAt r 1 1 - 1) (rowAt r 2 1) (rowAt r 3 1) step (BitVec.ofNat 16 (rowAt r 8 2))
    (BitVec.ofNat 8 (rowAt r 10 1)) (rowAt r 11 1) (rowAt r 12 8))

def rowJob (r : RowData) : BitVec 16 := BitVec.ofNat 16 (rowAt r 8 2)
def rowStep (r : RowData) : BitVec 32 := BitVec.ofNat 32 (rowAt r 4 4)

/-- ABSENT: the position becomes absent from the smallest step heard of, and the notice travels on (R272, R366). -/
def Dev.absentNotice (d : Dev) (r : RowData) (_ : SvcMsg) : Dev :=
  (d.adoptAbsent (rowJob r) (rowAt r 11 1) (rowStep r)).forward r (rowStep r)

def execAbsent (s : State) : Host.Outcome State Fault Refusal := s.onDev (fun d => d.takeOrch 1 Dev.absentNotice)

/-- The rejoin step that a member adopts: the running step plus 2, or an earlier one that the message or an earlier message brought (R274;
log 14: a message with step 0 brings none). -/
def Job.rejoinStep (j : Job) (step : BitVec 32) : BitVec 32 :=
  let own := j.step + 2
  let heard := if step = 0 then own else if step.toNat < own.toNat then step else own
  match j.rejoin with
  | some r => if r.toNat < heard.toNat then r else heard
  | none => heard

/-- REJOIN: the request of the absent position is accepted; its state is RESYNC and the rejoin step is fixed (R271, R274). -/
def Dev.rejoinRequest (d : Dev) (r : RowData) (_ : SvcMsg) : Dev :=
  match d.job (rowJob r) with
  | none => d
  | some j =>
    if d.get WARD_ROSTER_absent_valid = 1 ∧ d.get WARD_ROSTER_absent = rowAt r 2 1 then
      let step := j.rejoinStep (rowStep r)
      ((d.setJob (rowJob r) (some { j with rejoin := some step })).setMember (rowAt r 2 1) 3).forward r step
    else d.forward r (rowStep r)

def execRejoin (s : State) : Host.Outcome State Fault Refusal := s.onDev (fun d => d.takeOrch 2 Dev.rejoinRequest)

/-- ACCEPT: the ring plan is to be loaded for step R (R274, R368). -/
def Dev.acceptNotice (d : Dev) (r : RowData) (_ : SvcMsg) : Dev :=
  ((d.chargeIdle (rowJob r)).updJob (rowJob r) (fun j =>
    { j with nextPlan := some (0, rowStep r), rejoin := some (rowStep r), pause := false })).forward r (rowStep r)

def execAccept (s : State) : Host.Outcome State Fault Refusal := s.onDev (fun d => d.takeOrch 3 Dev.acceptNotice)

/-- NFSUM: a child's value joins the step's total (R367). -/
def Dev.nfsum (d : Dev) (r : RowData) (m : SvcMsg) : Dev := d.combine (rowJob r) (rowStep r) (rowAt r 12 8) (some m.port)

def execNfsum (s : State) : Host.Outcome State Fault Refusal := s.onDev (fun d => d.takeOrch 4 Dev.nfsum)

/-- VERDICT: the device issues the verdict to its own Warden, then forwards it down the tree (R367). -/
def Dev.verdictNotice (d : Dev) (r : RowData) (_ : SvcMsg) : Dev :=
  let v := rowAt r 12 8
  if v = 1 ∨ v = 2 then d.verdictArrives (rowJob r) (BitVec.ofNat 8 (rowAt r 10 1)) (rowStep r) v else d

def execVerdict (s : State) : Host.Outcome State Fault Refusal := s.onDev (fun d => d.takeOrch 5 Dev.verdictNotice)

/-! The telemetry agent (R369). -/

/-- The account registers of a core's window, 0x600 to 0x6A3, as the datagram carries them. -/
def Core.account (k : Core) : Nat := (List.range 41).foldl (fun v i => v + bits (k.reg (0x600 + 4 * i)) 0 32 * 2 ^ (32 * i)) 0

/-- A latched account is released (R203). -/
def Dev.release (d : Dev) (c : CoreId) : Dev := d.upd c (fun k => k.put CORE_ACCT_HDR_valid 0)

/-- TELEMETRY_COPY: the latched account of a core is sent and released; without a core, the last receipt is sent. -/
def Dev.telemetry (d : Dev) (c : Option CoreId) : Dev :=
  match c with
  | some c =>
    if (d.core c).get CORE_ACCT_HDR_valid = 1 then (d.emit (.datagram (some c.key) 164 (d.core c).account)).release c else d
  | none =>
    match d.job d.gateJob with
    | none => d
    | some j =>
      let n := d.get WARD_RCPT_HEAD_count
      if n = 0 ∨ d.get WARD_RCPT_CFG_en = 0 then d
      else
        let va := d.get WARD_RCPT_BASE_va * 512 + (n - 1) % 2 ^ d.get WARD_RCPT_CFG_log2n * 512
        d.emit (.datagram none 512 (d.virtRead j.table va 512).1)

def execTelemetryCopy (c : Option CoreId) (s : State) : Host.Outcome State Fault Refusal :=
  match c with
  | some c => s.onCore c (fun d => d.telemetry (some c))
  | none => s.onDev (fun d => d.telemetry none)

end Sys2Proof.Machine
end

