-- ==== Sys2Proof/Machine/Router.lean ====
section
/-! DEFINITION. The routers of the scheduled mesh and the phase epochs (R148 to R166, R171, R212). -/

namespace Sys2Proof.Machine

/-! Slot words (R152, R154). -/

/-- The key of input `i` of a router: 0 N, 1 E, 2 S, 3 W. -/
def linkKey (r : CoreId) (i : Nat) : Nat := r.key * 4 + i

/-- Whether router `r` has direction `n` (1 N, 2 E, 3 S, 4 W, 5 L, 6 H, 7 O), as an output and as an input (R149). -/
def Dev.hasDir (d : Dev) (r : CoreId) (n : Nat) : Bool :=
  let x := r.x.toNat
  let y := r.y.toNat
  match n with
  | 1 => y != 0
  | 2 => x != 95
  | 3 => y + 1 != d.rows
  | 4 => x != 0
  | 5 => true
  | 6 => y == 0 || y + 1 == d.rows
  | 7 => x == 0 || x == 95
  | _ => false

/-- The source of output `n` under a slot word; a field that names the output's own direction, or an input or output that the router lacks,
counts as 0 (R154). -/
def Dev.source (d : Dev) (r : CoreId) (word n : Nat) : Nat :=
  let s := bits word (3 * (n - 1)) 3
  if s ≠ n ∧ d.hasDir r n = true ∧ d.hasDir r s = true then s else 0

/-- The slot of ck `ck`, and its word: idle where no schedule runs (R153, R162). -/
def RouterRun.slot (q : RouterRun) (ck : Nat) : Nat := (ck - q.start) % q.period
def Dev.slotWord (d : Dev) (r : CoreId) (ck : Nat) : Nat :=
  let q := d.router r
  if q.on = false ∨ ck < q.start ∨ Tab.get (fun _ => false) d.schedEmpty r.key = true then idleWord
  else Tab.get (fun _ => idleWord) d.sched (schedKey r q.bank (q.slot ck))

/-! Inputs (R151, R155, R156, R212, R396). -/

/-- Whether a router takes no row from L, H and O because its turn is near (R160). -/
def Dev.drained (d : Dev) (r : CoreId) : Bool :=
  match d.turn with
  | some t => t.draining && t.got.contains r.key && !(t.turned.contains r.key)
  | none => false

/-- The row on a link input in ck `ck`, taken off the link. -/
def Dev.takeLink (d : Dev) (r : CoreId) (i ck : Nat) : Option Row × Dev :=
  let l := Tab.get (fun _ => []) d.links (linkKey r i)
  match l.find? (fun x => x.ck == ck) with
  | none => (none, d)
  | some x => (some x.row, { d with links := Tab.set (fun _ => []) d.links (linkKey r i) (l.erase x) })

/-- The oldest row of a stream, taken from the injection buffer (R155). -/
def Dev.takeStream (d : Dev) (r : CoreId) (inj : Nat) : Option Row × Dev :=
  let k := d.core r
  match k.inj.find? (fun x => x.stream == inj) with
  | some x => if inj < 36 then (some x.row, d.setCore r { k with inj := k.inj.erase x }) else (none, d)
  | none => (none, d)

/-- The stack whose span holds an edge router (R169, R396). -/
def Dev.stackAt (_ : Dev) (r : CoreId) : Nat := r.x.toNat / 24 + (if r.y = 0 then 0 else 4)

/-- The key of a lane plan byte: edge router, page, slot (R212). -/
def planKey (stack x page slot : Nat) : Nat := ((stack * 96 + x) * 8 + page) * 4096 + slot

/-- The row on H: the next row of the stream that the lane plan names in this slot; none with hlane = 1 (R212, R396). -/
def Dev.takeH (d : Dev) (r : CoreId) (ck : Nat) (hlane : Bool) : Option Row × Dev :=
  let q := d.router r
  let b := Tab.get (fun _ => 0) d.lanePlan (planKey (d.stackAt r) r.x.toNat q.entry (q.slot ck))
  if hlane || !(bit b 0) then (none, d)
  else match d.porterRow (4 * d.stackAt r + bits b 1 2) (bits b 3 2) with
    | some (row, d') => (some row, d')
    | none => (none, d)

/-- The row on O: the next one ready on the router's own lane, or on its joined lane with olane = 1 (R156, R397). -/
def Dev.takeO (d : Dev) (r : CoreId) (olane : Bool) : Option Row × Dev :=
  match d.laneRow (if olane then d.joinedLane r else d.ownLane r) with
  | some (row, d') => (some row, d')
  | none => (none, d)

/-- The row on input `n` of a router in a slot; H and O present one only in a slot whose source they are. -/
def Dev.input (d : Dev) (r : CoreId) (word ck n : Nat) : Option Row × Dev :=
  let named := (List.range 7).any (fun i => d.source r word (i + 1) == n)
  if 1 ≤ n ∧ n ≤ 4 then d.takeLink r (n - 1) ck
  else if d.drained r then (none, d)
  else if n = 5 then d.takeStream r (bits word 21 6)
  else if named = false then (none, d)
  else if n = 6 then d.takeH r ck (bit word 27)
  else d.takeO r (bit word 28)

/-! Outputs (R151, R154, R258). -/

/-- The router at the far end of output `n`, and the input it reaches there. -/
def neighbour (r : CoreId) (n : Nat) : CoreId × Nat :=
  match n with
  | 1 => (⟨r.x, r.y - 1⟩, 2)
  | 2 => (⟨r.x + 1, r.y⟩, 3)
  | 3 => (⟨r.x, r.y + 1⟩, 0)
  | _ => (⟨r.x - 1, r.y⟩, 1)

/-- A row leaves on output `n` in ck `ck`. -/
def Dev.output (d : Dev) (r : CoreId) (ck n : Nat) (row : Row) : Dev :=
  if n ≤ 4 then
    let (t, i) := neighbour r n
    let key := linkKey t i
    { d with links := Tab.set (fun _ => []) d.links key (Tab.get (fun _ => []) d.links key ++ [⟨ck + 1, row⟩]) }
  else if n = 5 then { d with delivered := d.delivered ++ [(r, row)] }
  else if n = 6 then { d with edgeRows := d.edgeRows ++ [(d.stackAt r, row)] }
  else d.egressRow r row

/-- The row of input `n` goes to every output that names it; a row that no output names is dropped (R154). -/
def Dev.forkRow (d : Dev) (r : CoreId) (word ck n : Nat) (row : Row) : Dev :=
  match ((List.range 7).map (fun i => i + 1)).filter (fun o => d.source r word o == n) with
  | [] => d.orphan r (d.core r) row.tag.toNat
  | os => os.foldl (fun d o => d.output r ck o row) d

/-- One input of a router in a slot. -/
def Dev.cross (d : Dev) (r : CoreId) (word ck n : Nat) : Dev :=
  match d.input r word ck n with
  | (some row, d') => d'.forkRow r word ck n row
  | (none, d') => d'

/-- The place of an error of a router (R432). -/
def Dev.routerAt (d : Dev) (r : CoreId) (location : Nat) : ErrAt :=
  let q := d.router r
  ⟨2, r.x.toNat + 256 * r.y.toNat, q.job, q.jgen, BitVec.ofNat 32 (d.get WARD_STEP_NOW_step), location⟩

/-- ROUTER_SLOT: the slot word is read (R426), and the row on each input is taken and forked.  MESH_SLOT follows the routers of the epoch
owner (R153). -/
def Dev.routerSlot (d : Dev) (r : CoreId) (ck : Nat) (e : Ecc) : Dev :=
  let q := d.router r
  let d1 := { d with ck := max d.ck ck }
  let d2 := match e with
    | .clean => d1
    | .corrected => d1.raise 0x0001 (d.routerAt r (q.slot ck))
    | .uncorrectable => d1.raise 0x0024 (d.routerAt r (q.slot ck))
  let word := if e = .uncorrectable then idleWord else d.slotWord r ck
  let d3 := [1, 2, 3, 4, 5, 6, 7].foldl (fun d n => d.cross r word ck n) d2
  if q.on && d.ownsEpoch q.job q.jgen then d3.put MESH_SLOT_slot (q.slot ck) else d3

/-- A command of a router that the device must have. -/
def State.onRouter (s : State) (r : CoreId) (f : Dev → Dev) : Host.Outcome State Fault Refusal :=
  if s.dev.logical r then s.onDev f else .fault (.noSuchUnit "router" r.key)

def execRouterSlot (r : CoreId) (ck : Nat) (e : Ecc) (s : State) : Host.Outcome State Fault Refusal :=
  s.onRouter r (fun d => d.routerSlot r ck e)

/-! Epochs (R158 to R163). -/

/-- The epoch controller at the end of ck `ck`: once the votes reach the current entry's count, T_turn is fixed (R159). -/
def Dev.epochTest (d : Dev) (ck : Nat) : Dev :=
  let n := d.get MESH_EPOCH_CTL_next
  let v := d.get (MESH_EPOCH_votes n)
  if d.turn.isNone ∧ v ≤ d.get MESH_VOTES_votes ∧ d.get MESH_EPOCH_CTL_owner_valid = 1 then
    { d.put MESH_VOTES_votes (d.get MESH_VOTES_votes - v) with
      turn := some ⟨ck + d.get (MESH_EPOCH_turn_lead n), n, (d.get MESH_SLOT_epoch + 1) % 65536, [], [], false⟩ }
  else d

/-- EPOCH_VOTE: an ERRINC to 0xFEFE at the epoch controller adds its increment to the votes; one of a job that is not the epoch owner is
dropped (R159, R170). -/
def Dev.epochVote (d : Dev) (p : Packet) (ck : Nat) : Dev :=
  let d1 := d.eject p
  if p.type = 3 ∧ p.dstX = 0 ∧ p.dstY = 0 ∧ p.dstUnit = 2 ∧ p.dstSub = 1 ∧ d.ownsEpoch p.job p.jgen = true then
    (d1.put MESH_VOTES_votes (sat 16 (d.get MESH_VOTES_votes + bits p.inl.toNat 6 15))).epochTest ck
  else d1.absorbPacket

def execEpochVote (p : Packet) (ck : Nat) (s : State) : Host.Outcome State Fault Refusal :=
  s.onDev (fun d => d.epochVote p ck)

/-- A router starts slot 0 of its other bank in ck `ck` under entry `n`; too few fill rows leave it only empty slots (R160, R162). -/
def Dev.turnRouter (d : Dev) (n ck : Nat) (r : CoreId) : Dev :=
  let q := d.router r
  let period := d.get (MESH_EPOCH_period n) + 1
  let short := decide (Tab.get (fun _ => 0) d.schedFill r.key < cdiv period 16)
  let d1 := { d with routers := Tab.set (fun _ => RouterRun.reset) d.routers r.key
                       { q with bank := 1 - q.bank, start := ck, period := period, entry := n },
                     schedFill := Tab.set (fun _ => 0) d.schedFill r.key 0,
                     schedEmpty := Tab.set (fun _ => false) d.schedEmpty r.key short }
  if short then (d1.bump MESH_STAT_fill_short 1).raise 0x0022 (d.routerAt r n) else d1

/-- TURN reaches a router that has not had it: the router will turn at T_turn, or turns now when it is later than ck T_turn − drain (R160,
R163). -/
def Dev.turnArrives (d : Dev) (r : CoreId) (ck : Nat) : Dev :=
  let q := d.router r
  let old := match d.doneTurn with | some t => !(t.got.contains r.key) | none => false
  match (if old then d.doneTurn else d.turn) with
  | none => d
  | some t =>
    if t.got.contains r.key || !(q.on && d.ownsEpoch q.job q.jgen) then d
    else
      let sent := t.tTurn - d.get (MESH_EPOCH_turn_lead t.entry) + 1
      let d0 := if d.get ERRAND_STAT_turn_lat_max < ck - sent then d.put ERRAND_STAT_turn_lat_max (sat 16 (ck - sent)) else d
      let late := old || decide (t.tTurn - d.get (MESH_EPOCH_drain t.entry) < ck)
      let t1 := { t with got := r.key :: t.got, turned := if late then r.key :: t.turned else t.turned }
      let d1 := { d0 with ck := max d.ck ck, turn := if old then d.turn else some t1,
                          doneTurn := if old then some t1 else d.doneTurn }
      if late then (((d1.bump MESH_STAT_late_turn 1).raise 0x0023 (d.routerAt r t.entry))).turnRouter t.entry ck r else d1

def execTurn (c : CoreId) (ck : Nat) (s : State) : Host.Outcome State Fault Refusal :=
  s.onRouter c (fun d => d.turnArrives c ck)

/-- TURN_DRAIN_START: ck T_turn − drain comes (R160). -/
def Dev.drainStart (d : Dev) : Dev :=
  match d.turn with
  | none => d
  | some t => { d with ck := max d.ck (t.tTurn - d.get (MESH_EPOCH_drain t.entry)), turn := some { t with draining := true } }

def execTurnDrainStart (s : State) : Host.Outcome State Fault Refusal := s.onDev Dev.drainStart

/-- Rows that a router still holds on its links at T_turn are dropped (R161). -/
def Dev.dropLinks (d : Dev) (r : CoreId) : Dev :=
  (List.range 4).foldl (fun d i =>
    let l := Tab.get (fun _ => []) d.links (linkKey r i)
    l.foldl (fun d x => (d.bump MESH_STAT_turn_drop 1).raise 0x0021 (d.routerAt r x.row.tag.toNat))
      { d with links := Tab.set (fun _ => []) d.links (linkKey r i) [] }) d

/-- A port in UP or FENCED sends EPOCH_TURN, and its assay when it carries job flows (R160, R300, R304). -/
def Dev.sendAssay (d : Dev) (p : Nat) : Dev :=
  if d.get (LINK_PORT_CFG_valid p) = 1 then
    (List.range 4).foldl (fun d i =>
      d.symbolUp p 0x06 (i + d.get WARD_STEP_NOW_step % 64 * 2 ^ 2 + d.get (LINK_ASSAY_bytes i) * 2 ^ 8)) d
  else d

/-- What every port does at T_turn. -/
def Dev.portTurn (d : Dev) (p : Nat) : Dev :=
  (d.symbolUp p 0x05 (d.get MESH_SLOT_epoch + d.get WARD_STEP_NOW_step % 2 ^ 16 * 2 ^ 16)).sendAssay p

/-- The counter of an entry gains 1 on every core of the owner job (R160). -/
def Dev.turnCounters (d : Dev) (n : Nat) : Dev :=
  if d.get (MESH_EPOCH_cnt_en n) = 1 then
    d.allCores.foldl (fun d c =>
      let k := d.core c
      if k.image.present && d.ownsEpoch k.job k.jgen then d.setCore c (k.advance (d.get (MESH_EPOCH_cnt n)) 1 .other) else d) d
  else d

/-- BANK_TURN: in ck T_turn every router of the owner that has TURN and has not turned does so; ports send EPOCH_TURN and their assay; the
entry's counter gains 1; the next entry is current (R158, R160). -/
def Dev.bankTurn (d : Dev) : Dev :=
  match d.turn with
  | none => d
  | some t =>
    let own := d.allCores.filter (fun r => (d.router r).on && d.ownsEpoch (d.router r).job (d.router r).jgen)
    let d1 := own.foldl Dev.dropLinks d
    let d2 := own.foldl (fun d r => if t.got.contains r.key && !(t.turned.contains r.key) then d.turnRouter t.entry t.tTurn r else d) d1
    let next := if t.entry = d.get MESH_EPOCH_CTL_entries then 0 else t.entry + 1
    let d3 := ((((d2.put MESH_SLOT_slot 0).put MESH_SLOT_bank (1 - d.get MESH_SLOT_bank)).put MESH_SLOT_epoch
      ((d.get MESH_SLOT_epoch + 1) % 65536)).put MESH_EPOCH_CTL_next next)
    let d4 := { d3 with turn := none, doneTurn := some t, ck := max d.ck t.tTurn }
    (((List.range 96).foldl Dev.portTurn d4).turnCounters t.entry).epochTest t.tTurn

def execBankTurn (s : State) : Host.Outcome State Fault Refusal := s.onDev Dev.bankTurn

end Sys2Proof.Machine
end

