-- ==== Sys2Proof/Machine/Link.lean ====
section
/-! DEFINITION. The link layer of the optical ports: flits, symbols, retry, credits, sparing, states and the assay (R280 to R305). -/

namespace Sys2Proof.Machine

/-! Symbols (R289). -/

/-- Whether a symbol's check bytes are the low 16 bits of CRC-32C over its type and payload. -/
def symbolGood (type : Nat) (y : BitVec 40) (chk : BitVec 16) : Bool :=
  crc32c (toBytes 1 type ++ toBytes 5 y.toNat) % 65536 == chk.toNat

/-- A symbol at port `p`: one with a bad check is discarded and counted; a port in OFF or LOST receives nothing (R289, R297). -/
def State.onSymbol (s : State) (p : BitVec 7) (type : Nat) (y : BitVec 40) (chk : BitVec 16) (f : Dev → Dev) :
    Host.Outcome State Fault Refusal :=
  s.onPort p (fun d =>
    if d.linkState p.toNat = 0 ∨ d.linkState p.toNat = 8 then d
    else if symbolGood type y chk then f d else d.bump (LINK_ERR_bad p.toNat) 1)

/-! States (R297, R298). -/

/-- The place of an error of a port (R432). -/
def Dev.portAt (d : Dev) (p : Nat) : ErrAt := ⟨6, p, 0, 0, BitVec.ofNat 32 (d.get WARD_STEP_NOW_step), p⟩

/-- The port takes a state; the fence reason stands in FENCED only. -/
def Dev.setLinkState (d : Dev) (p st fence : Nat) : Dev := (d.put (LINK_STATE_state p) st).put (LINK_STATE_fence p) fence

/-- Messages being transmitted on a link that goes are discarded like the buffered ones, and nothing waits on its lanes. -/
def Dev.dropSending (d : Dev) (p : Nat) : Dev :=
  let r := d.relay p
  let d1 := (d.setRelay p { r with sending := [] }).updPort p (fun x => { x with tx := [] })
  r.sending.foldl (fun d q => q.2.foldl (fun d _ => d.discardEgress p q.1) d) d1

/-- An exit from UP, FENCED or REALIGN to another state than each other: the job flows become gone and LINK_LOST is reported, but no error
is counted after GOING_DOWN (R298, R301). -/
def Dev.leaveUp (d : Dev) (p : Nat) : Dev :=
  if d.carries p || d.linkState p == 7 then
    let d1 := (d.portGone p).dropSending p
    if (d.port p).goingDown = false then d1.raise 0x0050 (d.portAt p) else d1
  else d

/-- The port enters LOST. -/
def Dev.enterLost (d : Dev) (p : Nat) : Dev := (d.leaveUp p).setLinkState p 8 0

/-- The port enters TRAIN: no DISCOVER has been received since, and no lane is known to be ready. -/
def Dev.enterTrain (d : Dev) (p : Nat) : Dev :=
  (((d.leaveUp p).setLinkState p 2 0).put (LINK_PEER_seen p) 0).updPort p (fun x => { x with peerReady := 0 })

/-- The port enters REALIGN from UP or FENCED (R291, R296, R297). -/
def Dev.enterRealign (d : Dev) (p : Nat) : Dev :=
  if d.carries p then
    (((d.updPort p (fun x => { x with before := d.linkState p })).put (LINK_STATE_state p) 7).bump (LINK_RETRY_realigns p) 1)
  else d

/-- Whether the last DISCOVER matches the port map, valid on both sides (R299). -/
def Dev.peerMatches (d : Dev) (p : Nat) : Bool :=
  d.get (LINK_PORT_CFG_valid p) == 1 && d.get (LINK_PEER_valid p) == 1
    && d.get (LINK_PEER_devnum p) == d.get (LINK_PORT_CFG_peer_dev p) && d.get (LINK_PEER_port p) == d.get (LINK_PORT_CFG_peer_port p)

/-- UP, or FENCED with reason WIRING (R299). -/
def Dev.upOrFenced (d : Dev) (p : Nat) : Dev := if d.peerMatches p then d.setLinkState p 5 0 else d.setLinkState p 6 1

/-! Wavelength maps (R294). -/

/-- The wavelengths of a set of locked rings, ascending. -/
def lockedWaves (rings : BitVec 18) : List Nat := (List.range 18).filter (fun w => bit rings.toNat w)

/-- The lane field and the wstate field of a map: 16 data lanes on the lowest wavelengths that locked, up to two spares, the rest failed. -/
def mapLanes (rings : BitVec 18) : Nat :=
  (List.range 16).foldl (fun v l => setBits v (5 * l) 5 ((lockedWaves rings).getD l 0)) 0
def mapStates (rings : BitVec 18) : Nat :=
  (List.range 18).foldl (fun v w =>
    let i := (lockedWaves rings).findIdx (· == w)
    setBits v (2 * w) 2 (if i < 16 then 1 else if i < 18 ∧ (lockedWaves rings).contains w = true then 0 else 3)) 0

/-- The wavelengths in a state of a wstate field. -/
def wavesIn (states st : Nat) : List Nat := (List.range 18).filter (fun w => bits states (2 * w) 2 == st)

/-- The transmit map's states and the receive map's states, with their spare counts. -/
def Dev.setTxStates (d : Dev) (p v : Nat) : Dev :=
  (d.put (LINK_TXMAP_wstate p) v).put (LINK_RETRY_tx_spares p) (wavesIn v 0).length
def Dev.setRxStates (d : Dev) (p v : Nat) : Dev :=
  (d.put (LINK_RXMAP_wstate p) v).put (LINK_RETRY_rx_spares p) (wavesIn v 0).length

/-! Flits (R282, R284, R285, R291). -/

/-- A discarded flit: the first one after an accepted flit sends NAK. -/
def Dev.discardFlit (d : Dev) (p : Nat) : Dev :=
  let x := d.port p
  if x.discarding then d else (d.setPort p { x with discarding := true }).symbolUp p 0x02 x.expected

/-- An accepted flit joins its lane in the ingress buffer; every 64th is acknowledged (R289). -/
def Dev.acceptFlit (d : Dev) (p : Nat) (v : Nat) : Dev :=
  let x := d.port p
  let vl := bits v 13 2
  let f : RxFlit := ⟨bit v 15, toBytes 250 (v / 2 ^ 16)⟩
  let q := Tab.get (fun _ => []) x.rx vl ++ [f]
  let x1 := { x with expected := (x.expected + 1) % 8192, discarding := false, accepted := (x.accepted + 1) % 64,
                     rx := Tab.set (fun _ => []) x.rx vl q }
  let d1 := d.setPort p x1
  if x1.accepted = 0 then d1.symbolUp p 0x01 x1.expected else d1

/-- FLIT_RECEIVE: FEC counts, framing, then the CRC and the sequence decide; a FENCED port accepts no VL0 or VL1 flit (R285, R291, R297). -/
def Dev.flitArrives (d : Dev) (p : Nat) (v : BitVec 2048) (e : Ecc) : Dev :=
  if d.carries p = false then d
  else
    let n := v.toNat
    let d1 := match e with
      | .clean => d
      | .corrected => d.put (LINK_ERR_fec_corr p) ((d.get (LINK_ERR_fec_corr p) + 1) % 2 ^ 32)
      | .uncorrectable => (d.bump (LINK_ERR_fec_unc p) 1).updPort p (fun x => { x with framed := false })
    if (d1.port p).framed = false then d1
    else if crc32c (toBytes 252 n) ≠ n / 2 ^ 2016 then (d1.bump (LINK_ERR_crc_bad p) 1).discardFlit p
    else if bits n 0 13 ≠ (d1.port p).expected ∨ (d.linkState p = 6 ∧ bits n 13 2 < 2) then d1.discardFlit p
    else d1.acceptFlit p n

def execFlitReceive (p : BitVec 7) (x : BitVec 2048) (e : Ecc) (s : State) : Host.Outcome State Fault Refusal :=
  s.onPort p (fun d => d.flitArrives p.toNat x e)

/-! Messages (R287, R288, R292, R327, R360). -/

/-- A flit's buffer is freed: its pool's total goes back to the sender (R292). -/
def Dev.freeFlit (d : Dev) (p vl : Nat) (pool : Bool) : Dev :=
  let x := d.port p
  let k := vl * 2 + pool.toNat
  let t := (Tab.get (fun _ => 0) x.freed k + 1) % 65536
  (d.setPort p { x with freed := Tab.set (fun _ => 0) x.freed k t }).symbolUp p 0x03 (vl + pool.toNat * 2 ^ 2 + t * 2 ^ 3)

/-- Takes `n` bytes off the flits of a lane: what is left, and the pools of the flits whose last byte has gone. -/
def takeBytes : Nat → List RxFlit → List RxFlit × List Bool
  | _, [] => ([], [])
  | n, f :: fs =>
    if f.rest.length ≤ n then
      let (l, ps) := takeBytes (n - f.rest.length) fs
      (l, f.pool :: ps)
    else ({ f with rest := f.rest.drop n } :: fs, [])

/-- Fill at a message boundary: the rest of its flit carries nothing (R287). -/
def dropFill : List RxFlit → List RxFlit × List Bool
  | [] => ([], [])
  | f :: fs =>
    if f.rest.head? = some 0xFF ∨ f.rest = [] then
      let (l, ps) := dropFill fs
      (l, f.pool :: ps)
    else (f :: fs, [])

/-- The peer queue bound to a port that is enabled (R325). -/
def Dev.peerQueue (d : Dev) (p : Nat) : Option Nat :=
  ((List.range 15).map (· + 48)).find? (fun q =>
    d.get (WARD_Q_en q) == 1 && d.get (WARD_Q_loc q) == 2 && d.get (WARD_Q_port q) == p)

/-- A command joins the mailbox of a queue without a ring, and the queue's tail advances (R325). -/
def Dev.post (d : Dev) (q : Nat) (r : RowData) : Dev :=
  { d.put (WARD_Q_tail q) ((d.get (WARD_Q_tail q) + 1) % 65536) with
    mail := Tab.set (fun _ => []) d.mail q (Tab.get (fun _ => []) d.mail q ++ [r]) }

/-- A whole message: to its ingress flow, to a peer queue, or to the Broker complex of the port; one of the wrong class, or naming no valid
flow, is discarded and counted (R288, R327, R360). -/
def Dev.deliverMessage (d : Dev) (p vl flow cls : Nat) (poison : Bool) (rows : List RowData) : Dev :=
  let bad := d.bump (LINK_ERR_bad p) 1
  if vl < 2 then
    if cls = 0 ∧ d.get (LINK_FLOW_valid p (64 + flow)) = 1 ∧ rows ≠ [] then
      let r := d.relay p
      d.setRelay p { r with ready := Tab.set (fun _ => []) r.ready flow (Tab.get (fun _ => []) r.ready flow ++ [⟨rows, poison, vl⟩]) }
    else bad
  else if cls ≠ 1 then bad
  else if vl = 2 ∧ flow = 0 then
    match d.peerQueue p, rows with
    | some q, [r] => d.post q r
    | _, _ => bad
  else { d with svc := d.svc ++ [⟨p, vl, flow, poison, rows⟩] }

/-- LINK_MESSAGE: the message at the front of a lane is delivered once it is whole; one for a closed flow waits in the ingress buffer (R261,
R288, R292). -/
def Dev.linkMessage (d : Dev) (p vl : Nat) : Dev :=
  let x := d.port p
  let (q, ps) := dropFill (Tab.get (fun _ => []) x.rx vl)
  let d1 := ps.foldl (fun d pool => d.freeFlit p vl pool) (d.updPort p (fun x => { x with rx := Tab.set (fun _ => []) x.rx vl q }))
  let bs := q.flatMap (fun f => f.rest)
  let h := ofBytes (bs.take 4)
  let n := bits h 16 16
  let need := 4 + 64 * n
  if bs.length < 4 ∨ bs.length < need then d1
  else if vl < 2 ∧ Tab.get (fun _ => false) (d.relay p).closed (bits h 0 6) = true then d1
  else
    let (l, gs) := takeBytes need q
    let rows := (List.range n).map (fun i => BitVec.ofNat 512 (ofBytes ((bs.drop (4 + 64 * i)).take 64)))
    let d2 := d1.updPort p (fun x => { x with rx := Tab.set (fun _ => []) x.rx vl l })
    (gs.foldl (fun d pool => d.freeFlit p vl pool) d2).deliverMessage p vl (bits h 0 6) (bits h 6 2) (bit h 8) rows

def execLinkMessage (p : BitVec 7) (vl : BitVec 2) (s : State) : Host.Outcome State Fault Refusal :=
  s.onPort p (fun d => d.linkMessage p.toNat vl.toNat)

/-! NOP, ACK and NAK (R289, R291). -/

def execNopSymbol (p : BitVec 7) (y : BitVec 40) (chk : BitVec 16) (s : State) : Host.Outcome State Fault Refusal :=
  s.onSymbol p 0x00 y chk (fun d => d)

/-- ACK: the flits before the named sequence leave the replay buffer (R291). -/
def Dev.ackArrives (d : Dev) (p n : Nat) : Dev :=
  let x := d.port p
  let i := if n = x.seq then x.replay.length else x.replay.findIdx (fun f => f.1 == n)
  if n ≠ x.seq ∧ x.replay.length ≤ i then d
  else (d.setPort p { x with replay := x.replay.drop i, replays := if i = 0 then x.replays else 0 }).flush p

def execAck (p : BitVec 7) (y : BitVec 40) (chk : BitVec 16) (s : State) : Host.Outcome State Fault Refusal :=
  s.onSymbol p 0x01 y chk (fun d => d.ackArrives p.toNat (bits y.toNat 0 13))

/-- The unacknowledged flits from an index leave again. -/
def Dev.resend (d : Dev) (p i : Nat) : Dev := ((d.port p).replay.drop i).foldl (fun d f => d.emit (.flit p f.2)) d

/-- NAK: a replay from the named sequence; too many of one sequence without progress lead to REALIGN; one outside the window is ignored
(R291). -/
def Dev.nakArrives (d : Dev) (p n : Nat) : Dev :=
  let x := d.port p
  let i := x.replay.findIdx (fun f => f.1 == n)
  if x.replay.length ≤ i ∨ d.carries p = false then d
  else
    let k := if x.replayOf = n then x.replays + 1 else 1
    let d1 := ((d.setPort p { x with replayOf := n, replays := k }).bump (LINK_RETRY_replays p) 1).resend p i
    if d.get LINK_CFG_replay_max ≤ k then d1.enterRealign p else d1.flush p

def execNak (p : BitVec 7) (y : BitVec 40) (chk : BitVec 16) (s : State) : Host.Outcome State Fault Refusal :=
  s.onSymbol p 0x02 y chk (fun d => d.nakArrives p.toNat (bits y.toNat 0 13))

/-! Credits (R290, R292). -/

/-- LANE_CREDIT: the difference to the last total returns to its pool. -/
def Dev.laneCredit (d : Dev) (p v : Nat) : Dev :=
  let x := d.port p
  let vl := bits v 0 2
  let pool := bit v 2
  let t := bits v 3 16
  let k := vl * 2 + pool.toNat
  let delta := (t + 65536 - Tab.get (fun _ => 0) x.last k) % 65536
  let i := if pool then 4 else vl
  let x1 := { x with last := Tab.set (fun _ => 0) x.last k t }
  (d.setPort p (x1.setCredit i (x1.credit i + delta))).flush p

def execLaneCredit (p : BitVec 7) (y : BitVec 40) (chk : BitVec 16) (s : State) : Host.Outcome State Fault Refusal :=
  s.onSymbol p 0x03 y chk (fun d => d.laneCredit p.toNat y.toNat)

/-- FLOW_CREDIT: for a service flow its credits gain the difference; for an egress flow of that gen too, or become 1 for a tally target, or
the flow becomes gone (R260, R261, R290). -/
def Dev.flowCredit (d : Dev) (p v : Nat) : Dev :=
  let f := bits v 0 6
  let t := bits v 16 8
  if bit v 6 then
    let x := d.port p
    let n := Tab.get (fun _ => 0) x.svcCredits f + (t + 256 - Tab.get (fun _ => 0) x.svcLast f) % 256
    d.setPort p { x with svcLast := Tab.set (fun _ => 0) x.svcLast f t, svcCredits := Tab.set (fun _ => 0) x.svcCredits f n }
  else if d.get (LINK_FLOW_valid p f) = 0 ∨ bits v 8 8 ≠ d.get (LINK_FLOW_gen p f) then d
  else
    let r := d.relay p
    let delta := (t + 256 - Tab.get (fun _ => 0) r.last f) % 256
    let n := d.get (LINK_FLOW_credits p f)
    let d1 := (d.setRelay p { r with last := Tab.set (fun _ => 0) r.last f t }).put (LINK_FLOW_credits p f)
      (if delta = 0 then n else if d.get (LINK_FLOW_tally p f) = 1 then 1 else sat 8 (n + delta))
    if bit v 7 then d1.flowGone p f else d1

def execFlowCredit (p : BitVec 7) (y : BitVec 40) (chk : BitVec 16) (s : State) : Host.Outcome State Fault Refusal :=
  s.onSymbol p 0x04 y chk (fun d => d.flowCredit p.toNat y.toNat)

/-- EPOCH_TURN: stored in LINK_PEER_EPOCH, with no other effect (R300). -/
def execEpochTurn (p : BitVec 7) (y : BitVec 40) (chk : BitVec 16) (s : State) : Host.Outcome State Fault Refusal :=
  s.onSymbol p 0x05 y chk (fun d =>
    (d.put (LINK_PEER_EPOCH_epoch p.toNat) (bits y.toNat 0 16)).put (LINK_PEER_EPOCH_step p.toNat) (bits y.toNat 16 16))

/-! The assay (R303 to R305). -/

/-- Bytes 0 to 15 of the running step's assay, and of the previous one's. -/
def Dev.assayNow (d : Dev) : Nat := (List.range 4).foldl (fun v i => v + d.get (LINK_ASSAY_bytes i) * 2 ^ (32 * i)) 0
def Dev.assayPrev (d : Dev) : Nat := (List.range 4).foldl (fun v i => v + d.get (LINK_ASSAY_PREV_bytes i) * 2 ^ (32 * i)) 0

/-- A mismatch fences the port, makes its job flows gone, and is counted and reported. -/
def Dev.assayMismatch (d : Dev) (p : Nat) : Dev :=
  ((((d.setLinkState p 6 2).updPort p (fun x => { x with reloaded := false })).portGone p).bump (LINK_ASSAY_ST_mism p) 1).raise
    0x0051 (d.portAt p)

/-- The result of a comparison; a port fenced for assay whose flow table was loaded returns to UP on a match. -/
def Dev.assayResult (d : Dev) (p : Nat) (ok : Bool) : Dev :=
  let d1 := (d.put (LINK_ASSAY_ST_match p) ok.toNat).put (LINK_ASSAY_ST_held p) 0
  if ok then
    if d.linkState p = 6 ∧ d.get (LINK_STATE_fence p) = 2 ∧ (d.port p).reloaded = true then d1.setLinkState p 5 0 else d1
  else d1.assayMismatch p

/-- The set in LINK_ASSAY_RX is compared by its tag, or held (R305). -/
def Dev.assayCompare (d : Dev) (p : Nat) : Dev :=
  let t := d.get (LINK_ASSAY_ST_tag p)
  let s := d.get WARD_STEP_NOW_step % 64
  let v := d.get (LINK_ASSAY_RX_assay p)
  if t = s then d.assayResult p (v == d.assayNow)
  else if t = (s + 63) % 64 then (if d.assaySteps < 2 then d else d.assayResult p (v == d.assayPrev))
  else if t = (s + 1) % 64 ∨ t = (s + 2) % 64 then d.put (LINK_ASSAY_ST_held p) 1
  else d.assayResult p false

/-- ASSAY: a part is kept until its tag's four parts are there; a complete set is compared on a port that carries job flows. -/
def Dev.assayPart (d : Dev) (p v : Nat) : Dev :=
  let x := d.port p
  let tag := bits v 2 6
  let old := if x.partTag = tag then x.parts else []
  let parts := Tab.set (fun _ => none) old (bits v 0 2) (some (BitVec.ofNat 32 (v / 2 ^ 8)))
  match Tab.get (fun _ => none) parts 0, Tab.get (fun _ => none) parts 1, Tab.get (fun _ => none) parts 2, Tab.get (fun _ => none) parts 3 with
  | some a, some b, some c, some e =>
    let d1 := d.setPort p { x with partTag := tag, parts := [] }
    if d.carries p = true ∧ d.get (LINK_PORT_CFG_valid p) = 1 then
      ((d1.put (LINK_ASSAY_RX_assay p) (a.toNat + b.toNat * 2 ^ 32 + c.toNat * 2 ^ 64 + e.toNat * 2 ^ 96)).put
        (LINK_ASSAY_ST_tag p) tag).assayCompare p
    else d1
  | _, _, _, _ => d.setPort p { x with partTag := tag, parts := parts }

def execAssay (p : BitVec 7) (y : BitVec 40) (chk : BitVec 16) (s : State) : Host.Outcome State Fault Refusal :=
  s.onSymbol p 0x06 y chk (fun d => d.assayPart p.toNat y.toNat)

/-! GOING_DOWN, DISCOVER, TRAIN and ALIGN (R283, R285, R297, R299, R301). -/

def execGoingDown (p : BitVec 7) (y : BitVec 40) (chk : BitVec 16) (s : State) : Host.Outcome State Fault Refusal :=
  s.onSymbol p 0x07 y chk (fun d =>
    ((d.portGone p.toNat).put (LINK_STATE_down p.toNat) (bits y.toNat 0 4)).updPort p.toNat (fun x => { x with goingDown := true }))

/-- DISCOVER: recorded; an UP port that no longer matches is fenced, and a port fenced for wiring that matches enters UP (R299). -/
def Dev.discover (d : Dev) (p v : Nat) : Dev :=
  let d1 := (((((d.put (LINK_PEER_devnum p) (bits v 0 18)).put (LINK_PEER_port p) (bits v 18 7)).put (LINK_PEER_grade p)
    (bits v 25 8)).put (LINK_PEER_valid p) (bits v 33 1)).put (LINK_PEER_seen p) 1)
  if d.linkState p = 5 ∧ d1.peerMatches p = false then (d1.portGone p).setLinkState p 6 1
  else if d.linkState p = 6 ∧ d.get (LINK_STATE_fence p) = 1 ∧ d1.peerMatches p = true then d1.setLinkState p 5 0
  else d1

def execDiscover (p : BitVec 7) (y : BitVec 40) (chk : BitVec 16) (s : State) : Host.Outcome State Fault Refusal :=
  s.onSymbol p 0x08 y chk (fun d => d.discover p.toNat y.toNat)

/-- TRAIN: the peer's receive lane is ready or not, during LOCK and TRAIN. -/
def execTrain (p : BitVec 7) (y : BitVec 40) (chk : BitVec 16) (s : State) : Host.Outcome State Fault Refusal :=
  s.onSymbol p 0x0C y chk (fun d =>
    if d.linkState p.toNat = 1 ∨ d.linkState p.toNat = 2 then
      d.updPort p.toNat (fun x =>
        { x with peerReady := BitVec.ofNat 16 (setBits x.peerReady.toNat (bits y.toNat 0 4) 1 (bits y.toNat 4 1)) })
    else d)

/-- ALIGN: flit framing resumes, and a lane that is to move to the spare locks on it (R283, R285, R296). -/
def Port.alignOn (x : Port) (lane w : Nat) : Port :=
  { x with framed := true,
           rxSpare := x.rxSpare.map (fun q => if q.lane = lane ∧ q.spare = w then { q with locked := true } else q) }

def execAlign (p : BitVec 7) (y : BitVec 40) (chk : BitVec 16) (s : State) : Host.Outcome State Fault Refusal :=
  s.onSymbol p 0x0B y chk (fun d => d.updPort p.toNat (fun x => x.alignOn (bits y.toNat 0 4) (bits y.toNat 4 5)))

/-! Timers (R289, R291, R304). -/

def execAckTimer (p : BitVec 7) (s : State) : Host.Outcome State Fault Refusal :=
  s.onPort p (fun d =>
    if d.carries p.toNat then
      (d.updPort p.toNat (fun x => { x with accepted := 0 })).symbol p.toNat 0x01 (d.port p.toNat).expected
    else d)

def execNakRepeat (p : BitVec 7) (s : State) : Host.Outcome State Fault Refusal :=
  s.onPort p (fun d => if (d.port p.toNat).discarding then d.symbolUp p.toNat 0x02 (d.port p.toNat).expected else d)

/-- CREDIT_REFRESH: every lane total and every valid ingress flow's total. -/
def Dev.creditRefresh (d : Dev) (p : Nat) : Dev :=
  let x := d.port p
  let lanes := (List.range 8).filter (· != 5)
  let d1 := lanes.foldl (fun d k =>
    d.symbolUp p 0x03 (k / 2 + k % 2 * 2 ^ 2 + Tab.get (fun _ => 0) x.freed k * 2 ^ 3)) d
  (List.range 64).foldl (fun d f =>
    if d.get (LINK_FLOW_valid p (64 + f)) = 1 then d.symbolUp p 0x04 (d.flowCreditSymbol p f) else d) d1

def execCreditRefresh (p : BitVec 7) (s : State) : Host.Outcome State Fault Refusal :=
  s.onPort p (fun d => d.creditRefresh p.toNat)

def execAssayRepeat (p : BitVec 7) (s : State) : Host.Outcome State Fault Refusal := s.onPort p (fun d => d.sendAssay p.toNat)

/-- The DISCOVER symbol of a port (R289). -/
def Dev.discoverSymbol (d : Dev) (p : Nat) : Dev :=
  d.symbol p 0x08 (d.devnum.toNat + p * 2 ^ 18 + d.get FUSE_GRADE_grade * 2 ^ 25 + d.get (LINK_PORT_CFG_valid p) * 2 ^ 33)

def execDiscoverRepeat (p : BitVec 7) (s : State) : Host.Outcome State Fault Refusal :=
  s.onPort p (fun d => if d.carries p.toNat || d.linkState p.toNat == 4 then d.discoverSymbol p.toNat else d)

/-! Sparing (R295, R296). -/

/-- The transmitter starts to spare a lane with its codeword counter at `cw`: the lowest spare, K the smallest multiple of 256 at or past
cw + 512, and SWAP; with no spare free the port enters LOST. -/
def Dev.startSpare (d : Dev) (p lane cw : Nat) : Dev :=
  let x := d.port p
  if x.txSpare.any (fun q => q.lane == lane) then d
  else
    let st := d.get (LINK_TXMAP_wstate p)
    match wavesIn st 0 with
    | [] => d.enterLost p
    | w :: _ =>
      let k := cdiv (cw + 512) 256 * 256 % 2 ^ 32
      let old := bits (d.get (LINK_TXMAP_lane p)) (5 * lane) 5
      ((d.setPort p { x with txSpare := x.txSpare ++ [⟨lane, old, w, k, true⟩] }).setTxStates p (setBits st (2 * w) 2 2)).symbol p 0x0A
        (lane + w * 2 ^ 4 + k / 2 ^ 8 * 2 ^ 9)

/-- A lane of a live link is spared: by the transmitter on its own, or on the receiver's request. -/
def Dev.spareLane (d : Dev) (p lane : Nat) (tx : Bool) (cw : Nat) : Dev :=
  if d.carries p then (if tx then d.startSpare p lane cw else d.symbol p 0x09 lane) else d

def execLaneSpareTrigger (p : BitVec 7) (lane : BitVec 4) (tx : Bool) (cw : BitVec 32) (s : State) :
    Host.Outcome State Fault Refusal :=
  s.onPort p (fun d => d.spareLane p.toNat lane.toNat tx cw.toNat)

def execSpareReq (p : BitVec 7) (y : BitVec 40) (chk : BitVec 16) (cw : BitVec 32) (s : State) :
    Host.Outcome State Fault Refusal :=
  s.onSymbol p 0x09 y chk (fun d => d.spareLane p.toNat (bits y.toNat 0 4) true cw.toNat)

/-- SWAP: the receiver is to take a lane from the spare at codeword K; SWAP is repeated until K, so one that is known or past changes
nothing. -/
def Dev.swapArrives (d : Dev) (p v cw : Nat) : Dev :=
  let x := d.port p
  let lane := bits v 0 4
  let w := bits v 4 5
  let k := bits v 9 24 * 2 ^ 8
  let old := bits (d.get (LINK_RXMAP_lane p)) (5 * lane) 5
  if x.rxSpare.any (fun q => q.lane == lane) || old == w || decide (k ≤ cw) then d
  else (d.setPort p { x with rxSpare := x.rxSpare ++ [⟨lane, old, w, k, false⟩] }).setRxStates p
    (setBits (d.get (LINK_RXMAP_wstate p)) (2 * w) 2 2)

def execSwap (p : BitVec 7) (y : BitVec 40) (chk : BitVec 16) (cw : BitVec 32) (s : State) : Host.Outcome State Fault Refusal :=
  s.onSymbol p 0x0A y chk (fun d => d.swapArrives p.toNat y.toNat cw.toNat)

/-- A map with lane `q.lane` on the spare, the spare carrying data and the old wavelength failed. -/
def swapLane (lanes : Nat) (q : Sparing) : Nat := setBits lanes (5 * q.lane) 5 q.spare
def swapStates (st : Nat) (q : Sparing) : Nat := setBits (setBits st (2 * q.spare) 2 1) (2 * q.old) 2 3

/-- SWAP_AT_K: the receiver takes the lane from the spare it has locked on, or enters REALIGN. -/
def Dev.swapAtK (d : Dev) (p lane : Nat) : Dev :=
  let x := d.port p
  match x.rxSpare.find? (fun q => q.lane == lane) with
  | none => d
  | some q =>
    let d1 := d.setPort p { x with rxSpare := x.rxSpare.erase q }
    if q.locked then
      (d1.put (LINK_RXMAP_lane p) (swapLane (d.get (LINK_RXMAP_lane p)) q)).setRxStates p (swapStates (d.get (LINK_RXMAP_wstate p)) q)
    else d1.enterRealign p

def execSwapAtK (p : BitVec 7) (lane : BitVec 4) (s : State) : Host.Outcome State Fault Refusal :=
  s.onPort p (fun d => d.swapAtK p.toNat lane.toNat)

/-- SPARE_OLD_STOP: the transmitter stops the old wavelength, which is failed until the next TRAIN. -/
def Dev.spareStop (d : Dev) (p lane : Nat) : Dev :=
  let x := d.port p
  match x.txSpare.find? (fun q => q.lane == lane) with
  | none => d
  | some q =>
    ((d.setPort p { x with txSpare := x.txSpare.erase q }).put (LINK_TXMAP_lane p) (swapLane (d.get (LINK_TXMAP_lane p)) q)).setTxStates
      p (swapStates (d.get (LINK_TXMAP_wstate p)) q)

def execSpareOldStop (p : BitVec 7) (lane : BitVec 4) (s : State) : Host.Outcome State Fault Refusal :=
  s.onPort p (fun d => d.spareStop p.toNat lane.toNat)

/-- The lane a wavelength carries under a map. -/
def laneOfWave (lanes states w : Nat) : Option Nat :=
  if bits states (2 * w) 2 = 1 then (List.range 16).find? (fun l => bits lanes (5 * l) 5 == w) else none

/-- RING_LOCK_LOSS: the lane of the wavelength is spared; a ring that carries no lane is failed (R280, R295). -/
def Dev.ringLost (d : Dev) (p : Nat) (tx : Bool) (w cw : Nat) : Dev :=
  let lanes := d.get (if tx then LINK_TXMAP_lane p else LINK_RXMAP_lane p)
  let st := d.get (if tx then LINK_TXMAP_wstate p else LINK_RXMAP_wstate p)
  if 18 ≤ w then d
  else match laneOfWave lanes st w with
    | some l => d.spareLane p l tx cw
    | none => if tx then d.setTxStates p (setBits st (2 * w) 2 3) else d.setRxStates p (setBits st (2 * w) 2 3)

def execRingLockLoss (p : BitVec 7) (tx : Bool) (wl : BitVec 5) (cw : BitVec 32) (s : State) : Host.Outcome State Fault Refusal :=
  s.onPort p (fun d => d.ringLost p.toNat tx wl.toNat cw.toNat)

/-! State changes (R292, R294, R297, R299). -/

/-- A fresh link: sequence numbers, buffers and credits start over; totals of job flows start over with the flows' loads. -/
def Port.fresh (x : Port) : Port := { Port.reset with peerReady := x.peerReady, reloaded := x.reloaded }

/-- LINK_STATE_DONE: the work of LOCK, TRAIN, ALIGN, DISCOVER or REALIGN completes. -/
def Dev.linkDone (d : Dev) (p : Nat) (rings : BitVec 18) : Dev :=
  let x := d.port p
  let enough := decide (16 ≤ (lockedWaves rings).length)
  match d.linkState p with
  | 1 =>
    ((d.enterTrain p).put (LINK_TXMAP_lane p) (mapLanes rings)).setTxStates p (mapStates rings)
  | 2 =>
    if enough && x.peerReady == 0xFFFF then
      ((d.setLinkState p 3 0).put (LINK_RXMAP_lane p) (mapLanes rings)).setRxStates p (mapStates rings)
    else d
  | 3 => (d.setLinkState p 4 0).discoverSymbol p
  | 4 => if d.get (LINK_PEER_seen p) = 1 then (d.setPort p x.fresh).upOrFenced p else d
  | 7 => ((d.put (LINK_STATE_state p) x.before).updPort p (fun x => { x with framed := true })).resend p 0
  | _ => d

def execLinkStateDone (p : BitVec 7) (rings : BitVec 18) (s : State) : Host.Outcome State Fault Refusal :=
  s.onPort p (fun d => d.linkDone p.toNat rings)

/-- LINK_STATE_TIMEOUT: the limit of LOCK, TRAIN, ALIGN or DISCOVER leads to LOST, that of REALIGN to TRAIN; framing that the next ALIGN
codeword did not restore leads to REALIGN. -/
def Dev.linkTimeout (d : Dev) (p : Nat) : Dev :=
  match d.linkState p with
  | 1 => d.enterLost p
  | 2 => d.enterLost p
  | 3 => d.enterLost p
  | 4 => d.enterLost p
  | 5 => if (d.port p).framed then d else d.enterRealign p
  | 6 => if (d.port p).framed then d else d.enterRealign p
  | 7 => d.enterTrain p
  | _ => d

def execLinkStateTimeout (p : BitVec 7) (s : State) : Host.Outcome State Fault Refusal := s.onPort p (fun d => d.linkTimeout p.toNat)

/-- LOST_RETRY: a LOST port with light on enough laser inputs for its 16 lanes returns to LOCK. -/
def execLostRetry (p : BitVec 7) (s : State) : Host.Outcome State Fault Refusal :=
  s.onPort p (fun d =>
    let lit := ((List.range 18).filter (fun w => bit (d.get (OPT_LASER_STAT_ok (p.toNat / 12))) w)).length
    if d.linkState p.toNat = 8 ∧ 16 ≤ lit then d.setLinkState p.toNat 1 0 else d)

end Sys2Proof.Machine
end

