-- ==== Sys2Proof/Machine/Domain.lean ====
section
/-! DEFINITION. The switched power domains: numbers, states, holders, and changes of state (R119, R121, R406 to R411, R423). -/

namespace Sys2Proof.Machine

/-- The state of a domain: 0 ON, 1 CLOCK-GATED, 2 RETAIN, 3 OFF (R407). -/
def Dev.dom (d : Dev) (n : Nat) : Nat := d.get (PWR_DOM_state n)

/-- A domain takes a state; PWR_STOCK_ON follows a stock tier (R121). -/
def Dev.setDom (d : Dev) (n st : Nat) : Dev :=
  let d1 := d.put (PWR_DOM_state n) st
  let on := if st = 0 then 1 else 0
  if 16 ≤ n ∧ n < 48 then d1.put PWR_STOCK_ON_LO_on (setBits (d.get PWR_STOCK_ON_LO_on) (n - 16) 1 on)
  else if 48 ≤ n ∧ n < 80 then d1.put PWR_STOCK_ON_HI_on (setBits (d.get PWR_STOCK_ON_HI_on) (n - 48) 1 on)
  else d1

/-- The states that a domain supports (R408). -/
def domSupports (n st : Nat) : Bool :=
  if n < 88 ∨ (96 ≤ n ∧ n < 100) then decide (st < 4)
  else if n = 100 then st == 0
  else st == 0 || st == 3

/-- Whether a job uses a domain (R409). -/
def Dev.jobHolds (d : Dev) (id : BitVec 16) (j : Job) (n : Nat) : Bool :=
  if n < 16 then bit j.halls.toNat n
  else if n < 80 then bit j.tiers.toNat (n - 16)
  else if n < 88 then stackOf j.table == n - 80 || j.pages.any (fun p => p / d.usablePages == n - 80)
  else if n < 96 then j.flows.any (fun f => f.1 / 12 == n - 88)
  else if n < 100 then (List.range 4).any (fun s => match (Tab.get (fun _ => Slot.reset) d.slots (4 * (n - 96) + s)).use with
    | some (.loader i g) => i == id && g == j.gen
    | some (.orchestrator i g) => i == id && g == j.gen
    | some (.command c) => (d.cmd c).any (fun x => x.job == id)
    | none => false)
  else false

/-- The jobs that hold a domain. -/
def Dev.holdersOf (d : Dev) (n : Nat) : List (BitVec 16) := d.jobIds.filter (fun i => (d.job i).any (fun j => d.jobHolds i j n))

/-- Whether a domain is held: by a job, by a configured port, or by a slot that is bound (R409). -/
def Dev.domHeld (d : Dev) (n : Nat) : Bool :=
  !(d.holdersOf n).isEmpty
    || (decide (88 ≤ n ∧ n < 96) && (List.range 12).any (fun i => d.get (LINK_PORT_CFG_valid (12 * (n - 88) + i)) == 1))
    || (decide (96 ≤ n ∧ n < 100) && (List.range 4).any (fun s => (Tab.get (fun _ => Slot.reset) d.slots (4 * (n - 96) + s)).use.isSome))

/-- PWR_DOM.held and job as they read. -/
def Dev.showDomains (d : Dev) : Dev :=
  (List.range 102).foldl (fun d n =>
    (d.put (PWR_DOM_held n) (d.domHeld n).toNat).put (PWR_DOM_job n) ((((d.holdersOf n).head?).map BitVec.toNat).getD 0)) d

/-- The state changes of a domain that are not complete, the one under way first. -/
def Dev.movesOf (d : Dev) (n : Nat) : List (Nat × Option Nat) := Tab.get (fun _ => []) d.moves n

/-- The state a domain will be in when its changes are complete. -/
def Dev.domGoal (d : Dev) (n : Nat) : Nat := (((d.movesOf n).getLast?).map (·.1)).getD (d.dom n)

/-- A change of state joins those of its domain, in order (R410). -/
def Dev.addMove (d : Dev) (n st : Nat) (cmd : Option Nat) : Dev :=
  ({ d with moves := Tab.set (fun _ => []) d.moves n (d.movesOf n ++ [(st, cmd)]) }).put (PWR_DOM_busy n) 1

/-- A domain is to take a state.  Naeno wakes the hall of a stock tier that wakes from OFF first (R408). -/
def Dev.wantDomain (d : Dev) (n st : Nat) (cmd : Option Nat) : Dev :=
  let hall := (n - 16) / 4
  let d1 := if 16 ≤ n ∧ n < 80 ∧ st ≠ 3 ∧ d.domGoal n = 3 ∧ d.domGoal hall ≠ 0 then d.addMove hall 0 none else d
  if cmd.isNone ∧ d.domGoal n = st then d1 else d1.addMove n st cmd

/-- Naeno sets domains ON (R409). -/
def Dev.wake (d : Dev) (ns : List Nat) : Dev := ns.foldl (fun d n => d.wantDomain n 0 none) d

/-- Whether domains are ON with no change under way. -/
def Dev.allOn (d : Dev) (ns : List Nat) : Bool := ns.all (fun n => d.dom n == 0 && (d.movesOf n).isEmpty)

/-- The domains that a job holds. -/
def Dev.jobDomains (d : Dev) (id : BitVec 16) (j : Job) : List Nat := (List.range 102).filter (d.jobHolds id j)

/-- When no job exists, Naeno sets the idle states: stock tiers and HBM RETAIN, halls CLOCK-GATED (R423).  What is OFF stays OFF. -/
def Dev.idlePower (d : Dev) : Dev :=
  if d.jobIds.isEmpty = false then d
  else (List.range 88).foldl (fun d n => if d.domGoal n = 3 then d else d.wantDomain n (if n < 16 then 1 else 2) none) d

end Sys2Proof.Machine
end

