-- ==== Sys2Proof/Machine/Load.lean ====
section
/-! DEFINITION. Loading: what an image, a variant or an absence plan writes into the device (R51, R119, R127, R152, R158, R186, R188, R194,
R256, R259, R391), and the selection of a variant (R187). -/

namespace Sys2Proof.Machine

/-- Writes a whole register of a core's window. -/
def Core.putReg (k : Core) (a v : Nat) : Core := { k with win := Tab.set winReset k.win a v }

/-- A generation of the image as stored: the job's base is added (R391). -/
def genOf (v b : Nat) : Nat := setBits v 24 8 (bits v 24 8 + b)

/-- The value of a ledger term for the sizes of a launch (R194). -/
def termValue (t : BitVec 128) (dyn : Tab (BitVec 16)) : Nat :=
  let part := fun (k n q : Nat) => if n = 0 then 0 else k * cdiv (Tab.get (fun _ => 0) dyn n).toNat q
  let v := t.toNat
  bits v 0 32 + part (bits v 32 16) (bits v 48 3) (bits v 51 13) + part (bits v 64 16) (bits v 80 3) (bits v 83 13)

/-- The booking table of a core for the sizes of a launch (R194, R196). -/
def Core.book (k : Core) (books : List BookEntry) : Core :=
  (List.range 256).foldl (fun k n =>
    k.putReg (0x1000 + n * 8) (match books[n]? with
      | some b => setBits b.attr.toNat 24 32 (termValue b.term k.dyn)
      | none => 0)) k

/-- Bytes of IM that words make. -/
def wordBytes (ws : List (BitVec 32)) : List Byte := ws.flatMap (fun w => toBytes 4 w.toNat)

/-- The bits of a tier mask that belong to a hall (R119). -/
def hallTiers (tiers : BitVec 64) (h : Nat) : Nat := bits tiers.toNat (4 * h) 4

/-- Loads one core: IM, descriptor block, endpoint and tally entries, booking table and tier mask (R51, R119, R127, R194). -/
def Dev.loadCore (d : Dev) (id : BitVec 16) (gen : BitVec 8) (b : Nat) (tiers : BitVec 64) (x : CoreLoad) : Dev :=
  let k := d.core x.core
  let entry := fun (l : List Nat) (k : Core) (a : Nat) (n : Nat) (w : Nat) => k.putReg a (genOf ((l[n]?).getD 0) b % 2 ^ w)
  let eps := x.eps.map BitVec.toNat
  let k1 := (List.range 32).foldl (fun k n => if n < eps.length then entry eps k (0x100 + n * 16) n 128 else k.putReg (0x100 + n * 16) 0) k
  let tqs := x.tqs.map BitVec.toNat
  let k2 := (List.range 8).foldl (fun k q =>
    if q < tqs.length then (k.putReg (0x300 + q * 96) (tqs.getD q 0)).put (CORE_TQ_gen q) ((bits (tqs.getD q 0) ((CORE_TQ_gen q).lo) 8 + b) % 256)
    else k.putReg (0x300 + q * 96) 0) k1
  let k3 := { k2 with
    mem := Memory.writeBytes (Memory.zero k2.mem 0xC0000 0x4000) 0xC0000 (wordBytes (x.im.take 4096)),
    poison := Tab.clear k2.poison (0xC0000 / 64) 256,
    job := id, jgen := gen,
    image := ⟨true, BitVec.ofNat 16 (x.slot.toNat * 256 + x.stage.toNat), Tab.setAll (fun _ => 0) [] 0 (x.desc.take 16),
      Tab.setAll (fun _ => 0) [] 0 ((List.range 32).map (k1.get ∘ CORE_EP_slot)),
      Tab.setAll (fun _ => 0) [] 0 ((List.range 8).map (k2.get ∘ CORE_TQ_slot))⟩ }
  d.setCore x.core ((k3.put CORE_TIER_MASK_mask (hallTiers tiers (d.hallOf x.core.x.toNat x.core.y.toNat))).book x.books)

/-- Both route banks of a router (R152). -/
def Dev.loadRoutes (d : Dev) (id : BitVec 16) (gen : BitVec 8) (x : RouteLoad) : Dev :=
  let bank := fun (t : Tab Nat) (n : Nat) (ws : List (BitVec 32)) =>
    Tab.setAll (fun _ => idleWord) (Tab.clear t (schedKey x.router n 0) 4096) (schedKey x.router n 0) ((ws.take 4096).map BitVec.toNat)
  { d with sched := bank (bank d.sched 0 x.bankA) 1 x.bankB,
           schedEmpty := Tab.set (fun _ => false) d.schedEmpty x.router.key false,
           schedFill := Tab.set (fun _ => 0) d.schedFill x.router.key 0,
           routers := Tab.set (fun _ => RouterRun.reset) d.routers x.router.key { d.router x.router with on := false, job := id, jgen := gen } }

/-- The bytes of a lane plan (R212). -/
def Dev.loadPlanBytes (d : Dev) (l : List LaneByte) : Dev :=
  { d with lanePlan := l.foldl (fun t b => Tab.set (fun _ => 0) t (planKey b.stack.toNat b.x.toNat b.page.toNat b.slot.toNat) b.byte.toNat) d.lanePlan }

/-- A flow table entry; the relay's run state of the flow starts anew, and gone clears (R256, R259, R260, R305). -/
def Dev.loadFlow (d : Dev) (b : Nat) (x : FlowLoad) : Dev :=
  let p := x.port.toNat
  let n := x.flow.toNat
  let r := d.relay p
  let d1 := (d.setReg (LINK_FLOW_valid p n).key (genOf x.entry.toNat b)).put (LINK_FLOW_gone p n) 0
  let d2 := d1.updPort p (fun q => { q with reloaded := true })
  if n < 64 then
    d2.setRelay p { r with part := Tab.set (fun _ => []) r.part n [], queue := Tab.set (fun _ => []) r.queue n [],
                           sending := Tab.set (fun _ => []) r.sending n [], last := Tab.set (fun _ => 0) r.last n 0,
                           peerDepth := Tab.set (fun _ => 0) r.peerDepth n x.peerDepth.toNat }
  else
    d2.setRelay p { r with ready := Tab.set (fun _ => []) r.ready (n - 64) [], closed := Tab.set (fun _ => false) r.closed (n - 64) false,
                           peerGone := Tab.set (fun _ => false) r.peerGone (n - 64) false,
                           returned := Tab.set (fun _ => 0) r.returned (n - 64) 0 }

/-- The epoch table of the epoch owner (R158). -/
def Dev.loadEpochs (d : Dev) (es : List (BitVec 64)) : Dev :=
  (List.range 8).foldl (fun d n => d.setReg (MESH_EPOCH_votes n).key (((es[n]?).getD 0).toNat))
    (d.put MESH_EPOCH_CTL_entries (es.length - 1))

/-- Takes a job's cores out of it. -/
def Dev.unbindCores (d : Dev) (id : BitVec 16) : Dev :=
  (d.jobCores id).foldl (fun d c => d.upd c (fun k => { k with image := CoreImage.none, job := 0, jgen := 0 })) d

/-- WARD_BUCKET_STAT for a variant of an image (R187). -/
def Dev.showVariant (d : Dev) (im : Image) (v : Nat) : Dev :=
  let idx := ((im.vars[v]?).getD []).zipIdx.foldl (fun n p => n + p.1.toNat * 2 ^ (3 * p.2)) 0
  (d.put WARD_BUCKET_STAT_variant v).put WARD_BUCKET_STAT_idx idx

/-- Loads a set for a job: everything the Warden loads per core and per device (R186, R188). -/
def Dev.loadSet (d : Dev) (id : BitVec 16) (j : Job) (im : Image) (s : LoadSet) : Dev :=
  let d1 := s.cores.foldl (fun d x => d.loadCore id j.gen j.loads im.tiers x) (d.unbindCores id)
  let d2 := (s.routes.foldl (fun d x => d.loadRoutes id j.gen x) d1).loadPlanBytes s.lanePlan
  let d3 := if d.ownsEpoch id j.gen then d2.loadEpochs s.epochs else d2
  let d4 := s.ports.foldl (fun d p => d.setReg (LINK_PORT_CFG_valid p.1.toNat).key p.2.toNat) d3
  let d5 := s.flows.foldl (fun d x => d.loadFlow j.loads x) d4
  (d5.setReg WARD_STEP_CFG_span.key s.stepCfg.toNat).showVariant im s.variant.toNat

/-! Buckets and variants (R186, R187). -/

/-- The selection for one dimension: the bucket wanted, or why the launch fails. -/
inductive Bucket where
  | want (i : Nat)
  | badParam
  | exceeds
deriving DecidableEq, Repr

/-- The sizes of dimension `n` (from 1) of an image. -/
def sizesOf (im : Image) (n : Nat) : List Nat := (((im.buckets[n - 1]?).getD []).takeWhile (· ≠ 0)).map BitVec.toNat

/-- Selects the bucket of one dimension. -/
def bucketFor (im : Image) (n actual : Nat) : Bucket :=
  match sizesOf im n with
  | [] => if actual = 0 then .want 0 else .badParam
  | l => match (List.range l.length).find? (fun i => decide (actual ≤ l.getD i 0)) with
    | some i => .want i
    | none => .exceeds

/-- The variants that an image without a bucket list has: one, with index 0 in every dimension. -/
def variantsOf (im : Image) : List (List Nat) := if im.vars.isEmpty then [[]] else im.vars.map (fun v => v.map BitVec.toNat)

/-- The lowest variant that is large enough in every dimension (R187). -/
def chooseVariant (im : Image) (want : List Nat) : Option Nat :=
  (List.range (variantsOf im).length).find? (fun v =>
    (List.range 7).all (fun n => decide (want.getD n 0 ≤ (((variantsOf im)[v]?).getD []).getD n 0)))

/-- The selection at a launch, by rising dimension: status, detail (with the offset of CSR_DYN1 in the command), or the variant. -/
def selectVariant (im : Image) (dyn : List Nat) (offset : Nat) : (Nat × Nat) ⊕ Nat :=
  let bs : List Bucket := (List.range 7).map (fun i => bucketFor im (i + 1) (dyn.getD i 0))
  match (List.range 7).findSome? (fun i => match bs.getD i (.want 0) with
    | .badParam => some (3, offset + 2 * i)
    | .exceeds => some (6, dyn.getD i 0 + (i + 1) * 2 ^ 16)
    | .want _ => none) with
  | some e => .inl e
  | none =>
    let want := bs.map (fun b => match b with | .want i => i | _ => 0)
    match chooseVariant im want with
    | some v => .inr v
    | none => .inl (6, 0)

end Sys2Proof.Machine
end

