-- ==== Sys2Proof/Machine/Steps.lean ====
section
/-! DEFINITION. The step gate, the start of a step, its receipt, its resolution after a reset, and the rejoin (R65, R109, R188, R201,
R251 to R254, R272 to R276, R303 to R305, R382 to R384). -/

namespace Sys2Proof.Machine

/-! Conditions of the gate (R188, R251, R272, R337). -/

/-- The plan that a step of a job runs under: a loaded plan from its effective step on (R273, R336). -/
def Job.planFor (j : Job) (step : BitVec 32) : Nat :=
  match j.nextPlan with
  | some (p, e) => if e.toNat ≤ step.toNat then p else j.plan
  | none => j.plan

/-- The plan for an absent position: d = (own position − a) mod N (R273). -/
def Dev.absencePlan (d : Dev) : Nat :=
  let n := d.get WARD_ROSTER_n
  (d.get WARD_ROSTER_pos + n - d.get WARD_ROSTER_absent) % n

/-- Whether a launch of a step must be refused until the absence plan is loaded, or the device's own replica is absent (R272). -/
def Dev.planMissing (d : Dev) (j : Job) (step : BitVec 32) : Bool :=
  d.get WARD_ROSTER_absent_valid == 1 && decide (d.get WARD_ROSTER_eff_step ≤ step.toNat) &&
    (match j.rejoin with | some r => decide (step.toNat < r.toNat) | none => true) &&
    (d.get WARD_ROSTER_absent == d.get WARD_ROSTER_pos || j.planFor step != d.absencePlan)

/-- Whether every core of a job has retired HALT or is in RESET (R251, R380). -/
def Dev.allHalted (d : Dev) (id : BitVec 16) : Bool := (d.jobCores id).all (fun c => !(d.core c).counts)

/-- Whether the errand network holds a packet of a job (R251). -/
def Dev.inFlight (d : Dev) (id : BitVec 16) (gen : BitVec 8) : Bool := d.flight.any (fun p => p.job == id && p.jgen == gen)

/-- Turns per step: values above 8 act as 8 (R251, WARD_STEP_CFG). -/
def Dev.turnsPerStep (d : Dev) : Nat := min (d.get WARD_STEP_CFG_tps) 8

/-- Whether the turns of the running step have occurred (R251). -/
def Dev.turnsDone (d : Dev) (j : Job) : Bool :=
  d.turnsPerStep == 0 || j.fresh || decide (d.turnsPerStep ≤ (d.get MESH_SLOT_epoch + 65536 - j.turns) % 65536)

/-- Whether the variant and plan of a launch run already (R188). -/
def Job.loaded (j : Job) (l : Launch) : Bool := l.variant == j.variant && j.planFor l.step == j.plan

/-- WARD_STEP_GATE as it reads: drained, turn_wait and variant_wait follow the state (R251). -/
def Dev.showGate (d : Dev) : Dev :=
  match d.job d.gateJob with
  | none => ((d.put WARD_STEP_GATE_drained 0).put WARD_STEP_GATE_turn_wait 0).put WARD_STEP_GATE_variant_wait 0
  | some j =>
    let wait := fun (b : Launch → Bool) => match j.launch with | some l => (b l).toNat | none => 0
    ((d.put WARD_STEP_GATE_drained (!(d.inFlight d.gateJob j.gen)).toNat).put WARD_STEP_GATE_turn_wait
      (wait (fun _ => !(d.turnsDone j)))).put WARD_STEP_GATE_variant_wait (wait (fun l => !(j.loaded l)))

/-- Whether the gate lets a launch start: conditions 1 to 5 of R251, no checkpoint or rejoin pause, no absence plan missing, and the bell has
not frozen the job, its domains ON (R409), no remap under way (R400), and no step to resolve (R384). -/
def Dev.gateOpen (d : Dev) (id : BitVec 16) (j : Job) (l : Launch) : Bool :=
  j.phase == .live && !j.wasReset && d.allHalted id && !(d.inFlight id j.gen) && d.turnsDone j && j.loaded l && !j.shut && !j.pause && !j.frozen
    && !(d.planMissing j l.step) && d.allOn (d.jobDomains id j) && !(d.remaps.any (fun r => (d.core r.core).job == id))

/-! The start of a core (R51, R65, R252). -/

/-- The LFSR seed of a core (R65). -/
def coreSeed (seed step : BitVec 32) (c : CoreId) : BitVec 32 :=
  let s := seed ^^^ (step * 0x9E3779B9) ^^^ (BitVec.ofNat 32 c.key * 0x85EBCA6B)
  if s = 0 then 1 else s

/-- The endpoints at a step start. -/
def Core.startEps (k : Core) (base : Nat) : Core :=
  (List.range 32).foldl (fun k n =>
    if k.get (CORE_EP_valid n) = 0 then k
    else
      let k1 := (k.put (CORE_EP_slot n) ((Tab.get (fun _ => 0) k.image.epSlots n + base) % 256)).setEpRun n EpRun.zero
      if k.get (CORE_EP_dir n) = 0 then ((k1.put (CORE_EP_credits n) (k.get (CORE_EP_depth n))).put (CORE_EP_gone n) 0).put (CORE_EP_rx_gone n) 0
      else (k1.put (CORE_EP_held n) 0).put (CORE_EP_closed n) 0) k

/-- The tally queues at a step start: accumulators and folded stay. -/
def Core.startTqs (k : Core) (base : Nat) : Core :=
  (List.range 8).foldl (fun k q =>
    if k.get (CORE_TQ_valid q) = 0 then k
    else ((((k.put (CORE_TQ_slot q) ((Tab.get (fun _ => 0) k.image.tqSlots q + base) % 256)).put (CORE_TQ_count q) 0).put
      (CORE_TQ_armed q) 0).put (CORE_TQ_closed q) 0).setTqRun q { TqRun.zero with poison := (k.tqRun q).poison }) k

/-- The IM bytes of a core's memory, and nothing else. -/
def onlyIm (m : Memory) : Memory := m.filter (fun p => decide (0xC0000 ≤ p.1) && decide (p.1 < 0xC4000))

/-- What a core takes at a step start.  The first step of a job finds memories and counters zero (R51, R123), and a core that was reset finds its
counters zero (R380). -/
def Core.start (k : Core) (c : CoreId) (seed step : BitVec 32) (dyn : List (BitVec 16)) (first : Bool) (base : Nat) : Core :=
  let a := k.acct
  let zero := first || k.run == .reset
  let k1 := { k with
    g := [], d := k.image.desc, pc := 0, run := .run, wait := none, gReady := [], dReady := [],
    c := if zero then [] else k.c, cPoison := if zero then [] else k.cPoison, cSrc := if zero then [] else k.cSrc,
    mem := if first then onlyIm k.mem else k.mem, poison := if first then [] else k.poison,
    cycle := if first then 0 else k.cycle, instret := if first then 0 else k.instret,
    step := step, dyn := Tab.setAll (fun _ => 0) [] 1 dyn, lfsr := coreSeed seed step c, fflags := 0, frm := 0,
    rank := BitVec.ofNat 16 ((k.image.rank.toNat / 256 + base) % 256 * 256 + k.image.rank.toNat % 256),
    acct := { Acct.zero with openWin := true, idle := a.outside }, stepIdle := [],
    began := if first then 0 else k.cycle.toNat }
  (k1.startEps base).startTqs base

/-! The assay (R303). -/

/-- The assay of a step: SHA-256 of 56 bytes. -/
def Dev.assayOf (d : Dev) (j : Job) (variant : Nat) (absent : Nat) : List Byte :=
  sha256 ([0x45, 0x46, 0x5A, 0x41, 0x53, 0x53, 0x41, 0x59] ++ toBytes 32 j.digest.toNat ++ toBytes 8 d.firmware.toNat
    ++ toBytes 4 j.seed.toNat ++ toBytes 1 variant ++ toBytes 1 absent ++ [0, 0])

/-- LINK_ASSAY moves to LINK_ASSAY_PREV, and the assay of the step that starts is in LINK_ASSAY. -/
def Dev.setAssay (d : Dev) (bs : List Byte) : Dev :=
  (List.range 8).foldl (fun d i =>
    (d.put (LINK_ASSAY_PREV_bytes i) (d.get (LINK_ASSAY_bytes i))).put (LINK_ASSAY_bytes i) (ofBytes ((bs.drop (4 * i)).take 4))) d

/-- A set that a port holds is compared when its step is reached (R305), and the port sends its assay (R304). -/
def Dev.startPort (d : Dev) (p : Nat) : Dev :=
  let d1 := if d.get (LINK_ASSAY_ST_held p) = 1 ∧ d.get (LINK_ASSAY_ST_tag p) = d.get WARD_STEP_NOW_step % 64 then d.assayCompare p else d
  d1.sendAssay p

/-! Flows, routers and receipts at a step start. -/

/-- The flows of a job at a step start: credits, slots, and flows closed until now open (R259 to R261). -/
def Dev.startFlow (d : Dev) (base : Nat) (f : Nat × Nat) : Dev :=
  let (p, n) := f
  let r := d.relay p
  if n < 64 then d.put (LINK_FLOW_credits p n) (Tab.get (fun _ => 0) r.peerDepth n)
  else
    ((d.put (LINK_FLOW_credits p n) (d.get (LINK_FLOW_depth p n))).put (LINK_FLOW_slot p n) ((d.get (LINK_FLOW_islot p n) + base) % 256)).setRelay
      p { r with closed := Tab.set (fun _ => false) r.closed (n - 64) false }

/-- Bank A of the job's routers starts with entry 0 of the epoch table in ck `ck` (R153). -/
def Dev.startRouters (d : Dev) (j : Job) (id : BitVec 16) (s : LoadSet) (ck : Nat) : Dev :=
  let period := bits ((s.epochs[0]?).getD 0).toNat 32 12 + 1
  let d1 := { d with routers := s.routes.foldl (fun t x => Tab.set (fun _ => RouterRun.reset) t x.router.key ⟨true, id, j.gen, 0, ck, period, 0⟩)
                                  d.routers }
  if d.ownsEpoch id j.gen then
    let d2 := ((d1.put MESH_SLOT_slot 0).put MESH_SLOT_bank 0).put MESH_EPOCH_CTL_next (if s.epochs.length ≤ 1 then 0 else 1)
    { d2 with turn := none, doneTurn := none }
  else d1

/-- The largest of a list of numbers. -/
def maxOf (l : List Nat) : Nat := l.foldl max 0

/-- The fields of the receipt of the step that ends: everything but the Clerk counts, the roster and the CRC (R276).  census_min, census_max
and finals count releases that no rule tells the device to know as final, and are free values (log 15). -/
def Dev.receiptBytes (d : Dev) (id : BitVec 16) (j : Job) (rejoined : Bool) (free : Nat) : List Byte :=
  let ks := (d.jobCores id).map d.core
  let n := d.counts
  let drops := n.drops + n.absorbed
  let share := fun (k : Core) (c : Nat) => (k.acct.shares.filter (fun p => p.1 == c)).foldl (fun s p => s + p.2) 0
  let flags := [n.deadlineRel != 0, n.folds != 0, n.drops != 0, n.nulls != 0, n.absorbed != 0, n.poison]
  let skip := d.verdictOf j.step == 2 || j.lost.contains j.step
  let all := [!(flags.any (fun b => b))] ++ flags ++ [j.plan != 0, skip, n.recovery, rejoined]
  let flagBits := all.zipIdx.foldl (fun v p => v + p.1.toNat * 2 ^ p.2) 0
  [0x52, 0x43, 0x50, 0x54] ++ toBytes 2 1 ++ toBytes 2 flagBits ++ toBytes 4 j.step.toNat ++ toBytes 4 d.devnum.toNat
    ++ toBytes 2 id.toNat ++ toBytes 1 j.gen.toNat ++ toBytes 1 j.variant ++ toBytes 1 j.plan ++ toBytes 1 (d.get WARD_ROSTER_n)
    ++ toBytes 1 (d.get WARD_ROSTER_pos)
    ++ toBytes 1 (if d.get WARD_ROSTER_absent_valid = 1 then d.get WARD_ROSTER_absent else 0xFF)
    ++ toBytes 8 (maxOf (ks.map (fun k => k.cycle.toNat - k.began)))
    ++ toBytes 8 free
    ++ toBytes 4 n.deadlineRel ++ toBytes 4 n.folds ++ toBytes 4 drops ++ toBytes 4 n.nulls ++ toBytes 4 n.stale ++ toBytes 4 0
    ++ toBytes 12 0 ++ toBytes 2 n.spotFails ++ toBytes 2 n.stepLost
    ++ (List.range 12).flatMap (fun c => toBytes 4 (maxOf (ks.map (share · (c + 1)))))
    ++ (List.range 12).flatMap (fun c => toBytes 8 ((ks.map (share · (c + 1))).foldl (· + ·) 0))
    ++ (List.range 8).flatMap (fun c => toBytes 4 (maxOf (ks.map (fun k => Tab.get (fun _ => 0) k.stepIdle (c + 1)))))

/-- The receipt of the step that ends waits to be written, if one ran and receipts are written (R275); with receipts off the roster takes the
step's late members at once (R271; log 62). -/
def Dev.endStep (d : Dev) (id : BitVec 16) (j : Job) : Dev :=
  let d1 := if j.running ∧ d.get WARD_RCPT_CFG_en = 1 then
      let (v, d') := d.free
      let fences := (j.set.map (fun s => s.fences.map (fun f => (f.1.toNat, f.2.toNat)))).getD []
      { d' with receipts := d'.receipts ++ [⟨id, j.gen, j.step, fences, d.lateNow,
          BitVec.ofNat 4096 (ofBytes (d.receiptBytes id j (j.rejoin == some j.step) (v % 2 ^ 64)))⟩] }
    else if j.running then d.rosterStep d.lateNow
    else d
  { d1 with counts := StepCounts.zero, lateNow := [] }

/-! STEP_START. -/

/-- Before the first step of a job every fence entry of its context, in every stack, holds the step before it (R238). -/
def Dev.loadFences (d : Dev) (ctx : Nat) (step : BitVec 32) : Dev :=
  { d with fences := (List.range 8).foldl (fun t k => Tab.fill (fun _ => 0) t (fenceKey k ctx 0) 4096 ((step - 1).toNat % 2 ^ 16)) d.fences }

/-- The roster and the plan of a step that starts: at the rejoin step the absent member is PRESENT again (R271, R274). -/
def Dev.startRoster (d : Dev) (j : Job) (step : BitVec 32) : Dev :=
  if j.rejoin = some step ∧ j.plan = 0 then (d.setMember (d.get WARD_ROSTER_absent) 0).put WARD_ROSTER_absent_valid 0 else d

/-- A core whose matrix engine is faulty, in an arcade that cannot recover it, makes the step lost (R109). -/
def Dev.faultyEngine (d : Dev) (c : CoreId) : Dev :=
  let k := d.core c
  if k.meFaulty && !k.recovery then d.raise 0x0032 (k.errAt c 0) else d

/-- What the Warden keeps of the job when a step starts. -/
def Job.started (j : Job) (l : Launch) (epoch : Nat) : Job :=
  { j with step := l.step, running := true, fresh := false, turns := epoch, launch := none, starts := j.starts + 1, wasReset := false,
           firstFault := none }

/-- The start of a step on the cores, routers, flows and ports of a job. -/
def Dev.startStep (d : Dev) (id : BitVec 16) (j : Job) (l : Launch) (s : LoadSet) (ck : Nat) : Dev :=
  let base := l.step.toNat * d.get WARD_STEP_CFG_span % 256
  let d0 := ({ d with ck := max d.ck ck }).chargeIdle id
  let d1 := d0.endStep id j
  let bank := l.first || j.fresh
  let d2 := if bank then d1.startRouters j id s ck else d1
  let d2 := if l.first && d.ownsEpoch id j.gen then (d2.put MESH_SLOT_epoch 0).put MESH_VOTES_votes 0 else d2
  let d2 := if l.first then d2.loadFences (j.ctx.getD 0) l.step else d2
  let books := fun (c : CoreId) => ((s.cores.find? (fun x => x.core == c)).map (fun x => x.books)).getD []
  let d3 := (d2.jobCores id).foldl (fun d c => d.upd c (fun k => (k.start c j.seed l.step l.dyn l.first base).book (books c))) d2
  let d4 := (((d3.put WARD_STEP_NOW_step l.step.toNat).put WARD_STEP_GATE_running (d3.jobCores id).length).put WARD_STEP_GATE_pending 0)
  let d5 := d4.setJob id (some { j.started l (d4.get MESH_SLOT_epoch) with
    nextPlan := if j.planFor l.step = j.plan ∧ (j.nextPlan.any (fun p => decide (p.2.toNat ≤ l.step.toNat))) then none else j.nextPlan })
  let d6 := (j.flows.foldl (fun (d : Dev) f => d.startFlow base f) { d5 with gateJob := id }).startRoster j l.step
  let absent := if d6.get WARD_ROSTER_absent_valid = 1 ∧ d6.get WARD_ROSTER_eff_step ≤ l.step.toNat then d6.get WARD_ROSTER_absent else 0xFF
  let d7 := { d6.setAssay (d6.assayOf j l.variant absent) with assaySteps := if l.first then 1 else d6.assaySteps + 1 }
  (d7.jobCores id).foldl Dev.faultyEngine ((List.range 96).foldl Dev.startPort d7)

/-- STEP_START: when the gate is open the step starts and the launch command is replied with the variant (R251, R337). -/
def Dev.stepStart (d : Dev) (id : BitVec 16) (ck : Nat) : Dev :=
  match d.job id with
  | none => d
  | some j =>
    match j.launch, j.set with
    | some l, some s =>
      if d.gateOpen id j l then
        let d1 := d.startStep id j l s ck
        match d1.cmd l.cmd with
        | some c => d1.reply c 0 0 l.variant
        | none => d1
      else d
    | _, _ => d

def execStepStart (job : BitVec 16) (ck : Nat) (s : State) : Host.Outcome State Fault Refusal :=
  s.onDev (fun d => d.stepStart job ck)

/-! VARIANT_LOAD (R188, R273). -/

/-- Whether a Porter or a Clerk still works for a job. -/
def Dev.transferring (d : Dev) (id : BitVec 16) : Bool :=
  (List.range 32).any (fun n => (d.porter n).transfers.any (fun t => t.pkt.job == id))
    || (List.range 16).any (fun k => (d.clerk k).queue.any (fun p => p.job == id))

/-- The set of a variant and plan is loaded once the job has drained; the start that follows is in bank A and waits for no turn. -/
def Dev.variantLoad (d : Dev) (id : BitVec 16) : Dev :=
  match d.job id with
  | none => d
  | some j =>
    match j.launch, j.image with
    | some l, some im =>
      if j.loaded l || j.wasReset || !(d.allHalted id) || d.transferring id then d
      else
        match im.sets.find? (fun s => s.variant.toNat == l.variant && s.plan.toNat == j.planFor l.step) with
        | none => d
        | some s =>
          let j1 := { j with variant := l.variant, plan := j.planFor l.step, fresh := true }
          ((d.chargeIdle id).loadSet id j1 im s).setJob id (some j1)
    | _, _ => d

def execVariantLoad (job : BitVec 16) (s : State) : Host.Outcome State Fault Refusal := s.onDev (fun d => d.variantLoad job)

/-! Fault reports and resolution (R49, R382 to R384). -/

/-- CORE_FAULT_REPORT: the report of a faulted core is recorded, and under auto = 1 the core is reset, which a record tells too (log 60); any
other report is only taken. -/
def Dev.faultReport (d : Dev) (p : Packet) : Dev :=
  let d1 := d.eject p
  let c : CoreId := ⟨p.srcX, p.srcY⟩
  let k := d1.core c
  if d1.logical c = false ∨ k.run ≠ .faulted then d1
  else
    let d2 := d1.raise 0x0030 (k.errAt c k.fault.info.toNat)
    let d3 := d2.updJob k.job (fun j => { j with firstFault := match j.firstFault with
      | some f => some f
      | none => some (c, k.fault.code.toNat) })
    if d.get WARD_RESET_CFG_auto = 1 then ((d3.stopCore c).updJob k.job (fun j => { j with wasReset := true })).raise 0x0031 (k.errAt c 0)
    else d3

def execCoreFaultReport (p : Packet) (s : State) : Host.Outcome State Fault Refusal :=
  s.onDev (fun d => if p.type = 7 then d.faultReport p else d)

/-- A fence that a step's image declares and that has not posted is posted, writing nothing (R384). -/
def Dev.forceFence (d : Dev) (ctx : Nat) (step : BitVec 32) (f : Nat × Nat) : Dev :=
  if (d.fenceSeen f.1 ctx f.2 + 65536 - step.toNat % 65536) % 65536 < 32768 then d
  else { d with posts := d.posts ++ [⟨f.1, ctx, BitVec.ofNat 12 f.2, step.truncate 16⟩] }

/-- The next turn of a lost step is forced: T_turn is turn_lead after the ck of the forcing (R384). -/
def Dev.forceTurn (d : Dev) : Dev :=
  match d.turn with
  | some _ => d
  | none =>
    let n := d.get MESH_EPOCH_CTL_next
    { d with turn := some ⟨d.ck + d.get (MESH_EPOCH_turn_lead n), n, (d.get MESH_SLOT_epoch + 1) % 65536, [], [], false⟩ }

/-- The fences that a job's running image declares. -/
def Job.fences (j : Job) : List (Nat × Nat) := (j.set.map (fun s => s.fences.map (fun f => (f.1.toNat, f.2.toNat)))).getD []

/-- The reply to a launch that is withdrawn: RANK_FAULT with the core's x and y, or HW_ERROR with the error code logged. -/
def Job.lostReply (j : Job) : Nat × Nat :=
  match j.firstFault with
  | some (c, 6) => (0xD, c.x.toNat + 256 * c.y.toNat)
  | some _ => (0xC, 0x0030)
  | none => (0xC, 0x0031)

/-- STEP_RESOLVE: the steps of R384 in order; a step that must wait leaves the rest to the next STEP_RESOLVE. -/
def Dev.stepResolve (d : Dev) (id : BitVec 16) : Dev :=
  match d.job id with
  | none => d
  | some j =>
    if j.wasReset = false ∨ (d.jobCores id).any (fun c => (d.core c).run == .faulted) = true then d
    else
      let d1 := ((d.jobCores id).filter (fun c => (d.core c).counts)).foldl Dev.stopCore d
      if (List.range 16).any (fun k => (d1.clerk k).queue.any (fun p => p.job == id)) then d1
      else
        let d2 := j.fences.foldl (fun d f => d.forceFence (j.ctx.getD 0) j.step f) d1
        if !(d2.turnsDone j) && d2.ownsEpoch id j.gen then d2.forceTurn
        else
          let d3 := match j.launch.bind (fun l => d2.cmd l.cmd) with
            | some c => (d2.reply c j.lostReply.1 j.lostReply.2 0).put WARD_STEP_GATE_pending 0
            | none => d2
          d3.updJob id (fun j => { j with launch := none, wasReset := false })

def execStepResolve (job : BitVec 16) (s : State) : Host.Outcome State Fault Refusal := s.onDev (fun d => d.stepResolve job)

/-! The receipt (R271, R275, R276). -/

/-- Whether a fence of a step has posted. -/
def Dev.posted (d : Dev) (ctx : Nat) (step : BitVec 32) (f : Nat × Nat) : Bool :=
  decide ((d.fenceSeen f.1 ctx f.2 + 65536 - step.toNat % 65536) % 65536 < 32768)

/-- The bytes of a receipt with the Clerk counts of its step's UPDATEs, the roster and the CRC. -/
def Dev.receiptFull (d : Dev) (j : Job) (r : Receipt) : List Byte :=
  let u := (j.updates.find? (fun u => u.1 == r.step)).getD (r.step, 0, 0, 0)
  let b := toBytes 512 r.bytes.toNat
  let body := b.take 0x40 ++ toBytes 4 (sat 32 u.2.1) ++ toBytes 4 (sat 32 u.2.2.1) ++ toBytes 4 (sat 32 u.2.2.2)
    ++ (b.drop 0x4C).take (0x100 - 0x4C) ++ toBytes 8 d.rosterBits ++ List.replicate (0x1FC - 0x108) 0
  body ++ toBytes 4 (crc32c body)

/-- STEP_RECEIPT: the oldest receipt of a job is written into its ring when the fences that its step declares have posted. -/
def Dev.stepReceipt (d : Dev) (id : BitVec 16) : Dev :=
  match d.job id, d.receipts.find? (fun r => r.job == id) with
  | some j, some r =>
    if r.jgen ≠ j.gen ∨ r.fences.all (d.posted (j.ctx.getD 0) r.step) = false then d
    else
      let d1 := ({ d with receipts := d.receipts.erase r }).rosterStep r.late
      let n := d1.get WARD_RCPT_HEAD_count
      let va := d1.get WARD_RCPT_BASE_va * 512 + n % 2 ^ d1.get WARD_RCPT_CFG_log2n * 512
      ((d1.virtWrite j.table va (d1.receiptFull j r)).put WARD_RCPT_HEAD_count ((n + 1) % 2 ^ 32)).updJob id (fun j =>
        { j with updates := j.updates.filter (fun u => u.1 != r.step) })
  | _, _ => d

def execStepReceipt (job : BitVec 16) (s : State) : Host.Outcome State Fault Refusal := s.onDev (fun d => d.stepReceipt job)

/-! The rejoin pause (R274, R368). -/

/-- The rows of a buffer in HBM. -/
def Dev.hbmRows (d : Dev) (addr n : Nat) : List RowData := (List.range n).map (fun i => d.line (addr + 64 * i))

/-- The orchestrator posts a descriptor of the state copy on VL3 flow 0. -/
def Dev.postState (d : Dev) (x : StateRows) : Dev := d.sendService x.port.toNat 3 0 (d.hbmRows x.addr.toNat x.rows.toNat)

/-- The rows of the oldest state message of a port are written into a buffer. -/
def Dev.takeState (d : Dev) (x : StateRows) : Dev :=
  match d.svc.find? (fun m => m.lane == 3 && m.flow == 0 && m.port == x.port.toNat) with
  | none => d
  | some m =>
    (m.rows.take x.rows.toNat).zipIdx.foldl (fun d p => d.setLine (x.addr.toNat + 64 * p.2) p.1 m.poison) { d with svc := d.svc.erase m }

/-- REJOIN_PAUSE: once the fences of step R − 1 have posted, the job pauses; the neighbours send their state, and the rejoining device, which is
itself the absent one, writes it and sends ACCEPT with step R (R274, R368). -/
def Dev.rejoinPause (d : Dev) (id : BitVec 16) (sends into : List StateRows) : Dev :=
  match d.job id with
  | none => d
  | some j =>
    if d.get WARD_ROSTER_absent_valid = 1 ∧ d.get WARD_ROSTER_absent = d.get WARD_ROSTER_pos then
      let d1 := into.foldl Dev.takeState (d.chargeIdle id)
      let step := j.rejoin.getD j.step
      if into.isEmpty then d1
      else (d1.onward (orchRow 3 (d.get WARD_ROSTER_n - 1) (d.get WARD_ROSTER_pos) 0xFF step id j.gen (d.get WARD_ROSTER_pos) 0)).updJob id
        (fun j => { j with nextPlan := some (0, step), rejoin := some step, pause := false })
    else match j.rejoin with
      | none => d
      | some r =>
        if j.step + 1 ≠ r ∨ d.allHalted id = false ∨ j.fences.all (d.posted (j.ctx.getD 0) j.step) = false then d
        else sends.foldl Dev.postState ((d.chargeIdle id).updJob id (fun j => { j with pause := true }))

def execRejoinPause (job : BitVec 16) (sends into : List StateRows) (s : State) : Host.Outcome State Fault Refusal :=
  s.onDev (fun d => d.rejoinPause job sends into)

end Sys2Proof.Machine
end

