-- ==== Sys2Proof/Machine/Fetch.lean ====
section
/-! DEFINITION. Command queues: fetch and header checks, A2 translation, permissions, order, resources, timeouts and delegation
(R325 to R332, R335, R339, R340, R343, R346 to R348, R388). -/

namespace Sys2Proof.Machine

/-! Opcodes (R335, R336, R347). -/

/-- An opcode of R336: code, whether it names a job, and the parameter words it needs. -/
structure OpRow where
  code : Nat
  job : Bool
  words : Nat
deriving DecidableEq, Repr

/-- The opcodes of R336. -/
def opRows : List OpRow :=
  [⟨0x0000, false, 0⟩, ⟨0x0001, false, 0⟩, ⟨0x0002, false, 1⟩, ⟨0x0003, false, 1⟩, ⟨0x0101, true, 3⟩, ⟨0x0102, true, 2⟩,
   ⟨0x0103, true, 6⟩, ⟨0x0104, true, 6⟩, ⟨0x0105, false, 3⟩, ⟨0x0106, true, 1⟩, ⟨0x0201, false, 2⟩, ⟨0x0202, true, 7⟩,
   ⟨0x0301, true, 6⟩, ⟨0x0302, true, 5⟩, ⟨0x0303, true, 2⟩, ⟨0x0304, true, 1⟩, ⟨0x0305, true, 0⟩, ⟨0x0306, true, 0⟩,
   ⟨0x0307, true, 1⟩, ⟨0x0308, true, 2⟩, ⟨0x0401, false, 3⟩, ⟨0x0402, false, 4⟩, ⟨0x0403, true, 1⟩, ⟨0x0404, false, 1⟩,
   ⟨0x0501, false, 3⟩, ⟨0x0502, false, 0⟩, ⟨0x0601, true, 4⟩, ⟨0x0602, true, 3⟩, ⟨0x0701, true, 6⟩, ⟨0x0702, true, 6⟩,
   ⟨0x0703, false, 1⟩, ⟨0x0704, false, 3⟩, ⟨0x0801, false, 1⟩, ⟨0x0802, false, 1⟩, ⟨0x0803, false, 0⟩, ⟨0x0901, false, 4⟩,
   ⟨0x0902, false, 3⟩, ⟨0x0903, false, 4⟩, ⟨0x0904, false, 3⟩]

def opRow (code : Nat) : Option OpRow := opRows.find? (fun r => r.code == code)

/-- Where the commands of a queue come from (R325, R335). -/
inductive QueueKind where
  | pf0 | vf | broker | peer | i3c
deriving DecidableEq, Repr

def Dev.queueKind (d : Dev) (q : Nat) : QueueKind :=
  match d.get (WARD_Q_loc q) with
  | 0 => if d.get (WARD_Q_func q) = 0 then .pf0 else .vf
  | 1 => .broker
  | 2 => .peer
  | _ => .i3c

/-- The opcodes that a kind of queue may issue (R335). -/
def permitted (k : QueueKind) (op : Nat) : Bool :=
  let g := op / 256
  match k with
  | .pf0 => true
  | .vf => [0x0000, 0x0001, 0x0404, 0x0803].contains op || [2, 3, 5, 6, 7].contains g || (g == 1 && op != 0x0105 && op != 0x0106)
  | .broker => g < 7 || (g == 8 && op != 0x0801)
  | .peer => [0x0000, 0x0001, 0x0303, 0x0308, 0x0404, 0x0803].contains op || g == 5
  | .i3c => [0x0304, 0x0306, 0x0404].contains op || [0, 5, 8, 9].contains g

/-- Commands that never wait behind another command of their job (R331). -/
def noTurn (op : Nat) : Bool := op == 0x0304 || op == 0x0306

/-! A2 translation (R346, R347). -/

/-- The native opcode, parameter words and parameter bytes of an A2 opcode. -/
def a2Row (op : Nat) : Option (Nat × Nat) :=
  [(0x01, 0x0000, 0), (0x02, 0x0001, 0), (0x10, 0x0101, 12), (0x11, 0x0102, 8), (0x12, 0x0103, 24), (0x13, 0x0104, 24),
   (0x20, 0x0202, 24), (0x21, 0x0301, 16), (0x22, 0x0302, 12), (0x23, 0x0304, 4), (0x30, 0x0306, 0)].findSome?
    (fun r => if r.1 = op then some (r.2.1, r.2.2) else none)

/-- The manifest length of an A2 IMAGE_LOAD: 16 + 36 × entry count, the count taken from the manifest. -/
def Dev.a2Manifest (d : Dev) (id : BitVec 16) (va : Nat) : Nat :=
  match d.job id with
  | some j => 16 + 36 * (d.virtRead j.table (va + 8) 4).1
  | none => 16

/-- The native command of an A2 command, or its BAD_OPCODE; reserved flags give a reserved native flag. -/
def Dev.translateA2 (d : Dev) (v : Nat) : Option Nat :=
  (a2Row (bits v 0 8)).map (fun r =>
    let id : BitVec 16 := BitVec.ofNat 16 (bits v 32 16)
    let gen := ((d.job id).map (fun j => j.gen.toNat)).getD 0
    let pars := bits v 64 (8 * r.2)
    let flags := bits v 8 1 + (if bits v 9 7 = 0 then 0 else 0x80)
    let words := ((opRow r.1).map (fun o => o.words)).getD 0
    r.1 + flags * 2 ^ 16 + words * 2 ^ 24 + bits v 16 16 * 2 ^ 32 + id.toNat * 2 ^ 48 + gen * 2 ^ 64 + bits v 48 16 * 1000 * 2 ^ 96
      + pars * 2 ^ 128 + (if r.1 = 0x0202 then d.a2Manifest id (bits v 192 64) * 2 ^ 320 else 0))

/-! Fetch (R327 to R330, R335, R339, R388). -/

/-- Whether a queue has a command to fetch. -/
def Dev.queueReady (d : Dev) (q : Nat) : Bool :=
  if 2 ≤ d.get (WARD_Q_loc q) then !(Tab.get (fun _ => []) d.mail q).isEmpty
  else d.get (WARD_Q_en q) == 1 && d.get (WARD_Q_tail q) != d.get (WARD_Q_head q)

/-- The queue that is served next: the highest class, and round robin within it (R328). -/
def Dev.nextQueue (d : Dev) : Option Nat :=
  let ready := (List.range 64).filter d.queueReady
  match ready with
  | [] => none
  | _ =>
    let cls := ready.foldl (fun m q => max m (d.get (WARD_Q_cls q))) 0
    let start := Tab.get (fun _ => 0) d.lastServed cls
    ((List.range 64).map (fun i => (start + i) % 64)).find? (fun q => ready.contains q && d.get (WARD_Q_cls q) == cls)

/-- Takes the next command of a queue: the ring slot or the mailbox, head and status block (R325, R327). -/
def Dev.takeCommand (d : Dev) (q : Nat) (x : BitVec 512) : Nat × Dev :=
  let h := d.get (WARD_Q_head q)
  let size := if d.get (WARD_Q_a2 q) = 1 then 32 else 64
  if 2 ≤ d.get (WARD_Q_loc q) then
    let l := Tab.get (fun _ => []) d.mail q
    (((l.head?).getD 0).toNat, { d.put (WARD_Q_head q) ((h + 1) % 65536) with mail := Tab.set (fun _ => []) d.mail q (l.drop 1) })
  else
    let v := if d.get (WARD_Q_loc q) = 0 then x.toNat else Memory.readN d.hbm (d.get (WARD_Q_cbase q) + h * size) size
    (v % 2 ^ (8 * size), (d.put (WARD_Q_head q) ((h + 1) % 2 ^ d.get (WARD_Q_log2n q))).writeStatusBlock q)

/-- The generation check of R330 and R388 on a job-scope command: a status and detail, or none. -/
def Dev.jobCheck (d : Dev) (c : Cmd) : Option (Nat × Nat) :=
  match d.job c.job with
  | none => if Tab.get (fun _ => 0) d.lastGen c.job.toNat = 0 then some (3, 8) else some (8, 0)
  | some j =>
    if j.gen ≠ c.jgen then some (8, 0)
    else match j.phase with
      | .live => none
      | .held => if [0x0305, 0x0306, 0x0701].contains c.opcode then none else some (8, 0)
      | _ => some (8, 0)

/-- The queue's permission for the opcode and the job (R335). -/
def Dev.permission (d : Dev) (c : Cmd) (job : Bool) : Option (Nat × Nat) :=
  let k := d.queueKind c.queue.toNat
  let owner := (d.job c.job).map (fun j => j.owner)
  let peerJob := k == .peer && (c.opcode == 0x0303 || c.opcode == 0x0308)
  if permitted k c.opcode = false then some (0xA, 1)
  else if job && owner != some c.queue && !(noTurn c.opcode && (k == .pf0 || k == .i3c)) && !peerJob then some (0xA, 2)
  else if k = .vf ∧ c.opcode / 256 = 5 ∧ (d.jobIds.any (fun i => (d.job i).any (fun j => j.owner == c.queue))) = false then some (0xA, 2)
  else none

/-- The checks of a command at fetch, in the order of R330, then R335. -/
def Dev.headerCheck (d : Dev) (c : Cmd) : Option (Nat × Nat) :=
  match opRow c.opcode with
  | none => some (2, c.opcode)
  | some r =>
    if 8 ≤ c.at 2 1 then some (3, 2)
    else if 12 < c.plen ∨ c.plen < r.words then some (3, 3)
    else if r.job != (c.job != 0) then some (3, 6)
    else match (if r.job then d.jobCheck c else none) with
      | some e => some e
      | none => d.permission c r.job

/-- A JOB_KILL ends the job's generation at fetch: commands that wait are replied STALE_GEN (R339). -/
def Dev.endGeneration (d : Dev) (c : Cmd) : Dev :=
  match d.job c.job with
  | none => d
  | some j =>
    if c.opcode ≠ 0x0304 then d
    else
      let d1 := (d.setJob c.job (some { j with phase := .stop, hold := bit (c.par 0 4) 0, killer := some c.n })).staleCommands c.job (some c.n)
      ((d1.put WARD_KILL_STAT_job c.job.toNat).put WARD_KILL_STAT_jgen j.gen.toNat).put WARD_KILL_STAT_phase 1

/-- A command has been fetched: it is counted, refused with BUSY at the limit of its queue, checked, or kept (R329, R330). -/
def Dev.accepted (d : Dev) (q v : Nat) (bad : Option (Nat × Nat)) : Dev :=
  let before := d.get (WARD_Q_pending q)
  let c : Cmd := ⟨d.fetched, BitVec.ofNat 6 q, BitVec.ofNat 512 (bits v 0 (8 * (16 + 4 * min (bits v 24 8) 12))), .fetched, none, 0⟩
  let d1 := (({ d with fetched := d.fetched + 1 }).put (WARD_Q_pending q) (before + 1)).put WARD_LOAD_pending (d.get WARD_LOAD_pending + 1)
  if max 1 (d.get (WARD_Q_limit q)) ≤ before then d1.reply c 1 1 0
  else match (match bad with | some e => some e | none => d1.headerCheck c) with
    | some e => d1.reply c e.1 e.2 0
    | none => ({ d1 with cmds := d1.cmds ++ [c] }).endGeneration c

/-- COMMAND_FETCH, once Naeno runs. -/
def Dev.commandFetch (d : Dev) (x : BitVec 512) : Dev :=
  match (if d.naenoRuns then d.nextQueue else none) with
  | none => d
  | some q =>
    let (v, d1) := d.takeCommand q x
    let d2 := { d1 with lastServed := Tab.set (fun _ => 0) d1.lastServed (d.get (WARD_Q_cls q)) (q + 1) }
    if d.get (WARD_Q_a2 q) = 1 then
      match d2.translateA2 v with
      | some w => d2.accepted q w none
      | none => d2.accepted q (bits v 0 8 + bits v 16 16 * 2 ^ 32) (some (2, bits v 0 8))
    else d2.accepted q v none

def execCommandFetch (x : BitVec 512) (s : State) : Host.Outcome State Fault Refusal := s.onDev (fun d => d.commandFetch x)

/-! Resources (R340). -/

/-- Whether a page is a job's, or one of the two of its page table. -/
def Dev.owns (d : Dev) (n : Nat) (j : Job) : Bool := j.pages.contains n || n == d.pageOf j.table || n == d.pageOf j.table + 1

/-- Whether a device page is usable, not retired, not reserved by Naeno, and held by no job (R310, R474).  A stack that is not ON is
woken before a page of it is granted (R410). -/
def Dev.pageFree (d : Dev) (n : Nat) : Bool :=
  !(d.badPages.contains (pageNo (d.pageAddr n))) && !(d.reserved.contains n) && !(d.jobIds.any (fun i => (d.job i).any (d.owns n)))

/-- The device pages of the stacks in a mask that are free, rising, at most `n` of them. -/
def Dev.freePages (d : Dev) (mask n : Nat) : List Nat :=
  (((List.range 8).filter (bit mask)).foldl (fun l k =>
    if n ≤ l.length then l
    else l ++ ((List.range d.usablePages).map (· + k * d.usablePages)).filter d.pageFree) []).take n

/-- Halls and tiers that other jobs than `id` hold. -/
def Dev.hallsHeld (d : Dev) (id : BitVec 16) : Nat :=
  d.jobIds.foldl (fun m i => if i = id then m else m ||| ((d.job i).map (fun j => j.halls.toNat)).getD 0) 0
def Dev.tiersHeld (d : Dev) (id : BitVec 16) : Nat :=
  d.jobIds.foldl (fun m i => if i = id then m else m ||| ((d.job i).map (fun j => j.tiers.toNat)).getD 0) 0

/-- The contexts that no job holds; a job's Porter and Clerk contexts have one number (log 16). -/
def Dev.freeCtxs (d : Dev) (id : BitVec 16) : List Nat :=
  (List.range 8).filter (fun x => !(d.jobIds.any (fun i => i != id && (d.job i).any (fun j => j.ctx == some x))))

/-- The ports and flows that an image configures, and those that other jobs hold. -/
def imagePorts (im : Image) : List (Nat × Nat) := im.sets.flatMap (fun s => s.flows.map (fun f => (f.port.toNat, f.flow.toNat)))
def Dev.portsHeld (d : Dev) (id : BitVec 16) : List (Nat × Nat) :=
  d.jobIds.flatMap (fun i => if i = id then [] else ((d.job i).bind (fun j => j.image.map imagePorts)).getD [])

/-- The service slots of a complex that are free. -/
def Dev.freeSlots (d : Dev) (cpx : Nat) : List Nat :=
  ((List.range 4).map (· + 4 * cpx)).filter (fun i => (Tab.get (fun _ => Slot.reset) d.slots i).use.isNone)

/-- The slots on running complexes that a delegated command may take. -/
def Dev.delegateSlots (d : Dev) : List Nat :=
  ((List.range 4).filter (fun c => d.get (BRK_CPX_STAT_state c) == 1)).flatMap d.freeSlots

/-- Whether a command is to be delegated (R343). -/
def Dev.delegable (d : Dev) (c : Cmd) : Bool :=
  !(c.flag 2) && ((c.opcode == 0x0103 && d.get WARD_DELEG_fill == 1) || (c.opcode == 0x0104 && d.get WARD_DELEG_copy == 1)
    || (c.opcode == 0x0601 && d.get WARD_DELEG_export == 1) || (c.opcode == 0x0602 && d.get WARD_DELEG_import == 1))

/-- The slots that an image's loader and orchestrator want and a job does not hold yet, by complex. -/
def Dev.slotWants (d : Dev) (id : BitVec 16) (gen : BitVec 8) (im : Image) : List Nat :=
  let have_ := fun (u : SlotUse) => (List.range 16).any (fun i => (Tab.get (fun _ => Slot.reset) d.slots i).use == some u)
  (if have_ (.loader id gen) then [] else (im.loader.map (fun l => l.1.toNat)).toList)
    ++ (if have_ (.orchestrator id gen) then [] else (im.orchestrator.map (fun l => l.toNat)).toList)

/-- Whether the next ID and generation may be given (R389). -/
def Dev.idFree (d : Dev) : Bool :=
  let id : BitVec 16 := BitVec.ofNat 16 (d.get WARD_JOB_NEXT_id)
  let gen := d.get WARD_JOB_NEXT_gen
  id != 0 && gen != 0 && (d.job id).isNone && !(d.quiet.contains id) && gen != Tab.get (fun _ => 0) d.lastGen id.toNat

/-- The 4 MiB aligned places for a page table: pairs of free device pages (R209, PORTER_PTBASE). -/
def Dev.tablePlaces (d : Dev) : List Nat :=
  (List.range (8 * d.usablePages - 1)).filter (fun n =>
    d.pageAddr n % 2 ^ 22 == 0 && n / d.usablePages == (n + 1) / d.usablePages && d.pageFree n && d.pageFree (n + 1))

/-- Why MEM_ALLOC is refused whatever is free: stack mask, range, quota (R336, R341, R474). -/
def Dev.allocError (d : Dev) (c : Cmd) (j : Job) : Option (Nat × Nat) :=
  let first := c.par 0 4
  let count := c.par 4 4
  if c.par 8 1 = 0 then some (3, 24)
  else if 2 ^ 19 < first + count ∨ (List.range count).any (fun i => (d.pte j.table (first + i)).valid) = true then some (3, 16)
  else if j.quota < j.pages.length + count then some (5, j.pages.length)
  else none

/-- The power budgets of the jobs that exist, and that of a hall mask: hall_w for each hall (R421). -/
def Dev.hallPower (d : Dev) (halls : Nat) : Nat := ((List.range 16).filter (bit halls)).length * d.get PWR_CAP_CFG_hall_w
def Dev.heldPower (d : Dev) : Nat := d.jobIds.foldl (fun n i => n + ((d.job i).map (fun j => j.power)).getD 0) 0

/-- The first class of a command's resource set that is not free (R340). -/
def Dev.lacks (d : Dev) (c : Cmd) : Option Nat :=
  if c.opcode = 0x0201 then
    if d.idFree = false then some 1
    else if d.tablePlaces.isEmpty then some 2
    else if d.hallsHeld 0 &&& c.par 4 2 ≠ 0 then some 3
    else if d.get PWR_CAP_CFG_cap < d.heldPower + d.hallPower (c.par 4 2) then some 9 else none
  else if c.opcode = 0x0101 then
    match d.job c.job with
    | some j => if (d.allocError c j).isNone ∧ (d.freePages (c.par 8 1) (c.par 4 4)).length < c.par 4 4 then some 2 else none
    | none => none
  else if c.opcode = 0x0202 then
    match c.img, d.job c.job with
    | some im, some j =>
      if d.tiersHeld c.job &&& im.tiers.toNat ≠ 0 then some 4
      else if (d.freeCtxs c.job).isEmpty then some 5
      else if (imagePorts im).any (fun p => (d.portsHeld c.job).contains p) then some 7
      else if (d.slotWants c.job j.gen im).any (fun x =>
          decide ((d.freeSlots x).length < ((d.slotWants c.job j.gen im).filter (· == x)).length)) then some 8
      else none
    | _, _ => none
  else if d.delegable c ∧ d.delegateSlots.isEmpty then some 8
  else none

/-! Start, grant, timeout (R331, R332, R334, R340, R343). -/

/-- A command begins its work: handed to a service slot when it is delegated, else run by Naeno. -/
def Dev.begin (d : Dev) (c : Cmd) : Dev :=
  if d.delegable c then
    let (s, d1) := d.choose d.delegateSlots
    match s with
    | some i => ((d1.setSlot i (some (.command c.n))).slotEvent i (.command c.raw)).setPhase c.n (.delegated i)
    | none => d1
  else d.setPhase c.n .started

/-- A command whose set is not free is replied NO_RESOURCE, or waits (R340). -/
def Dev.noResource (d : Dev) (c : Cmd) (cls : Nat) : Dev :=
  if c.flag 1 then
    let d1 := d.setPhase c.n .waiting
    if d.waiters.contains c.n then d1 else { d1 with waiters := d1.waiters ++ [c.n] }
  else d.reply c 4 cls 0

/-- Whether a fetched command's barrier, the fetch order of its queue and its turn on its job let it start (R331). -/
def Dev.mayStart (d : Dev) (c : Cmd) : Bool :=
  let earlier := d.cmds.filter (fun x => x.n < c.n)
  !(c.flag 0 && earlier.any (fun x => x.queue == c.queue))
    && !(earlier.any (fun x => x.queue == c.queue && (x.phase == .fetched || x.phase == .waiting)))
    && (c.job == 0 || noTurn c.opcode || !(earlier.any (fun x => x.job == c.job && !(noTurn x.opcode) && x.phase != .launched)))

/-- COMMAND_START. -/
def Dev.commandStart (d : Dev) (n : Nat) : Dev :=
  match d.cmd n with
  | none => d
  | some c =>
    let q := c.queue.toNat
    if c.phase ≠ .fetched ∨ d.mayStart c = false then d
    else if d.get (WARD_Q_loc q) = 2 ∧ d.linkState (d.get (WARD_Q_port q)) ≠ 5 then d.reply c 9 (d.get (WARD_Q_port q)) 0
    else match d.lacks c with
      | some cls => d.noResource c cls
      | none => d.begin c

def execCommandStart (n : Nat) (s : State) : Host.Outcome State Fault Refusal := s.onDev (fun d => d.commandStart n)

/-- RESOURCE_GRANT: the first waiting command whose whole set is free takes it. -/
def Dev.resourceGrant (d : Dev) : Dev :=
  match d.waiters.findSome? (fun n => (d.cmd n).bind (fun c => if (d.lacks c).isNone then some c else none)) with
  | none => d
  | some c => ({ d with waiters := d.waiters.filter (· != c.n) }).begin c

def execResourceGrant (s : State) : Host.Outcome State Fault Refusal := s.onDev Dev.resourceGrant

/-- COMMAND_TIMEOUT: a command that waits for its barrier, its turn or resources, or as a pending launch, is replied TIMEOUT (R332). -/
def Dev.commandTimeout (d : Dev) (n : Nat) : Dev :=
  match d.cmd n with
  | none => d
  | some c =>
    if c.timeout = 0 then d
    else match c.phase with
      | .fetched | .waiting => d.reply c 0xB c.timeout 0
      | .launched =>
        ((d.reply c 0xB c.timeout 0).updJob c.job (fun j => { j with launch := none })).put WARD_STEP_GATE_pending
          (if d.gateJob = c.job then 0 else d.get WARD_STEP_GATE_pending)
      | _ => d

def execCommandTimeout (n : Nat) (s : State) : Host.Outcome State Fault Refusal := s.onDev (fun d => d.commandTimeout n)

/-- DELEGATE_RESULT: the slot is free again and Naeno replies (R343, R359). -/
def Dev.delegateResult (d : Dev) (n : Nat) (status detail result : Nat) : Dev :=
  match d.cmd n with
  | none => d
  | some c => match c.phase with
    | .delegated i => (d.setSlot i none).reply c status detail result
    | _ => d

def execDelegateResult (n : Nat) (status : BitVec 16) (detail : BitVec 32) (result : BitVec 192) (s : State) :
    Host.Outcome State Fault Refusal :=
  s.onDev (fun d => d.delegateResult n status.toNat detail.toNat result.toNat)

end Sys2Proof.Machine
end

