-- ==== Sys2Proof/Machine/Secure.lean ====
section
/-! DEFINITION. Signed objects and their checks: Naeno and Broker images, owner key certificates, calibration overlays, debug responses
(R355, R356, R372, R403 to R405, R436 to R442). -/

namespace Sys2Proof.Machine

/-- A field of `n` bytes of a byte list, least significant first (R6). -/
def at_ (bs : List Byte) (i n : Nat) : Nat := ofBytes ((bs.drop i).take n)

/-- A number of a signature or key, 48 bytes, most significant first (log 19). -/
def big (bs : List Byte) (i : Nat) : Nat := ofBytesBE ((bs.drop i).take 48)

/-- The owner key of the certificate in region 5 (R436, R439). -/
def Dev.ownerKey (d : Dev) : Option (Nat × Nat) :=
  match Tab.get (fun _ => []) d.flash.regions 5 with
  | [] => none
  | c => some (big c 20, big c 68)

/-- Whether a signature at `i` over the first `n` bytes of an object verifies: key 0 under an unrevoked vendor key, key 1 under the owner
key (R436). -/
def Dev.verifies (d : Dev) (key : Nat) (bs : List Byte) (n i : Nat) : Bool :=
  let ok := fun (k : Nat × Nat) => ecdsaVerify k.1 k.2 (sha384 (bs.take n)) (big bs i) (big bs (i + 48))
  if key = 0 then (List.range 4).any (fun v => !(bit (d.get SEC_STAT_revoked) v) && ok (Config.vendorKey v))
  else if key = 1 then d.ownerKey.any ok
  else false

/-- Why an object is refused: 3 signature, digest or serial, 4 rollback (R334). -/
abbrev Refused := Option Nat

/-- The checks of an image of R355 with a magic: header, digest, signature, then security version against a counter of range 64 (R356, R437,
R438). -/
def Dev.imageCheck (d : Dev) (magic : List Byte) (bs : List Byte) (owner : Bool) (counter : Nat) : Refused :=
  let n := at_ bs 16 8
  let good := bs.take 4 == magic && at_ bs 4 2 == 1 && decide (256 + n ≤ bs.length) && (at_ bs 6 1 == 0 || owner)
    && (bs.drop 64).take 48 == sha384 ((bs.drop 256).take n) && d.verifies (at_ bs 6 1) bs 112 112
  if good = false then some 3 else if at_ bs 8 4 < counter ∨ 64 < at_ bs 8 4 then some 4 else none

/-- ASCII "BRKI", "NAEN", "EFZK", "EFZO", "EFZD". -/
def magicBrki : List Byte := [0x42, 0x52, 0x4B, 0x49]
def magicNaen : List Byte := [0x4E, 0x41, 0x45, 0x4E]
def magicEfzk : List Byte := [0x45, 0x46, 0x5A, 0x4B]
def magicEfzo : List Byte := [0x45, 0x46, 0x5A, 0x4F]
def magicEfzd : List Byte := [0x45, 0x46, 0x5A, 0x44]

/-- A Broker image (R355, R356). -/
def Dev.brokerCheck (d : Dev) (bs : List Byte) : Refused := d.imageCheck magicBrki bs true (d.get SEC_ARB_broker)

/-- A Naeno image: vendor key only, pages = 0, at most 8 MiB (R437). -/
def Dev.naenoCheck (d : Dev) (bs : List Byte) : Refused :=
  if at_ bs 24 4 ≠ 0 ∨ 2 ^ 23 < bs.length then some 3 else d.imageCheck magicNaen bs false (d.get SEC_ARB_naeno)

/-- An owner key certificate (R439). -/
def Dev.certificateCheck (d : Dev) (bs : List Byte) : Refused :=
  if (bs.take 4 == magicEfzk && at_ bs 4 2 == 1 && bs.length == 212 && at_ bs 12 8 == d.get FUSE_SERIAL_serial && d.verifies 0 bs 116 116) = false
  then some 3
  else if at_ bs 8 4 < d.get SEC_ARB_owner ∨ 16 < at_ bs 8 4 then some 4 else none

/-! Calibration overlays (R403 to R405). -/

/-- An item of an overlay: class, index, delta. -/
structure OvItem where
  cls : Nat
  index : Nat
  delta : Int
deriving DecidableEq, Repr

/-- The items of an overlay. -/
def ovItems (bs : List Byte) : List OvItem :=
  (List.range (at_ bs 16 2)).map (fun i =>
    let o := 192 + 8 * i
    ⟨at_ bs o 1, at_ bs (o + 2) 2, signed 16 (at_ bs (o + 4) 2)⟩)

/-- The bound of a class, and the number of its indices (R404). -/
def ovBound (c : Nat) : Option (Int × Int × Nat) :=
  match c with
  | 1 => some (-25, 25, 256)
  | 2 => some (-300, 0, 16)
  | 3 => some (-64, 64, 96 * 36)
  | 4 => some (-16, 16, 64)
  | 5 => some (-8, 8, 512)
  | _ => none

/-- Whether the applied value of an item lies within the factory limits of its entry (R404): the die's floor and ceiling voltage for class 1. -/
def Dev.ovLimit (d : Dev) (x : OvItem) : Bool :=
  if x.cls = 1 then
    let v := (d.get (CAL_VF_mv (x.index / 16) (x.index % 16)) : Int) + x.delta
    decide ((d.get (CAL_VLIM_vmin (x.index / 16)) : Int) ≤ v) && decide (v ≤ d.get (CAL_VLIM_vmax (x.index / 16)))
  else true

/-- Whether an item lies within R404. -/
def Dev.ovGood (d : Dev) (x : OvItem) : Bool :=
  match ovBound x.cls with
  | some (lo, hi, n) => decide (lo ≤ x.delta) && decide (x.delta ≤ hi) && decide (x.index < n) && d.ovLimit x
  | none => false

/-- Why an overlay is not accepted, in the order of R405, as the reason of CAL_STAT (1 serial, 2 digest, 3 signature, 4 item bound, 5 duplicate
item) and the byte offset of an item. -/
def Dev.overlayCheck (d : Dev) (bs : List Byte) : Option (Nat × Nat) :=
  let items := ovItems bs
  let n := items.length
  if at_ bs 8 8 ≠ d.get FUSE_SERIAL_serial then some (1, 0)
  else if (bs.take 4 == magicEfzo && at_ bs 4 2 == 1 && decide (0 < n) && decide (n ≤ 4096) && decide (192 + 8 * n ≤ bs.length)
      && (bs.drop 24).take 48 == sha384 ((bs.drop 192).take (8 * n))) = false then some (2, 0)
  else if d.verifies (at_ bs 6 1) bs 72 72 = false then some (3, 0)
  else match (List.range n).find? (fun i => !(d.ovGood (items.getD i ⟨0, 0, 0⟩))) with
    | some i => some (4, 192 + 8 * i)
    | none => match (List.range n).find? (fun i => (items.take i).any (fun y =>
        y.cls == (items.getD i ⟨0, 0, 0⟩).cls && y.index == (items.getD i ⟨0, 0, 0⟩).index)) with
      | some i => some (5, 192 + 8 * i)
      | none => none

/-! Flash (R371, R372). -/

def Dev.region (d : Dev) (n : Nat) : List Byte := Tab.get (fun _ => []) d.flash.regions n

/-- Writes a region; the directory is rewritten with it (R371).  SEC_STAT.owner_key follows region 5. -/
def Dev.setRegion (d : Dev) (n : Nat) (bs : List Byte) : Dev :=
  let d1 := { d with flash := { d.flash with regions := Tab.set (fun _ => []) d.flash.regions n bs } }
  d1.put SEC_STAT_owner_key (!(d1.region 5).isEmpty).toNat

/-- The checks at boot of a flash region's contents: DENIED detail 3 or 4, detail 5 for the running copy (R372). -/
def Dev.regionCheck (d : Dev) (n : Nat) (bs : List Byte) : Refused :=
  if (n = 1 ∧ d.get BOOT_STAT_copy = 0) ∨ (n = 2 ∧ d.get BOOT_STAT_copy = 1) then some 5
  else match n with
    | 1 | 2 => d.naenoCheck bs
    | 3 => d.brokerCheck bs
    | 4 => if (d.overlayCheck bs).isSome then some 3 else none
    | 5 => d.certificateCheck bs
    | _ => none

/-! Debug unlock (R441, R442). -/

/-- SEC_STAT.debug and unlock_left follow the unlocks; unlock_job names the latest. -/
def Dev.showUnlock (d : Dev) : Dev :=
  let level := d.jobIds.foldl (fun m i => max m (((d.job i).bind (fun j => j.unlock.map (·.1))).getD 0)) 0
  let left := ((d.job (BitVec.ofNat 16 (d.get SEC_STAT_unlock_job))).bind (fun j => j.unlock.map (·.2))).getD 0
  (d.put SEC_STAT_debug level).put SEC_STAT_unlock_left left

/-- The status of a debug response from a queue: DENIED detail 3 or 2, or none (R441). -/
def Dev.responseCheck (d : Dev) (q : BitVec 6) (bs : List Byte) : Option (Nat × Nat) :=
  let level := at_ bs 4 1
  let id : BitVec 16 := BitVec.ofNat 16 (at_ bs 6 2)
  let fresh := match d.challenge with
    | some c => c.queue == q && c.level == level && c.bytes.toNat == at_ bs 16 16
    | none => false
  if (fresh && bs.take 4 == magicEfzd && bs.length == 136 && at_ bs 32 8 == d.get FUSE_SERIAL_serial
      && decide (1 ≤ at_ bs 12 4) && decide (at_ bs 12 4 ≤ 86400) && d.verifies (2 - level) bs 40 40) = false then some (0xA, 3)
  else match d.job id with
    | none => some (0xA, 3)
    | some j =>
      if j.gen.toNat ≠ at_ bs 8 1 then some (0xA, 3)
      else if (level = 1 ∧ j.owner ≠ q) ∨ (level = 2 ∧ j.phase ≠ .live) then some (0xA, 2)
      else none

end Sys2Proof.Machine
end

