-- ==== Sys2Proof/Machine/Power.lean ====
section
/-! DEFINITION. Power and clocks: the transitions of domains, Broker images, the core clock and its limits, the voltage loop, droop, the
power cap and the market bell (R121, R122, R297, R301, R324, R343, R355 to R357, R406 to R425). -/

namespace Sys2Proof.Machine

/-! Ports that go down on purpose (R298, R301). -/

/-- GOING_DOWN in three control blocks on a port in UP or FENCED; the time until the light stops is a free value (log 1). -/
def Dev.sendGoingDown (d : Dev) (p reason : Nat) : Dev :=
  if d.carries p then
    let (v, d1) := d.free
    let y := reason % 16 + v % 2 ^ 16 * 2 ^ 4
    ((d1.symbol p 0x07 y).symbol p 0x07 y).symbol p 0x07 y
  else d

/-- A port goes to OFF: what it carried is gone, and no error is counted. -/
def Dev.portOff (d : Dev) (p : Nat) : Dev :=
  let d1 := if d.carries p || d.linkState p == 7 then (d.portGone p).dropSending p else d
  d1.setLinkState p 0 0

/-- The ports of an optical engine. -/
def enginePorts (e : Nat) : List Nat := (List.range 12).map (· + 12 * e)

/-! Broker complexes (R343, R355 to R357). -/

/-- A complex holds no line any more.  The data of its dirty lines has come with EVICT_D (log 20). -/
def Dev.flushComplex (d : Dev) (c : Nat) : Dev :=
  (d.coh.dir.map (·.1)).foldl (fun d line => d.dropHolder c line) d

/-- The commands that were delegated to a complex are replied HW_ERROR detail 2, and BROKER_LOST is reported if there was one. -/
def Dev.loseDelegated (d : Dev) (c : Nat) : Dev :=
  let mine := d.cmds.filter (fun x => match x.phase with | .delegated i => i / 4 == c | _ => false)
  let d1 := mine.foldl (fun d x => match x.phase with | .delegated i => (d.setSlot i none).reply x 0xC 2 0 | _ => d) d
  if mine.isEmpty then d1 else d1.raise 0x62 ⟨8, c, 0, 0, 0, 0⟩

/-- Where the pages of a Broker image may lie: runs of free device pages on one stack (R355, R357). -/
def Dev.imagePlaces (d : Dev) (pages : Nat) : List Nat :=
  (List.range (8 * d.usablePages + 1 - pages)).filter (fun n =>
    n / d.usablePages == (n + pages - 1) / d.usablePages && (List.range pages).all (fun i => d.pageFree (n + i)))

/-- The pages that a complex has reserved for its image. -/
def Dev.brokerPages (d : Dev) (c : Nat) : List Nat := (List.range (d.get (BRK_REGION_pages c 0))).map (· + d.get (BRK_REGION_start c 0))

/-- An accepted image is loaded into a complex: its lines go, the payload is copied into the reserved pages, BRK_REGION_c_0 covers them,
and the complex runs (R357).  Without room for the pages the complex stays in reset. -/
def Dev.loadBroker (d : Dev) (c : Nat) (bs : List Byte) : Dev :=
  let d1 := (d.loseDelegated c).flushComplex c
  let d2 := { d1 with reserved := d1.reserved.filter (fun n => !((d1.brokerPages c).contains n)) }
  let pages := at_ bs 24 4
  let (place, d3) := d2.choose (d2.imagePlaces pages)
  match place with
  | some n =>
    let d4 := { d3 with reserved := (List.range pages).map (· + n) ++ d3.reserved }
    let d5 := d4.writeHbmBytes (d4.pageAddr n) ((bs.drop 256).take (min (at_ bs 16 8) (pages * 2 ^ 21)))
    (((d5.put (BRK_REGION_start c 0) n).put (BRK_REGION_pages c 0) pages).put (BRK_CPX_STAT_state c) 1).put (BRK_CPX_STAT_svn c) (at_ bs 8 4)
  | none => ((d3.put (BRK_REGION_pages c 0) 0).put (BRK_CPX_STAT_state c) 0).put (BRK_CPX_STAT_svn c) 0

/-- Naeno loads the Broker region of the flash into a complex, which stays in reset when the region's image fails (R356, R439). -/
def Dev.bootBroker (d : Dev) (c : Nat) : Dev :=
  if (d.region 3).isEmpty || (d.brokerCheck (d.region 3)).isSome then d.put (BRK_CPX_STAT_state c) 0
  else d.loadBroker c (d.region 3)

/-! Transitions (R407, R408). -/

/-- What a core in a hall that turns OFF keeps: its stock tiers. -/
def Core.lose (k : Core) : Core :=
  { Core.reset with mem := k.mem.filter (fun p => decide (0x400000 ≤ p.1)), poison := k.poison.filter (fun p => decide (0x400000 / 64 ≤ p.1)) }

/-- One tier of a core reads as zero with no poison (R121, R122). -/
def Core.loseTier (k : Core) (t : Nat) : Core :=
  let base := 0x400000 + t * 0x150000
  { k with mem := Memory.zero k.mem base 0x150000, poison := Tab.clear k.poison (base / 64) (0x150000 / 64) }

/-- The contents of a stack are lost. -/
def Dev.loseStack (d : Dev) (k : Nat) : Dev :=
  { d with hbm := Memory.zero d.hbm (k * 2 ^ 36) (2 ^ 36), hbmPoison := Tab.clear d.hbmPoison (k * 2 ^ 30) (2 ^ 30) }

/-- The cores of a hall. -/
def Dev.hallCores (d : Dev) (h : Nat) : List CoreId := d.allCores.filter (fun c => d.hallOf c.x.toNat c.y.toNat == h)

/-- What a change of state does besides the state: an OFF domain loses its contents, so that it reads as zero when it wakes. -/
def Dev.domEffect (d : Dev) (n old st : Nat) : Dev :=
  if n < 16 then (if st = 3 then (d.hallCores n).foldl (fun d c => d.upd c Core.lose) d else d)
  else if n < 80 then
    (if st = 3 then (d.hallCores ((n - 16) / 4)).foldl (fun d c => d.upd c (fun k => k.loseTier ((n - 16) % 4))) d else d)
  else if n < 88 then
    let k := n - 80
    let d1 := if st = 3 then d.loseStack k else d
    d1.put (HBM_STAT_state k) (if d.get (HBM_STAT_marked k) = 1 then 3 else if st = 3 then 0 else if st = 2 then 2 else 1)
  else if n < 96 then
    if st = 3 then (enginePorts (n - 88)).foldl (fun d p => (d.sendGoingDown p 2).portOff p) d
    else if old = 3 then (enginePorts (n - 88)).foldl (fun d p => if d.portOn p then d.setLinkState p 1 0 else d) d
    else d
  else if n < 100 then
    let c := n - 96
    if 2 ≤ st then
      let d1 := (d.loseDelegated c).flushComplex c
      if st = 3 then d1.put (BRK_CPX_STAT_state c) 0 else d1
    else if old = 3 then d.bootBroker c else d
  else if n = 101 then (if st = 3 then (d.put (ETH_STAT_link 0) 0).put (ETH_STAT_link 1) 0 else d)
  else d

/-- DOMAIN_TRANSITION_END: the change under way completes and answers its command, and the next one starts (R410).  A stock tier leaves OFF
only while its hall is ON (R408). -/
def Dev.transitionEnd (d : Dev) (n : Nat) : Dev :=
  match d.movesOf n with
  | [] => d
  | (st, cmd) :: rest =>
    if 16 ≤ n ∧ n < 80 ∧ d.dom n = 3 ∧ st ≠ 3 ∧ d.dom ((n - 16) / 4) ≠ 0 then d
    else
      let d1 := (d.domEffect n (d.dom n) st).setDom n st
      let d2 := ({ d1 with moves := Tab.set (fun _ => []) d1.moves n rest }).put (PWR_DOM_busy n) (!rest.isEmpty).toNat
      match cmd.bind d2.cmd with
      | some c => d2.reply c 0 0 0
      | none => d2

def execDomainTransitionEnd (n : BitVec 7) (s : State) : Host.Outcome State Fault Refusal := s.onDev (fun d => d.transitionEnd n.toNat)

/-! The core clock (R413, R414). -/

/-- The delta of the applied overlay for an item (R404). -/
def Dev.delta (d : Dev) (cls i : Nat) : Int := Tab.get (fun _ => 0) d.overlay (cls * 2 ^ 16 + i)

/-- The frequency ceiling of a hall. -/
def Dev.hallCeiling (d : Dev) (h : Nat) : Nat := ((d.get (CAL_VF_freq h 15) : Int) + d.delta 2 h).toNat

/-- The terms of f_core with their codes of CLK_STAT.limit. -/
def Dev.coreTerms (d : Dev) : List (Nat × Nat) :=
  [(0, min (d.get CLK_CORE_target) 1800)] ++ ((List.range 16).filter (fun h => d.dom h == 0)).map (fun h => (1, d.hallCeiling h))
    ++ [(2, d.capLimit), (3, d.thermLimit)] ++ (if d.get PWR_STAT_vr_fail = 0 then [] else [(4, d.get CLK_CORE_floor)])

/-- The lowest of a list of terms; of equal ones the first (log 21). -/
def lowestTerm : List (Nat × Nat) → Nat × Nat
  | [] => (0, 0)
  | [t] => t
  | t :: ts => if t.2 ≤ (lowestTerm ts).2 then t else lowestTerm ts

/-- Rounds down to a step of 25 MHz. -/
def down25 (f : Nat) : Nat := f / 25 * 25

/-- The value that f_core moves to, with the term that sets it. -/
def Dev.coreGoal (d : Dev) : Nat × Nat :=
  let t := lowestTerm d.coreTerms
  if down25 t.2 < d.get CLK_CORE_floor then (5, d.get CLK_CORE_floor) else (t.1, down25 t.2)

/-- CLK_STAT.limit as it reads. -/
def Dev.showClock (d : Dev) : Dev := d.put CLK_STAT_limit d.coreGoal.1

/-- CLOCK_STEP: one step of 25 MHz toward the goal; an upward one needs the voltage first (R414). -/
def Dev.clockStep (d : Dev) (reached : Bool) : Dev :=
  let f := d.get CLK_CORE_current
  let g := d.coreGoal.2
  if g < f then d.put CLK_CORE_current (max g (f - 25))
  else if f < g ∧ reached then d.put CLK_CORE_current (min g (f + 25))
  else d

def execClockStep (reached : Bool) (s : State) : Host.Outcome State Fault Refusal := s.onDev (fun d => d.clockStep reached)

/-! Voltage and droop (R324, R415, R416). -/

/-- The point of a hall's table for f_core: the first that is fast enough (log 22). -/
def Dev.vfPoint (d : Dev) (h : Nat) : Nat :=
  ((List.range 16).find? (fun p => decide (d.get CLK_CORE_current ≤ d.get (CAL_VF_freq h p)))).getD 15

/-- The voltage that a hall asks for, within its table point and its floor and ceiling voltage. -/
def Dev.hallVoltage (d : Dev) (h want : Nat) : Nat :=
  let p := d.vfPoint h
  let point := ((d.get (CAL_VF_mv h p) : Int) + d.delta 1 (h * 16 + p)).toNat
  max (d.get (CAL_VLIM_vmin h)) (min (min want point) (d.get (CAL_VLIM_vmax h)))

/-- VOLTAGE_UPDATE: the highest voltage of the die's ON halls goes to its rail, a fall by at most 5 mV.  Up to three frames are retried;
without a good response the die's loop has failed. -/
def Dev.voltageUpdate (d : Dev) (die : Nat) (want : List Nat) (failed status : Nat) : Dev :=
  let vs := ((List.range 4).filter (fun i => d.dom (4 * die + i) == 0)).map (fun i => d.hallVoltage (4 * die + i) (want.getD i 0))
  match vs with
  | [] => d
  | _ =>
    let mv := max (vs.foldl max 0) (d.get (CLK_AVS_mv die) - 5)
    let d1 := ((d.put (CLK_AVS_mv die) mv).emit (.voltage die mv)).bump (CLK_AVS_crc_fail die) (min failed 3)
    let was := bit (d.get PWR_STAT_vr_fail) die
    if 4 ≤ failed then
      let d2 := d1.put PWR_STAT_vr_fail (setBits (d.get PWR_STAT_vr_fail) die 1 1)
      if was then d2 else d2.raise 0x63 ⟨9, die, 0, 0, 0, 0⟩
    else
      let d2 := d1.put PWR_STAT_vr_fail (setBits (d.get PWR_STAT_vr_fail) die 1 0)
      if status = 0 then d2 else d2.put PWR_STAT_vr_status status

def execVoltageUpdate (die : BitVec 2) (want : List (BitVec 12)) (failed : BitVec 3) (status : BitVec 8) (s : State) :
    Host.Outcome State Fault Refusal :=
  s.onDev (fun d => d.voltageUpdate die.toNat (want.map BitVec.toNat) failed.toNat status.toNat)

/-- DROOP_TRIP: the event is counted; a stretched ck is one ck (R416). -/
def execDroopTrip (s : State) : Host.Outcome State Fault Refusal := s.onDev (fun d => d.bump CLK_STAT_stretch 1)

/-! The power cap and the thermal limit (R418 to R422). -/

/-- POWER_SAMPLE: the sample is recorded; above the cap, with no slew running, the cap limit falls, and at the floor PWR_STAT.over and
ALERT[1] set. -/
def Dev.powerSample (d : Dev) (w : Nat) : Dev :=
  let cap := d.get PWR_CAP_CFG_cap
  let f := d.get CLK_CORE_current
  let d1 := { d.put PWR_STAT_power w with calm := if w + d.get PWR_CAP_CFG_margin ≤ cap then d.calm + 1 else 0 }
  if w ≤ cap then d1
  else
    let d2 := if f = d.coreGoal.2 then { d1 with capLimit := down25 (f * cap / w) } else d1
    if f ≤ d.get CLK_CORE_floor then
      let d3 := (d2.put PWR_STAT_over 1).setAlert 2
      if d.get PWR_STAT_over = 1 then d3 else d3.raise 0x64 ⟨9, 0, 0, 0, 0, w⟩
    else d2

def execPowerSample (w : BitVec 12) (s : State) : Host.Outcome State Fault Refusal := s.onDev (fun d => d.powerSample w.toNat)

/-- CAP_LIMIT_RAISE: one step up after the 100 samples of 1 ms, and the condition is measured again. -/
def execCapLimitRaise (s : State) : Host.Outcome State Fault Refusal :=
  s.onDev (fun d => if 100 ≤ d.calm then { d with capLimit := min 1800 (d.capLimit + 25), calm := 0 } else d)

/-- The reading of a sensor with its calibration offset and overlay delta (R404, TEL_SENSOR). -/
def Dev.sensor (d : Dev) (s : Nat) (raw : BitVec 16) : Int :=
  raw.toInt + signed 16 (d.get (CAL_TSENS_offset s)) + d.delta 4 s

/-- The sensors take their readings; PWR_THERM.hottest is the largest of them all. -/
def Dev.readSensors (d : Dev) (raw : List (BitVec 16)) : Dev :=
  let d1 := (raw.take 64).zipIdx.foldl (fun d p => d.put (TEL_SENSOR_temp p.2) (wrap 16 (d.sensor p.2 p.1))) d
  d1.put PWR_THERM_hottest (wrap 16 ((List.range 64).foldl (fun m s => max m (signed 16 (d1.get (TEL_SENSOR_temp s))))
    (signed 16 (d1.get (TEL_SENSOR_temp 0)))))

/-- THERMAL_LIMIT_STEP: above throttle the limit falls one step at each 100 µs; below throttle − 3 °C it rises one step at each 1 ms. -/
def Dev.thermalStep (d : Dev) (raw : List (BitVec 16)) (slow : Bool) : Dev :=
  let d1 := d.readSensors raw
  let t := signed 16 (d1.get PWR_THERM_hottest)
  let limit : Int := 8 * d1.get PWR_THERM_throttle
  if slow then (if t < limit - 24 then { d1 with thermLimit := min 1800 (d1.thermLimit + 25) } else d1)
  else (if limit < t then { d1 with thermLimit := d1.thermLimit - 25 } else d1)

def execThermalLimitStep (raw : List (BitVec 16)) (slow : Bool) (s : State) : Host.Outcome State Fault Refusal :=
  s.onDev (fun d => d.thermalStep raw slow)

/-! The market bell (R424, R425). -/

/-- The wait kind of a core's record. -/
def waitKindOf (word : Nat) : Nat :=
  let op := word / 2 ^ 26
  if op = 0x31 then 1 else if op = 0x30 then 2 else if op = 0x34 ∨ op = 0x35 then 3 else if op = 0x39 then 4
  else if op = 0x38 ∨ op = 0x3E then 5 else 0

/-- The record of a core in the bell snapshot. -/
def Core.bellRecord (k : Core) (c : CoreId) (since : Nat) : BitVec 512 :=
  let word : Nat := match k.wait with | some x => x.word.toNat | none => 0
  let kind := waitKindOf word
  let ep := bits word 21 5
  let what : Nat × Nat × Nat := match k.wait with
    | some ⟨_, .counter n t, _⟩ => (n.toNat, (Tab.get (fun _ => 0) k.c n.toNat).toNat, t.toNat)
    | _ => if kind = 1 ∨ kind = 2 then (ep, k.get (CORE_EP_held ep) + k.get (CORE_EP_credits ep) * 2 ^ 16, 0) else (0, 0, 0)
  BitVec.ofNat 512 (ofBytes (toBytes 1 c.x.toNat ++ toBytes 1 c.y.toNat ++ toBytes 2 k.status ++ toBytes 4 k.fault.toBits ++ toBytes 2 k.pc
    ++ toBytes 1 kind ++ toBytes 1 what.1 ++ toBytes 2 k.rank.toNat ++ toBytes 4 what.2.1 ++ toBytes 4 what.2.2 ++ toBytes 4 k.step.toNat
    ++ toBytes 2 k.acct.window ++ toBytes 2 k.acct.lag ++ toBytes 4 (sat 32 since)))

/-- Whether the bell of a job is armed. -/
def Dev.bellArmed (d : Dev) (id : BitVec 16) (j : Job) : Bool :=
  d.get WARD_BELL_CFG_ms != 0 && ((d.jobCores id).any (fun c => (d.core c).run == .run && (d.core c).acct.openWin) || j.launch.isSome)

/-- BELL_FIRE: the cores are frozen, the snapshot is taken, the fault log gains a summary, and the job is killed with JOB_LOST.  The records
of the job's context in 32 Porters and 16 Clerks and of WARD_STEP_GATE have no stated layout and are free values (log 1). -/
def Dev.bellFire (d : Dev) (id : BitVec 16) (since : List (BitVec 32)) : Dev :=
  match d.job id with
  | none => d
  | some j =>
    if d.bellArmed id j = false ∨ j.phase ≠ .live then d
    else
      let recs := (d.jobCores id).zipIdx.map (fun p => (d.core p.1).bellRecord p.1 ((since[p.2]?).getD 0).toNat)
      let (v, d3) := d.free
      let rest := (List.range (if j.ctx.isSome then 49 else 1)).map (fun i => BitVec.ofNat 512 (v / 2 ^ (512 * i)))
      let d4 := { d3 with snapshot := recs ++ rest, faultLog := d3.faultLog ++ [FaultEntry.bell id j.gen d.ms] }
      let d5 := (((d4.put WARD_BELL_STAT_job id.toNat).put WARD_BELL_STAT_jgen j.gen.toNat).put WARD_BELL_STAT_fired 1).bump WARD_BELL_STAT_count 1
      (d5.setJob id (some { j with frozen := true })).raise 0x61 ⟨9, 0, id, j.gen, j.step, 0⟩

def execBellFire (job : BitVec 16) (since : List (BitVec 32)) (s : State) : Host.Outcome State Fault Refusal :=
  s.onDev (fun d => d.bellFire job since)

end Sys2Proof.Machine
end

