-- ==== Sys2Proof/Machine/Command.lean ====
section
/-! DEFINITION. The frame of a command's work, and the device, memory and quota commands (R310, R333, R336, R341, R343, R387, R410, R474). -/

namespace Sys2Proof.Machine

/-! The frame (R331, R333, R340, R343). -/

/-- Status, detail and result of a reply. -/
abbrev Reply := Nat × Nat × Nat

/-- Runs the work of command `n`: `f` answers the reply, or none while the command waits.  A delegated command leaves its reply to
DELEGATE_RESULT.  A command whose resources have gone since it started waits again or is refused (R340). -/
def Dev.runCmd (d : Dev) (n op : Nat) (f : Dev → Cmd → Option Reply × Dev) : Dev :=
  match d.cmd n with
  | none => d
  | some c =>
    if c.opcode ≠ op then d
    else match c.phase with
      | .started =>
        match (if op = 0x0201 ∨ op = 0x0101 then d.lacks c else none) with
        | some cls => d.noResource c cls
        | none => match f d c with
          | (some r, d1) => d1.reply c r.1 r.2.1 r.2.2
          | (none, d1) => d1
      | .delegated _ => (f d c).2
      | _ => d

/-- The replies that carry nothing: done, a status with a detail. -/
def ok (result : Nat) : Option Reply := some (0, 0, result)
def fail (status detail : Nat) : Option Reply := some (status, detail, 0)

/-- Work on the command's job, which is gone only if the job ended after the command started. -/
def Dev.withJob (d : Dev) (c : Cmd) (f : Job → Option Reply × Dev) : Option Reply × Dev :=
  match d.job c.job with
  | some j => f j
  | none => (fail 8 0, d)

/-- Goes on once domains are ON; until then they are woken and the command waits (R410). -/
def Dev.whenOn (d : Dev) (ns : List Nat) (f : Dev → Option Reply × Dev) : Option Reply × Dev :=
  if d.allOn ns then f d else (none, d.wake ns)

/-- The domain of a device page's stack. -/
def Dev.stackDomain (d : Dev) (page : Nat) : Nat := 80 + page / d.usablePages

/-! Device. -/

/-- NOP. -/
def execNop (n : Nat) (s : State) : Host.Outcome State Fault Refusal := s.onDev (fun d => d.runCmd n 0x0000 (fun d _ => (ok 0, d)))

/-- DEV_INFO: FUSE_GRADE, DEVNUM, the Naeno version and WARD_ACTIVE, whose takeovers the read clears (R8). -/
def execDevInfo (n : Nat) (s : State) : Host.Outcome State Fault Refusal :=
  s.onDev (fun d => d.runCmd n 0x0001 (fun d _ =>
    (ok (d.reg FUSE_GRADE_grade.key % 2 ^ 32 + d.devnum.toNat * 2 ^ 32 + d.firmware.toNat * 2 ^ 64 + d.reg WARD_ACTIVE_die.key % 2 ^ 32 * 2 ^ 128), d.put WARD_ACTIVE_takeovers 0)))

/-- SET_DEVNUM: refused BUSY while any job exists. -/
def execSetDevnum (n : Nat) (s : State) : Host.Outcome State Fault Refusal :=
  s.onDev (fun d => d.runCmd n 0x0002 (fun d c =>
    if d.jobIds.isEmpty then (ok 0, { d with devnum := BitVec.ofNat 18 (c.par 0 4) }) else (fail 1 3, d)))

/-! Pages (R209, R310, R341, R474). -/

/-- A page table entry (R209). -/
def pteWord (job : BitVec 16) (pr pw coh : Bool) (stack page : Nat) : Nat :=
  1 + pr.toNat * 2 + pw.toNat * 4 + coh.toNat * 8 + page % 2 ^ 17 * 2 ^ 16 + stack % 8 * 2 ^ 33 + job.toNat * 2 ^ 48

/-- Maps a virtual page of a job to a device page. -/
def Dev.mapPage (d : Dev) (id : BitVec 16) (j : Job) (flags v n : Nat) : Dev :=
  d.writeHbm (j.table + 8 * v) 8 (pteWord id (bit flags 0) (bit flags 1) (bit flags 2) (n / d.usablePages) (n % d.usablePages))

/-- MEM_ALLOC: the lowest free pages of the masked stacks, in order (R474).  The first page of a grant of none is a free value (log 1). -/
def Dev.memAlloc (d : Dev) (c : Cmd) : Option Reply × Dev :=
  d.withJob c (fun j =>
    match d.allocError c j with
    | some e => (fail e.1 e.2, d)
    | none =>
      let pages := d.freePages (c.par 8 1) (c.par 4 4)
      d.whenOn ((List.range 8).map (· + 80) |>.filter (fun n => pages.any (fun p => d.stackDomain p == n))) (fun d =>
        let d1 := pages.zipIdx.foldl (fun d p => d.mapPage c.job j (bits (c.par 8 4) 8 3) (c.par 0 4 + p.2) p.1) d
        let d2 := d1.setJob c.job (some { j with pages := j.pages ++ pages })
        match pages with
        | p :: _ => (ok p, d2)
        | [] => let (v, d3) := d2.free; (ok (v % 2 ^ 32), d3)))

def execMemAlloc (n : Nat) (s : State) : Host.Outcome State Fault Refusal := s.onDev (fun d => d.runCmd n 0x0101 Dev.memAlloc)

/-- The lines of device pages leave the coherence fabric. -/
def Dev.purge (d : Dev) (pages : List Nat) : Dev :=
  let out := fun (line : Nat) => !(pages.contains (d.pageOf (line * 64)))
  d.setCoh { d.coh with dir := d.coh.dir.filter (fun p => out p.1), snoops := d.coh.snoops.filter (fun s => out s.line),
                        replies := d.coh.replies.filter (fun r => out r.snoop.line), waits := d.coh.waits.filter (fun w => out w.line),
                        buffer := d.coh.buffer.filter (fun e => out e.line), stale := d.coh.stale.filter (fun s => out s.line) }

/-- Device pages are written zero with no poison, and leave every holder first (R386, R387). -/
def Dev.scrubPages (d : Dev) (pages : List Nat) : Dev :=
  pages.foldl (fun d n => d.zeroHbm (d.pageAddr n) (2 ^ 21)) (d.purge pages)

/-- MEM_FREE: the mapped pages of the range are unmapped, scrubbed and free (R341, R387). -/
def Dev.memFree (d : Dev) (c : Cmd) : Option Reply × Dev :=
  d.withJob c (fun j =>
    let first := c.par 0 4
    let vs := (List.range (min (first + c.par 4 4) (2 ^ 19) - first)).map (· + first) |>.filter (fun v => (d.pte j.table v).valid)
    let pages := vs.map (fun v => (d.pte j.table v).stack * d.usablePages + (d.pte j.table v).page)
    let d1 := vs.foldl (fun d v => d.writeHbm (j.table + 8 * v) 8 0) (d.closeWindows pages)
    (ok 0, (d1.scrubPages pages).setJob c.job (some { j with pages := j.pages.filter (fun p => !(pages.contains p)) })))

def execMemFree (n : Nat) (s : State) : Host.Outcome State Fault Refusal := s.onDev (fun d => d.runCmd n 0x0102 Dev.memFree)

/-! Bulk work (R336, R343). -/

/-- Whether a span of a job's memory is mapped to pages of the job. -/
def Dev.mapped (d : Dev) (id : BitVec 16) (j : Job) (va n : Nat) : Bool :=
  decide (va + n ≤ 2 ^ 40) && (pagesOf va n).all (fun v => (d.pte j.table v).valid && (d.pte j.table v).job == id.toNat)

/-- MEM_FILL: an 8-byte pattern, from the first byte on. -/
def Dev.memFill (d : Dev) (c : Cmd) : Option Reply × Dev :=
  d.withJob c (fun j =>
    let n := c.par 8 8
    if d.mapped c.job j (c.par 0 8) n = false then (fail 3 16, d)
    else (ok 0, d.virtWrite j.table (c.par 0 8) ((List.range n).map (fun i => BitVec.ofNat 8 (bits (c.par 16 8) (8 * (i % 8)) 8)))))

def execMemFill (n : Nat) (s : State) : Host.Outcome State Fault Refusal := s.onDev (fun d => d.runCmd n 0x0103 Dev.memFill)

/-- MEM_COPY: the bytes that the source holds when the copy begins (log 23); a poisoned line marks what it is copied to (R430). -/
def Dev.memCopy (d : Dev) (c : Cmd) : Option Reply × Dev :=
  d.withJob c (fun j =>
    let n := c.par 16 8
    if d.mapped c.job j (c.par 0 8) n = false then (fail 3 16, d)
    else if d.mapped c.job j (c.par 8 8) n = false then (fail 3 24, d)
    else
      let d1 := d.virtWrite j.table (c.par 8 8) (d.virtBytes j.table (c.par 0 8) n).1
      (ok 0, (List.range n).foldl (fun e i =>
        if d.linePoisoned (d.translate j.table (c.par 0 8 + i)) then e.virtMark j.table (c.par 8 8 + i) 1 else e) d1))

def execMemCopy (n : Nat) (s : State) : Host.Outcome State Fault Refusal := s.onDev (fun d => d.runCmd n 0x0104 Dev.memCopy)

/-! Windows and quotas (R310, R341). -/

/-- The device pages of the jobs whose queue belongs to a function. -/
def Dev.functionPages (d : Dev) (f : Nat) : List Nat :=
  d.jobIds.flatMap (fun i => match d.job i with
    | some j => if d.get (WARD_Q_loc j.owner.toNat) = 0 ∧ d.get (WARD_Q_func j.owner.toNat) = f then j.pages else []
    | none => [])

/-- WIN_SET. -/
def Dev.winSet (d : Dev) (c : Cmd) : Option Reply × Dev :=
  let f := c.par 0 4
  let start := c.par 4 4
  let n := c.par 8 4
  if 15 < f then (fail 3 16, d)
  else if 2 ^ 16 ≤ n then (fail 3 24, d)
  else if (List.range n).any (fun i => !((d.functionPages f).contains (start + i))) then (fail 0xA 2, d)
  else (ok 0, (d.put (PCIE_WIN_start f) start).put (PCIE_WIN_pages f) n)

def execWinSet (n : Nat) (s : State) : Host.Outcome State Fault Refusal := s.onDev (fun d => d.runCmd n 0x0105 Dev.winSet)

/-- QUOTA_SET: it applies to later grants only (R341). -/
def Dev.quotaSet (d : Dev) (c : Cmd) : Option Reply × Dev :=
  d.withJob c (fun j => (ok j.pages.length, d.setJob c.job (some { j with quota := c.par 0 4 })))

def execQuotaSet (n : Nat) (s : State) : Host.Outcome State Fault Refusal := s.onDev (fun d => d.runCmd n 0x0106 Dev.quotaSet)

end Sys2Proof.Machine
end

