-- ==== Sys2Proof/Machine/CmdJob.lean ====
section
/-! DEFINITION. The job commands: creation, image load, launches, verdict, kill and its phases, release, status, partial reset, plans
(R119, R121, R124, R158, R187, R232, R233, R253, R273, R302, R336 to R340, R348, R357 to R361, R378, R382, R386 to R391, R409, R421). -/

namespace Sys2Proof.Machine

/-! JOB_CREATE (R389). -/

/-- The generation after the last one of an ID. -/
def nextGen (last : Nat) : Nat := if last = 255 then 1 else last + 1

/-- WARD_JOB_NEXT after a JOB_CREATE: the lowest free ID out of quiet, and the generation after its last. -/
def Dev.nextJob (d : Dev) : Dev :=
  match (List.range 65535).find? (fun i => (d.job (BitVec.ofNat 16 (i + 1))).isNone && !(d.quiet.contains (BitVec.ofNat 16 (i + 1)))) with
  | some i => (d.put WARD_JOB_NEXT_id (i + 1)).put WARD_JOB_NEXT_gen (nextGen (Tab.get (fun _ => 0) d.lastGen (i + 1)))
  | none => d

/-- A job as it is created. -/
def Job.create (gen : BitVec 8) (owner : BitVec 6) (a2 : Bool) (quota : Nat) (halls : BitVec 16) (table power : Nat) : Job where
  gen := gen
  owner := owner
  a2 := a2
  phase := .live
  hold := false
  killer := none
  quota := quota
  halls := halls
  tiers := 0
  table := table
  pages := []
  ctx := none
  image := none
  loads := 0
  variant := 0
  plan := 0
  nextPlan := none
  seed := 0
  step := 0
  running := false
  fresh := true
  turns := 0
  launch := none
  digest := 0
  starts := 0
  wasReset := false
  firstFault := none
  lost := []
  skipped := []
  shut := false
  updates := []
  frozen := false
  unlock := none
  rejoin := none
  pause := false
  sums := []
  power := power

/-- JOB_CREATE: the ID and generation of WARD_JOB_NEXT, a page table on a stack that is ON, the halls and their power budget. -/
def Dev.jobCreate (d : Dev) (c : Cmd) : Option Reply × Dev :=
  let places := d.tablePlaces
  let on := places.filter (fun n => d.dom (d.stackDomain n) == 0)
  match (d.choose (if on.isEmpty then places else on)) with
  | (none, d1) => (none, d1)
  | (some page, d1) =>
    d1.whenOn [d1.stackDomain page] (fun d =>
      let id : BitVec 16 := BitVec.ofNat 16 (d.get WARD_JOB_NEXT_id)
      let gen := d.get WARD_JOB_NEXT_gen
      let halls : BitVec 16 := BitVec.ofNat 16 (c.par 4 2)
      let j := Job.create (BitVec.ofNat 8 gen) c.queue (d.get (WARD_Q_a2 c.queue.toNat) == 1) (c.par 0 4) halls (d.pageAddr page)
        (d.hallPower halls.toNat)
      let d2 := { d.setJob id (some j) with lastGen := Tab.set (fun _ => 0) d.lastGen id.toNat gen }
      (ok (id.toNat + gen * 2 ^ 16), (d2.wake ((List.range 16).filter (bit halls.toNat))).nextJob))

def execJobCreate (n : Nat) (s : State) : Host.Outcome State Fault Refusal := s.onDev (fun d => d.runCmd n 0x0201 Dev.jobCreate)

/-! IMAGE_LOAD (R302, R338). -/

/-- The entries of a manifest as (DEVNUM, digest); none when the manifest is too short or its entries do not rise strictly. -/
def manifestEntries (bs : List Byte) : Option (List (Nat × List Byte)) :=
  let n := at_ bs 8 4
  let es := (List.range n).map (fun i => (at_ bs (16 + 36 * i) 4, (bs.drop (20 + 36 * i)).take 32))
  if bs.take 8 = [0x45, 0x46, 0x5A, 0x4D, 0x41, 0x4E, 0x49, 0x46] ∧ 16 + 36 * n ≤ bs.length ∧
      (es.map (·.1)).Pairwise (fun a b => a < b) then some es else none

/-- The bank words of a router that uses one bank. -/
def oneBank (r : Sys2Proof.RouteLoad) : Bool := r.bankA == r.bankB

/-- Whether an image uses a single bank (R158). -/
def singleBank (im : Image) : Bool := im.sets.all (fun s => s.routes.all oneBank)

/-- Whether another job's image holds a user program that differs in the same slot (R233). -/
def Dev.programClash (d : Dev) (id : BitVec 16) (im : Image) : Bool :=
  d.jobIds.any (fun i => i != id && (d.job i).any (fun j => j.image.any (fun other =>
    im.programs.any (fun p => other.programs.any (fun q => q.1 == p.1 && q.2 != p.2)))))

/-- Why an image is refused, with the manifest's bytes (R158, R232, R233, R338). -/
def Dev.imageError (d : Dev) (id : BitVec 16) (j : Job) (im : Image) (manifest : List Byte) : Option (Nat × Nat) :=
  if j.running && !(d.allHalted id) then some (1, 3)
  else match manifestEntries manifest with
    | none => some (3, 32)
    | some es =>
      match es.find? (fun e => e.1 == d.devnum.toNat) with
      | none => some (7, 0)
      | some e =>
        if e.2 ≠ sha256 im.bytes then some (7, 0)
        else if im.programs.any (fun p => decide (p.1.toNat < 7) || !(programOk p.2)) then some (3, 16)
        else if d.programClash id im then some (1, 3)
        else if singleBank im = false ∧ d.get MESH_EPOCH_CTL_owner_valid = 1 ∧ d.ownsEpoch id j.gen = false then some (1, 3)
        else none

/-- The domains that an image's resources lie in: stock tiers, optical engines, Broker complexes. -/
def imageDomains (im : Image) : List Nat :=
  ((List.range 64).filter (bit im.tiers.toNat)).map (· + 16)
    ++ ((List.range 8).filter (fun e => (imagePorts im).any (fun p => p.1 / 12 == e))).map (· + 88)
    ++ ((List.range 4).filter (fun c => im.loader.any (fun l => l.1.toNat == c) || im.orchestrator.any (fun l => l.toNat == c))).map (· + 96)

/-- The Porter and Clerk contexts of a job (R209, R216, R221, R227, R348); the fence entries of the context are cleared. -/
def Dev.loadContexts (d : Dev) (id : BitVec 16) (j : Job) (im : Image) (x : Nat) : Dev :=
  let d1 := (List.range 32).foldl (fun d p =>
    let d1 := ((((d.put (PORTER_CTX_valid p x) 1).put (PORTER_CTX_a2 p x) j.a2.toNat).put (PORTER_CTX_jgen p x) j.gen.toNat).put
      (PORTER_CTX_job p x) id.toNat).put (PORTER_PTBASE_base p x) (j.table / 2 ^ 22)
    (List.range 16).foldl (fun d i => d.put (PORTER_POOL_credits p x i) ((((im.pools[p]?).getD [])[i]?).getD 0).toNat) d1) d
  let d2 := (List.range 16).foldl (fun d k => d.setReg (CLERK_CTX_stbase k x).key ((im.clerks[k]?).getD 0).toNat) d1
  { d2 with fences := (List.range 8).foldl (fun t s => Tab.clear t (fenceKey s x 0) 4096) d2.fences }

/-- A complex gives a free slot to a job's loader or orchestrator, unless it holds one (R359). -/
def Dev.bindSlot (d : Dev) (u : SlotUse) (complex : Option Nat) : Dev :=
  match complex with
  | none => d
  | some c =>
    if (List.range 16).any (fun i => (Tab.get (fun _ => Slot.reset) d.slots i).use == some u) then d
    else match d.choose (d.freeSlots c) with
      | (some i, d1) => d1.setSlot i (some u)
      | (none, d1) => d1

/-- What an image loads: contexts, user programs, step skip, peer queues, epoch owner, slots, and the set of variant 0 in the ring plan
(log 24). -/
def Dev.takeImage (d : Dev) (id : BitVec 16) (j : Job) (im : Image) (digest : BitVec 256) (x : Nat) : Dev :=
  let d1 := d.loadContexts id j im x
  let d2 := { d1 with clerkPrograms := im.programs.foldl (fun t (p : BitVec 4 × List (BitVec 32)) => Tab.set (fun _ => []) t p.1.toNat p.2) d1.clerkPrograms }
  let d3 := (d2.setReg CLERK_SKIP_en.key im.skip.toNat)
  let d4 := im.peers.foldl (fun (d : Dev) (q : BitVec 6 × BitVec 64) =>
    if 48 ≤ q.1.toNat ∧ q.1.toNat < 63 then d.setReg (WARD_Q_en q.1.toNat).key (setBits (d.reg (WARD_Q_en q.1.toNat).key) 0 64 q.2.toNat) else d) d3
  let d5 := if singleBank im then d4
    else ((d4.put MESH_EPOCH_CTL_owner_valid 1).put MESH_EPOCH_CTL_owner_job id.toNat).put MESH_EPOCH_CTL_owner_gen j.gen.toNat
  let d6 := (d5.bindSlot (.loader id j.gen) (im.loader.map (fun (l : BitVec 2 × BitVec 2048) => l.1.toNat))).bindSlot (.orchestrator id j.gen)
    (im.orchestrator.map BitVec.toNat)
  let j1 := { j with image := some im, ctx := some x, tiers := im.tiers, loads := (if j.image.isSome then j.loads + 1 else j.loads) % 256,
                     digest := digest, variant := 0, plan := 0, nextPlan := none, fresh := true }
  match im.sets.find? (fun s => s.variant == 0 && s.plan == 0) with
  | some s => (d6.loadSet id j1 im s).setJob id (some j1)
  | none => d6.setJob id (some j1)

/-- Keeps the image of a command that waits. -/
def Dev.keepImage (d : Dev) (n : Nat) (im : Image) : Dev :=
  { d with cmds := d.cmds.map (fun c => if c.n = n then { c with img := some im } else c) }

/-- IMAGE_LOAD. -/
def Dev.imageLoad (d : Dev) (n : Nat) (img : Image) : Dev :=
  match d.cmd n with
  | none => d
  | some c0 =>
    if c0.opcode ≠ 0x0202 ∨ c0.phase ≠ .started then d
    else
      let im := c0.img.getD img
      let c := { c0 with img := some im }
      match d.job c.job with
      | none => d.reply c 8 0 0
      | some j =>
        let manifest := (d.virtBytes j.table (c.par 16 8) (c.par 24 4)).1
        match d.imageError c.job j im manifest with
        | some e => d.reply c e.1 e.2 0
        | none =>
          let d1 := d.keepImage n im
          match d1.lacks c with
          | some cls => d1.noResource c cls
          | none =>
            match (match j.ctx with | some x => (some x, d1) | none => d1.choose (d1.freeCtxs c.job)) with
            | (none, d2) => d2
            | (some x, d2) =>
              if d2.allOn (imageDomains im) = false then d2.wake (imageDomains im)
              else if d2.inFlight c.job j.gen then d2
              else
                let digest := BitVec.ofNat 256 (ofBytes (sha256 manifest))
                (d2.takeImage c.job j im digest x).reply c 0 0 (ofBytes ((sha256 im.bytes).take 16))

def execImageLoad (n : Nat) (img : Image) (s : State) : Host.Outcome State Fault Refusal := s.onDev (fun d => d.imageLoad n img)

/-! Launches (R187, R253, R272, R337). -/

/-- JOB_START and STEP_LAUNCH: the checks in the order of log 25, and acceptance. -/
def Dev.launch (d : Dev) (n : Nat) (c : Cmd) (first : Bool) : Dev :=
  let off := if first then 8 else 4
  let step : BitVec 32 := BitVec.ofNat 32 (c.par (if first then 4 else 0) 4)
  let dyn := (List.range 7).map (fun i => c.par (off + 2 * i) 2)
  match d.job c.job with
  | none => d.reply c 8 0 0
  | some j =>
    match j.image with
    | none => d.reply c 3 6 0
    | some im =>
      if j.launch.isSome then (d.bump WARD_STEP_REFUSED_count 1).reply c 1 2 0
      else if first = false ∧ step ≠ j.step + 1 then d.reply c 3 16 0
      else match selectVariant im dyn (16 + off) with
        | .inl e => (if e.1 = 6 then d.bump WARD_BUCKET_REJ_count 1 else d).reply c e.1 e.2 0
        | .inr v =>
          if d.planMissing j step then (d.bump WARD_STEP_REFUSED_count 1).reply c 1 3 0
          else
            let l : Launch := ⟨n, first, step, dyn.map (BitVec.ofNat 16), v⟩
            let d1 := (d.setPhase n .launched).setJob c.job (some { j with
              launch := some l, seed := if first then BitVec.ofNat 32 (c.par 0 4) else j.seed, starts := if first then 0 else j.starts })
            let d2 := { d1.put WARD_STEP_GATE_pending 1 with gateJob := c.job }
            if first then
              match d2.loaderOf c.job j.gen, im.loader with
              | some i, some x => d2.slotEvent i (.config x.2)
              | _, _ => d2
            else d2

/-- Runs a launch that has started its turn. -/
def Dev.runLaunch (d : Dev) (n op : Nat) (first : Bool) : Dev :=
  match d.cmd n with
  | none => d
  | some c => if c.opcode = op ∧ c.phase = .started then d.launch n c first else d

def execJobStart (n : Nat) (s : State) : Host.Outcome State Fault Refusal := s.onDev (fun d => d.runLaunch n 0x0301 true)
def execStepLaunch (n : Nat) (s : State) : Host.Outcome State Fault Refusal := s.onDev (fun d => d.runLaunch n 0x0302 false)

/-- STEP_VERDICT. -/
def Dev.stepVerdict (d : Dev) (c : Cmd) : Option Reply × Dev :=
  let v := c.par 4 4
  if d.get CLERK_SKIP_ext = 0 then (fail 3 16, d)
  else if v ≠ 1 ∧ v ≠ 2 then (fail 3 20, d)
  else (ok 0, d.decideVerdict (BitVec.ofNat 32 (c.par 0 4)) v)

def execStepVerdict (n : Nat) (s : State) : Host.Outcome State Fault Refusal := s.onDev (fun d => d.runCmd n 0x0303 Dev.stepVerdict)

/-! Kill and release (R124, R386 to R390). -/

/-- JOB_KILL: the stop phase; the reply comes with the release, or when a held job has drained. -/
def Dev.jobKill (d : Dev) (c : Cmd) : Option Reply × Dev :=
  d.withJob c (fun _ => (none, d.killJob c.job (bit (c.par 0 4) 0) (some c.n)))

def execJobKill (n : Nat) (s : State) : Host.Outcome State Fault Refusal := s.onDev (fun d => d.runCmd n 0x0304 Dev.jobKill)

/-- WARD_KILL_STAT.phase follows the job that it names. -/
def Dev.killPhase (d : Dev) (id : BitVec 16) (p : Nat) : Dev :=
  if d.get WARD_KILL_STAT_job = id.toNat then d.put WARD_KILL_STAT_phase p else d

/-- The reply to the command that a job's kill or release answers. -/
def Dev.replyKiller (d : Dev) (j : Job) : Dev :=
  match j.killer.bind d.cmd with
  | some c => d.reply c 0 0 0
  | none => d

/-- Whether a killed job has drained: injection buffers, Porter transfers and the errand network (R386). -/
def Dev.killDrained (d : Dev) (id : BitVec 16) (j : Job) : Bool :=
  (d.jobCores id).all (fun c => (d.core c).inj.isEmpty) && !(d.transferring id) && !(d.inFlight id j.gen)

/-- KILL_DRAIN_END: the SRAM scrub begins, or the job is held, and the replies that waited for the drain go out (R339). -/
def Dev.killDrainEnd (d : Dev) (id : BitVec 16) : Dev :=
  match d.job id with
  | none => d
  | some j =>
    if j.phase ≠ .drain ∨ d.killDrained id j = false then d
    else if j.hold then (((d.setJob id (some { j with phase := .held, killer := none })).killPhase id 6).replyDone id).replyKiller j
    else ((d.setJob id (some { j with phase := .sram })).killPhase id 3).replyDone id

def execKillDrainEnd (job : BitVec 16) (s : State) : Host.Outcome State Fault Refusal := s.onDev (fun d => d.killDrainEnd job)

/-- The scrub of a core: WM, AM, PM and the tiers of its mask read as zero with no poison (R124). -/
def Core.scrub (k : Core) : Core :=
  (regions.filter (fun r => r.1 != 3 && !(k.offMask r.1))).foldl (fun k r =>
    { k with mem := Memory.zero k.mem r.2.1 r.2.2, poison := Tab.clear k.poison (r.2.1 / 64) (r.2.2 / 64) }) k

/-- SRAM_SCRUB_END: every core has scrubbed its memories, and the HBM scrub begins. -/
def Dev.sramScrubEnd (d : Dev) (id : BitVec 16) : Dev :=
  match d.job id with
  | none => d
  | some j =>
    if j.phase ≠ .sram then d
    else (((d.jobCores id).foldl (fun d c => d.upd c Core.scrub) d).setJob id (some { j with phase := .hbm })).killPhase id 4

def execSramScrubEnd (job : BitVec 16) (s : State) : Host.Outcome State Fault Refusal := s.onDev (fun d => d.sramScrubEnd job)

/-- The routers of a job's schedule no longer run it. -/
def Dev.freeRouters (d : Dev) (id : BitVec 16) (gen : BitVec 8) : Dev :=
  { d with routers := d.routers.filter (fun p => !(p.2.job == id && p.2.jgen == gen)) }

/-- The ports and flows of a job's image are free (R340). -/
def Dev.freePorts (d : Dev) (im : Image) : Dev :=
  let d1 := (imagePorts im).foldl (fun d f => d.put (LINK_FLOW_valid f.1 f.2) 0) d
  (im.sets.flatMap (fun s => s.ports.map (fun p => p.1.toNat))).foldl (fun d p => d.put (LINK_PORT_CFG_valid p) 0) d1

/-- The contexts of a job are invalid (R386). -/
def Dev.freeContext (d : Dev) (x : Nat) : Dev :=
  let d1 := (List.range 32).foldl (fun d p => d.put (PORTER_CTX_valid p x) 0) d
  (List.range 16).foldl (fun d k => d.setReg (CLERK_CTX_stbase k x).key 0) d1

/-- The release phase: resources in descending class order, then the quiet period of the ID, the reply, and the idle states when it was the last
job (R386, R390, R423). -/
def Dev.releaseJob (d : Dev) (id : BitVec 16) (j : Job) : Dev :=
  let mine := fun (u : Option SlotUse) => u == some (.loader id j.gen) || u == some (.orchestrator id j.gen)
  let d1 := (List.range 16).foldl (fun d i => if mine (Tab.get (fun _ => Slot.reset) d.slots i).use then d.setSlot i none else d) d
  let d2 := match j.image with
    | some im => im.peers.foldl (fun (d : Dev) (q : BitVec 6 × BitVec 64) => if 48 ≤ q.1.toNat ∧ q.1.toNat < 63 then d.put (WARD_Q_en q.1.toNat) 0 else d) (d1.freePorts im)
    | none => d1
  let d3 := match j.ctx with | some x => d2.freeContext x | none => d2
  let d4 := ((d3.freeRouters id j.gen).unbindCores id).killPhase id 0
  let d5 := if d4.ownsEpoch id j.gen then { d4.put MESH_EPOCH_CTL_owner_valid 0 with turn := none } else d4
  let d6 := { d5.setJob id none with receipts := d5.receipts.filter (fun r => r.job != id), quiet := d5.quiet ++ [id] }
  ((d6.replyKiller j).showUnlock).idlePower

/-- HBM_SCRUB_END: the pages of the job and its page table are zero, and the job is released. -/
def Dev.hbmScrubEnd (d : Dev) (id : BitVec 16) : Dev :=
  match d.job id with
  | none => d
  | some j =>
    if j.phase ≠ .hbm then d
    else
      let p := d.pageOf j.table
      (d.scrubPages (p :: (p + 1) :: j.pages)).releaseJob id j

def execHbmScrubEnd (job : BitVec 16) (s : State) : Host.Outcome State Fault Refusal := s.onDev (fun d => d.hbmScrubEnd job)

/-- QUIET_END: the ID is reusable (R390). -/
def execQuietEnd (job : BitVec 16) (s : State) : Host.Outcome State Fault Refusal :=
  s.onDev (fun d => { d with quiet := d.quiet.filter (· != job) })

/-- JOB_RELEASE: a held job is scrubbed and released. -/
def Dev.jobRelease (d : Dev) (c : Cmd) : Option Reply × Dev :=
  d.withJob c (fun j =>
    if j.phase = .held then (none, (d.setJob c.job (some { j with phase := .sram, killer := some c.n })).killPhase c.job 3)
    else (fail 3 6, d))

def execJobRelease (n : Nat) (s : State) : Host.Outcome State Fault Refusal := s.onDev (fun d => d.runCmd n 0x0305 Dev.jobRelease)

/-! JOB_STATUS, CORE_RESET, PLAN_LOAD (R273, R336, R378 to R382). -/

/-- JOB_STATUS; a RANK_FAULT names the core that raised it (R334). -/
def Dev.jobStatus (d : Dev) (c : Cmd) : Option Reply × Dev :=
  d.withJob c (fun j =>
    let g := { d with gateJob := c.job }.showGate
    let running := ((d.jobCores c.job).filter (fun x => (d.core x).counts)).length
    let gate := setBits (setBits (g.reg WARD_STEP_GATE_running.key) WARD_STEP_GATE_running.lo WARD_STEP_GATE_running.w running)
      WARD_STEP_GATE_pending.lo 1 j.launch.isSome.toNat
    let bucket := match j.image with
      | some im => (d.showVariant im j.variant).reg WARD_BUCKET_STAT_variant.key
      | none => 0
    match j.firstFault with
    | some (x, 6) => (fail 0xD (x.x.toNat + 256 * x.y.toNat), d)
    | f =>
      let core := match f with | some (x, code) => x.x.toNat + 256 * x.y.toNat + code * 2 ^ 16 | none => 0
      (ok (j.step.toNat + gate % 2 ^ 32 * 2 ^ 32 + bucket % 2 ^ 32 * 2 ^ 64 + core * 2 ^ 96), d))

def execJobStatus (n : Nat) (s : State) : Host.Outcome State Fault Refusal := s.onDev (fun d => d.runCmd n 0x0306 Dev.jobStatus)

/-- The cores of a reset unit: a core, its arcade, its hall. -/
def Dev.resetUnit (d : Dev) (scope : Nat) (c : CoreId) : List CoreId :=
  let a := arcadeOf c.x.toNat c.y.toNat
  let h := d.hallOf c.x.toNat c.y.toNat
  if scope = 0 then [c]
  else if scope = 1 then d.allCores.filter (fun x => arcadeOf x.x.toNat x.y.toNat == a)
  else d.hallCores h

/-- An arcade controller and its check engine are reset: the request queue is empty. -/
def Dev.resetArcade (d : Dev) (a : Nat) : Dev :=
  let x := Tab.get (fun _ => Arcade.reset) d.arcades a
  { d with arcades := Tab.set (fun _ => Arcade.reset) d.arcades a { Arcade.reset with working := x.working } }

/-- The stop of a unit: its cores, and from scope 1 on its arcades.  During a step the step is lost (R382). -/
def Dev.resetCores (d : Dev) (c : Cmd) (j : Job) (scope : Nat) (x : CoreId) : Dev :=
  let unit := d.resetUnit scope x
  let during := j.running && !(d.allHalted c.job)
  let d1 := (unit.filter (fun y => (d.core y).image.present)).foldl Dev.stopCore d
  let d2 := if scope = 0 then d1 else unit.foldl (fun d y => d.resetArcade (arcadeOf y.x.toNat y.y.toNat)) d1
  if during then
    (d2.updJob c.job (fun j => { j with wasReset := true })).raise 0x31 
      ⟨if scope = 1 then 1 else 0, if scope = 1 then arcadeUnit (arcadeOf x.x.toNat x.y.toNat) else x.x.toNat + 256 * x.y.toNat,
        c.job, j.gen, j.step, 0⟩
  else d2

/-- Sets how far the work of a command has come. -/
def Dev.setStage (d : Dev) (n k : Nat) : Dev :=
  { d with cmds := d.cmds.map (fun c => if c.n = n then { c with stage := k } else c) }

/-- CORE_RESET: replied when every covered core is in RESET and its injection buffer is empty. -/
def Dev.coreReset (d : Dev) (c : Cmd) : Option Reply × Dev :=
  d.withJob c (fun j =>
    let scope := c.par 0 1
    let x : CoreId := ⟨BitVec.ofNat 8 (c.par 1 1), BitVec.ofNat 8 (c.par 2 1)⟩
    if 2 < scope then (fail 3 16, d)
    else if (d.jobCores c.job).contains x = false then (fail 3 17, d)
    else
      let d1 := if c.stage = 0 then (d.setStage c.n 1).resetCores c j scope x else d
      if (d1.resetUnit scope x).all (fun y => (d1.core y).inj.isEmpty) then (ok 0, d1) else (none, d1))

def execCoreReset (n : Nat) (s : State) : Host.Outcome State Fault Refusal := s.onDev (fun d => d.runCmd n 0x0307 Dev.coreReset)

/-- PLAN_LOAD: the plan takes effect at its step (R273). -/
def Dev.planLoad (d : Dev) (c : Cmd) : Option Reply × Dev :=
  d.withJob c (fun j =>
    if j.image.any (fun im => im.sets.any (fun s => s.plan.toNat == c.par 0 1)) = false then (fail 3 16, d)
    else (ok 0, d.setJob c.job (some { j with nextPlan := some (c.par 0 1, BitVec.ofNat 32 (c.par 4 4)) })))

def execPlanLoad (n : Nat) (s : State) : Host.Outcome State Fault Refusal := s.onDev (fun d => d.runCmd n 0x0308 Dev.planLoad)

end Sys2Proof.Machine
end

