-- ==== Sys2Proof/Machine/Registers.lean ====
section
/-! DEFINITION. Register accesses: the map, the access types and who may write, the banked selectors and their windows, and the registers
whose write does more than store (R7 to R9, R203, R307, R309, R325, R326, R348, R351, R358, R375, R377, R433, R443 to R449, R452). -/

namespace Sys2Proof.Machine

/-! Pieces of a register (R8, R445, R446). -/

/-- The register of a table that covers an address: where it starts, and its description. -/
def findReg (t : List RegDesc) (a : Nat) : Option (Nat × RegDesc) :=
  match t.find? (fun r => r.starts a) with
  | some r => some (a, r)
  | none => t.findSome? (fun r => (r.find a).map (fun k => (k, r)))

/-- The bits of a field inside the `n` bytes from byte `o` of its register, as lowest bit and width. -/
def FieldDesc.part (f : FieldDesc) (o n : Nat) : Nat × Nat :=
  let lo := max f.lo (8 * o)
  (lo, min (f.lo + f.w) (8 * (o + n)) - lo)

/-- What a read of a piece answers: reserved bits and write-only fields read 0. -/
def readFields (fs : List FieldDesc) (v o n : Nat) : Nat :=
  fs.foldl (fun x f =>
    let p := f.part o n
    if f.acc = .wo then x else x + bits v p.1 p.2 * 2 ^ (p.1 - 8 * o)) 0

/-- A register after a read of a piece: its RC fields there are zero. -/
def clearFields (fs : List FieldDesc) (v o n : Nat) : Nat :=
  fs.foldl (fun v f =>
    let p := f.part o n
    if f.acc = .rc then setBits v p.1 p.2 0 else v) v

/-- A register after a write of `x` to a piece by a requester that may write the fields `may` holds of. -/
def writeFields (fs : List FieldDesc) (may : FieldDesc → Bool) (v o n x : Nat) : Nat :=
  fs.foldl (fun v f =>
    let p := f.part o n
    let y := bits x (p.1 - 8 * o) p.2
    let old := bits v p.1 p.2
    if may f = false then v
    else match f.acc with
      | .rw => setBits v p.1 p.2 y
      | .w1c => setBits v p.1 p.2 (old - (old &&& y))
      | .w1s => setBits v p.1 p.2 (old ||| y)
      | _ => v) v

/-- Whether a requester may write a field; the fields of queues and errand sends are checked with their register (R446). -/
def mayWrite (who : Requester) (w : Writers) : Bool :=
  match who, w with
  | .naeno, _ => true
  | .pf0, .pf0 => true
  | .pf0, .pf0AndHarts => true
  | .hart _, .harts => true
  | .hart _, .pf0AndHarts => true
  | _, .queue => true
  | .hart _, .ownHart => true
  | _, _ => false

/-! Selectors and places (R443, R448, R449). -/

/-- The number of a requester's copy of the selectors. -/
def requesterCopy (who : Requester) : Nat :=
  match who with
  | .naeno => 0
  | .pf0 => 1
  | .hart h => 2 + h.toNat

/-- Where an address of BAR0 leads: BOOT_STAGE, a selector (0 CORE_SEL, 1 MESH_SCHED_SEL, 2 + k HBM_WIN_SEL of stack k), a byte of the core
window, of the schedule window or of a stack's page, or the register map. -/
inductive Place where
  | stage
  | sel (i : Nat)
  | core (w : Nat)
  | sched (o : Nat)
  | page (k o : Nat)
  | map
deriving DecidableEq, Repr

def placeOf (a : Nat) : Place :=
  if 0x800000 ≤ a ∧ a < 0x1000000 then .stage
  else if 0x1060000 ≤ a ∧ a < 0x1060004 then .sel 0
  else if 0x1062000 ≤ a ∧ a < 0x1064000 then .core (a - 0x1062000)
  else if 0x1042000 ≤ a ∧ a < 0x1042004 then .sel 1
  else if 0x1044000 ≤ a ∧ a < 0x1048000 then .sched (a - 0x1044000)
  else if 0x10B0000 ≤ a ∧ a < 0x10C0000 then
    let k := (a - 0x10B0000) / 0x2000
    let o := (a - 0x10B0000) % 0x2000
    if 0x1000 ≤ o then .page k (o - 0x1000) else if 0x10 ≤ o ∧ o < 0x14 then .sel (2 + k) else .map
  else .map

/-- The selection that a requester's copy of a selector holds, without its valid bit. -/
def Dev.selection (d : Dev) (who : Requester) (i : Nat) : Nat := Tab.get (fun _ => 0) d.sel (requesterCopy who * 16 + i)

/-- The bits of a selector that software writes. -/
def selWidth (i : Nat) : Nat := if i = 0 then 16 else if i = 1 then 17 else 10

/-- Whether a selection is valid: a logical core or router; a kind, and an index in its range. -/
def Dev.selValid (d : Dev) (i v : Nat) : Bool :=
  if i < 2 then d.logical ⟨BitVec.ofNat 8 (bits v 0 8), BitVec.ofNat 8 (bits v 8 8)⟩
  else (bits v 0 2 == 0 && decide (bits v 5 5 < 24)) || (bits v 0 2 == 1 && decide (bits v 5 5 < 2))

/-- The core or router that a selection names. -/
def selCore (v : Nat) : CoreId := ⟨BitVec.ofNat 8 (bits v 0 8), BitVec.ofNat 8 (bits v 8 8)⟩

/-- A selector as it reads. -/
def Dev.selRead (d : Dev) (who : Requester) (i : Nat) : Nat :=
  d.selection who i + (d.selValid i (d.selection who i)).toNat * 2 ^ selWidth i

/-- A write to a requester's copy of a selector. -/
def Dev.selWrite (d : Dev) (who : Requester) (i x : Nat) : Dev :=
  { d with sel := Tab.set (fun _ => 0) d.sel (requesterCopy who * 16 + i) (x % 2 ^ selWidth i) }

/-- The bytes that the register holds from an address on; 4 where no register covers it. -/
def restAt (a : Nat) : Nat :=
  match placeOf a with
  | .core w => if 8 ≤ w ∧ w < 16 then 16 - w else match findReg winTable w with
    | some (k, r) => k + r.bytes - w
    | none => 4
  | .map => match findReg (fuseTable ++ regTable) a with
    | some (k, r) => k + r.bytes - a
    | none => 4
  | _ => 4

/-! Reads (R8, R444, R445, R448, R449). -/

/-- The device with its computed registers as they read (R254, R413, R425). -/
def Dev.shown (d : Dev) : Dev := d.showGate.showDomains.showClock

/-- A read of the core window at offset `w`: the two mirrors, and the registers of the core's window. -/
def Dev.readWindow (d : Dev) (c : CoreId) (w n : Nat) : Nat × Dev :=
  let k := d.core c
  if w < 4 then (bits k.status (8 * w) (8 * min n (4 - w)), d)
  else if 8 ≤ w ∧ w < 16 then (bits k.fault.toBits (8 * (w - 8)) (8 * n), d)
  else match findReg winTable w with
    | none => (0, d)
    | some (a, r) => (readFields r.fields (k.reg a) (w - a) n, d.setCore c (k.putReg a (clearFields r.fields (k.reg a) (w - a) n)))

/-- A read of one piece of at most 8 bytes that lies in one register. -/
def Dev.readPiece (d : Dev) (who : Requester) (a n : Nat) : Nat × Dev :=
  match placeOf a with
  | .stage => (0, d)
  | .sel i => (d.selRead who i, d)
  | .core w => if d.selValid 0 (d.selection who 0) then d.readWindow (selCore (d.selection who 0)) w n else (0, d)
  | .sched o =>
    let v := d.selection who 1
    if d.selValid 1 v then (Tab.get (fun _ => idleWord) d.sched (schedKey (selCore v) (bits v 16 1) (o / 4)), d) else (0, d)
  | .page k o =>
    let v := d.selection who (2 + k)
    if d.selValid (2 + k) v = false then (0, d)
    else if bits v 0 2 = 0 then
      (ofBytes ((List.range n).map (fun i =>
        BitVec.ofNat 8 (Tab.get (fun _ => 0) d.lanePlan (planKey k (24 * (k % 4) + bits v 5 5) (bits v 2 3) (o + i))))), d)
    else
      ((List.range (n / 2)).foldl (fun x i =>
        x + Tab.get (fun _ => 0) d.fences (fenceKey k (bits v 2 3) (bits v 5 5 * 2048 + o / 2 + i)) % 2 ^ 16 * 2 ^ (16 * i)) 0, d)
  | .map => match findReg (fuseTable ++ regTable) a with
    | none => (0, d)
    | some (k, r) => (readFields r.fields (d.shown.reg k) (a - k) n, d.setReg k (clearFields r.fields (d.reg k) (a - k) n))

/-- A read of 4 or 8 bytes: one of 8 bytes over two registers is the lower read followed by the upper one (R309). -/
def Dev.readReg (d : Dev) (who : Requester) (a n : Nat) : Nat × Dev :=
  if n = 8 ∧ restAt a < 8 then
    let (x, d1) := d.readPiece who a 4
    let (y, d2) := d1.readPiece who (a + 4) 4
    (x + y * 2 ^ 32, d2)
  else d.readPiece who a n

/-! Writes that do more than store. -/

/-- ERR_ACK: every record with seq at most `v` is closed (R433). -/
def Dev.errAck (d : Dev) (v : Nat) : Dev :=
  ((List.range 256).foldl (fun d n =>
    let r := d.get (ERR_REC_record n)
    if bit r 72 && decide (bits r 192 32 ≤ v) then d.put (ERR_REC_record n) (setBits r 72 1 0) else d) d).countOpen

/-- The err code of a queue that is being enabled (R326; the order of the checks is log 26). -/
def queueError (naeno hart : Bool) (v : Nat) : Nat :=
  let loc := bits v 1 2
  if bits v 3 2 = 3 ∧ naeno = false then 1
  else if bits v 6 4 < 4 ∨ 12 < bits v 6 4 then 2
  else if bits v 64 64 % 64 ≠ 0 ∨ bits v 128 64 % 64 ≠ 0 then 3
  else if 1 < loc ∨ (naeno = false ∧ loc ≠ hart.toNat) then 4
  else 0

/-- A write to WARD_Q_n: queues 0 to 47 under R326, the peer queues by Naeno alone, queue 63 by nobody (R325, R446). -/
def Dev.queueReg (d : Dev) (who : Requester) (q : Nat) (fs : List FieldDesc) (o n x : Nat) : Dev :=
  let key := (WARD_Q_en q).key
  let old := d.reg key
  let naeno := decide (who = .naeno)
  let hart := match who with | .hart _ => true | _ => false
  if q = 63 ∨ (48 ≤ q ∧ naeno = false) then d
  else if 48 ≤ q then d.setReg key (writeFields fs (fun _ => true) old o n x)
  else
    let en := bit old 0
    let loc := bits old 1 2
    if en ∧ naeno = false ∧ loc ≠ hart.toNat then d
    else
      let cfg := writeFields fs (fun f => f.lo == 0 || (!en && f.lo != 192)) old o n x
      let v := writeFields fs (fun f => f.lo == 192 && bits cfg 1 2 == 1) cfg o n x
      if en = false ∧ bit v 0 = true then
        let e := queueError naeno hart v
        if e ≠ 0 then d.setReg key (setBits (setBits v 0 1 0) 28 4 e)
        else (((d.setReg key (setBits v 28 4 0)).put (PCIE_QMAP_valid q) (if bits v 1 2 = 0 then 1 else 0)).put (PCIE_QMAP_func q)
          (bits v 10 4)).put (PCIE_QMAP_vector q) (bits v 14 6)
      else d.setReg key v

/-- Posted descriptors of a receive ring; none of a ring that is not in use (R452). -/
def Dev.ethPosted (d : Dev) (p q : Nat) : Nat :=
  let size := 2 ^ d.get (ETH_RXR_log2n p q)
  if d.get (ETH_RXR_en p q) = 0 then 0 else (d.get (ETH_RXR_tail p q) + size - d.get (ETH_RXR_head p q)) % size

/-- Whether a port asks for a pause of a priority: PFC is enabled for it and a ring in use is short of descriptors (R318; log 27). -/
def Dev.pfcWants (d : Dev) (p prio : Nat) : Bool :=
  bit (d.get (ETH_CFG_pfc_en p)) prio && (List.range 16).any (fun q =>
    d.get (ETH_RXR_en p q) == 1 && decide (d.ethPosted p q < d.get (ETH_CFG_pfc_low p)))

/-- The pauses of a port that nothing asks for any more end. -/
def Dev.pfcEnd (d : Dev) (p : Nat) : Dev :=
  (List.range 8).foldl (fun d i =>
    if Tab.get (fun _ => false) d.paused (p * 8 + i) = true ∧ d.pfcWants p i = false then
      ({ d with paused := Tab.set (fun _ => false) d.paused (p * 8 + i) false }).emit (.pfc p i false)
    else d) d

/-- A write to an Ethernet ring register (R452); clearing en discards what is posted, so that tail is head again. -/
def Dev.ringReg (d : Dev) (key : Nat) (fs : List FieldDesc) (o n x : Nat) : Dev :=
  let old := d.reg key
  let en := bit old 52
  let v := writeFields fs (fun f => f.lo == 52 || f.lo == 64 || !en) old o n x
  let size := 2 ^ bits v 48 4
  let bad := bits v 48 4 < 4 || decide (12 < bits v 48 4) || bits v 0 48 % 64 != 0
  let v1 := if en = false ∧ bit v 52 = true ∧ bad = true then setBits v 52 1 0 else v
  let v2 := if size ≤ bits v1 64 16 then setBits v1 64 16 (bits old 64 16) else v1
  (d.setReg key (if en = true ∧ bit v2 52 = false then setBits v2 64 16 (bits old 80 16) else v2)).pfcEnd ((key - 0x1180000) / 0x1000)

/-- The host steps that may run next after the last one passed (R375). -/
def bootNext (last : Nat) : List Nat :=
  if last = 0 then [2] else if last = 4 then [5, 6] else if last < 7 then [last + 1] else []

/-- BOOT_STEP: under BOOT_SRC = HOST, and only while no step runs; go starts a step that is next, any other request is refused (R375). -/
def Dev.bootStepReg (d : Dev) (fs : List FieldDesc) (o n x : Nat) : Dev :=
  if d.get BOOT_STRAP_boot_src = 0 ∨ d.get BOOT_STEP_status = 1 then d
  else
    let v := writeFields fs (fun _ => true) (d.reg BOOT_STEP_go.key) o n x
    if bit v 8 = false then d.setReg BOOT_STEP_go.key v
    else
      let step := bits v 0 4
      let arg := bits v 4 4
      if (bootNext d.bootStep).contains step ∧ (arg = 0 ∨ (step = 7 ∧ arg = 1)) then
        ((((d.setReg BOOT_STEP_go.key v).put BOOT_STEP_status 1).put BOOT_STAT_stage step).put BOOT_STAT_cause 0).put BOOT_STAT_detail 0
      else (d.setReg BOOT_STEP_go.key (setBits (d.reg BOOT_STEP_go.key) 8 1 0)).put BOOT_STEP_status 4

/-- A write into BOOT_STAGE: with BOOT_SRC = HOST, before step 0x7 has succeeded (R377). -/
def Dev.stageWrite (d : Dev) (a : Nat) (bs : List Byte) : Dev :=
  if d.get BOOT_STRAP_boot_src = 1 ∧ d.naenoRuns = false then { d with stage := Memory.writeBytes d.stage (a - 0x800000) bs } else d

/-- The array of Ethernet ring registers that an address starts. -/
def isRing (k : Nat) : Bool :=
  let o := (k - 0x1180000) % 0x1000
  decide (0x1180000 ≤ k) && decide (k < 0x1182000) && decide (0x100 ≤ o) && decide (o < 0x300)

/-- A write of a piece to the register that starts at `k`. -/
def Dev.writeMap (d : Dev) (who : Requester) (k : Nat) (fs : List FieldDesc) (o n x : Nat) : Dev :=
  let may := fun (f : FieldDesc) => mayWrite who f.writers
  let plain := d.setReg k (writeFields fs may (d.reg k) o n x)
  if k = ERR_ACK_seq.key then (if o = 0 ∧ fs.any may then d.errAck (x % 2 ^ 32) else d)
  else if 0x11A1000 ≤ k ∧ k < 0x11A1800 then d.queueReg who ((k - 0x11A1000) / 32) fs o n x
  else if isRing k then (if fs.all may then d.ringReg k fs o n x else d)
  else if k = (ETH_CFG_en 0).key ∨ k = (ETH_CFG_en 1).key then plain.pfcEnd ((k - 0x1180000) / 0x1000)
  else if k = BOOT_STEP_go.key then (if fs.all may then d.bootStepReg fs o n x else d)
  else if 0x11B2000 ≤ k ∧ k < 0x11B3000 then
    let h := (k - 0x11B2000) / 64
    if who = .naeno ∨ who = .hart (BitVec.ofNat 6 h) then
      (if d.get (BRK_ESEND_go h) = 0 ∧ plain.get (BRK_ESEND_go h) = 1 then plain.errandSend h else plain)
    else d
  else if (List.range 16).any (fun i => (CLERK_CFG_fail i).key == k) then
    let i := (k - (CLERK_CFG_fail 0).key) / 256
    if d.get (CLERK_CFG_fail i) = 0 ∧ plain.get (CLERK_CFG_fail i) = 1 then plain.failClerk i else plain
  else if (List.range 96).any (fun p => (LINK_PORT_CFG_valid p).key == k && !(d.portOn p)) then d
  else plain

/-- A write to the core window; a new expect or quorum of a tally queue is tested from the ck after it (R145). -/
def Dev.writeWindow (d : Dev) (who : Requester) (c : CoreId) (w n x : Nat) : Dev :=
  if w < 16 then d
  else match findReg winTable w with
    | none => d
    | some (a, r) =>
      let k := (d.core c).putReg a (writeFields r.fields (fun f => mayWrite who f.writers) ((d.core c).reg a) (w - a) n x)
      d.setCore c (if 0x300 ≤ a ∧ a < 0x600 ∧ who = .naeno then k.tallyTest ((a - 0x300) / 96) (k.cycle.toNat + 1) else k)

/-- A write to the schedule window: Naeno alone, to a bank that does not run (R449). -/
def Dev.writeSched (d : Dev) (who : Requester) (o x : Nat) : Dev :=
  let v := d.selection who 1
  let r := d.router (selCore v)
  if who ≠ .naeno ∨ d.selValid 1 v = false ∨ (r.on = true ∧ r.bank = bits v 16 1) then d
  else { d with sched := Tab.set (fun _ => idleWord) d.sched (schedKey (selCore v) (bits v 16 1) (o / 4)) (x % 2 ^ 32) }

/-- A write to a stack's page: Naeno alone (R449). -/
def Dev.writePage (d : Dev) (who : Requester) (k o n x : Nat) : Dev :=
  let v := d.selection who (2 + k)
  if who ≠ .naeno ∨ d.selValid (2 + k) v = false then d
  else if bits v 0 2 = 0 then
    { d with lanePlan := Tab.setAll (fun _ => 0) d.lanePlan (planKey k (24 * (k % 4) + bits v 5 5) (bits v 2 3) o)
               ((List.range n).map (fun i => bits x (8 * i) 8)) }
  else
    { d with fences := Tab.setAll (fun _ => 0) d.fences (fenceKey k (bits v 2 3) (bits v 5 5 * 2048 + o / 2))
               ((List.range (n / 2)).map (fun i => bits x (16 * i) 16)) }

/-- A write of one piece. -/
def Dev.writePiece (d : Dev) (who : Requester) (a n x : Nat) : Dev :=
  match placeOf a with
  | .stage => if who = .pf0 ∨ who = .naeno then d.stageWrite a (toBytes n x) else d
  | .sel i => d.selWrite who i x
  | .core w => if d.selValid 0 (d.selection who 0) then d.writeWindow who (selCore (d.selection who 0)) w n x else d
  | .sched o => d.writeSched who o x
  | .page k o => d.writePage who k o n x
  | .map => match findReg (fuseTable ++ regTable) a with
    | none => d
    | some (k, r) => d.writeMap who k r.fields (a - k) n x

/-- A write of 4 or 8 bytes: one of 8 bytes over two registers is the lower write followed by the upper one (R309). -/
def Dev.writeReg (d : Dev) (who : Requester) (a n x : Nat) : Dev :=
  if n = 8 ∧ restAt a < 8 then (d.writePiece who a 4 (x % 2 ^ 32)).writePiece who (a + 4) 4 (x / 2 ^ 32 % 2 ^ 32)
  else d.writePiece who a n (x % 2 ^ (8 * n))

/-! Accesses (R307, R309, R351). -/

/-- Whether a hart runs: its complex is ON and holds an image. -/
def Dev.hartRuns (d : Dev) (h : Nat) : Bool := d.dom (96 + h / 16) == 0 && d.get (BRK_CPX_STAT_state (h / 16)) == 1

/-- Whether BAR0 serves an address: before READY only the BOOT_, FUSE_ and PCIE_ blocks, unless the host boots the device. -/
def Dev.bar0Serves (d : Dev) (a : Nat) : Bool :=
  d.get PCIE_STAT_ready == 1 || d.get BOOT_STRAP_boot_src == 1 || decide (a < 0x1010000) || (decide (0x1190000 ≤ a) && decide (a < 0x11A0000))

/-- Whether a hart's load (or store) of a register takes an access fault. -/
def hartFaults (a : Nat) (store : Bool) : Bool :=
  (decide (0x11C0000 ≤ a) && decide (a < 0x11D0000)) || (store && decide (a < 0x1020000))

/-- An access of 4 or 8 bytes, with the value of a write, and its completion. -/
def Dev.access (d : Dev) (who : Requester) (a n : Nat) (w : Option Nat) : Dev :=
  let go := fun (d : Dev) => match w with
    | some x => d.writeReg who a n x
    | none => let (v, d1) := d.readReg who a n; d1.emit (.completion (some v) false)
  match who with
  | .naeno => if a % n = 0 then go d else d
  | .pf0 =>
    if d.pcie.up = false then d
    else if a % n ≠ 0 then (d.bump PCIE_ERR_bad_acc 1).emit (.completion none false)
    else if d.bar0Serves a then go d
    else if w.isNone then d.emit (.completion (some 0) false) else d
  | .hart h =>
    if d.hartRuns h.toNat = false then d
    else if a % n ≠ 0 ∨ hartFaults a w.isSome = true then d.emit (.completion none false)
    else go d

/-- Runs a change that a device outside reset can make, whatever else has stopped (R307, R374). -/
def State.onLive (s : State) (f : Dev → Dev) : Host.Outcome State Fault Refusal := if s.dev.inReset then .next s else s.onAlways f

/-- The bytes of an access. -/
def accessBytes (wide : Bool) : Nat := if wide then 8 else 4

/-- REGISTER_WRITE. -/
def execRegisterWrite (who : Requester) (a : BitVec 26) (wide : Bool) (v : BitVec 64) (s : State) : Host.Outcome State Fault Refusal :=
  s.onLive (fun d => (d.access who a.toNat (accessBytes wide) (some v.toNat)))

/-- RC_READ. -/
def execRcRead (who : Requester) (a : BitVec 26) (wide : Bool) (s : State) : Host.Outcome State Fault Refusal :=
  s.onLive (fun d => d.access who a.toNat (accessBytes wide) none)

/-- BAR0_ACCESS: an access of `n` bytes; one that is not 4 or 8 bytes, or not aligned, is an Unsupported Request (R309). -/
def execBar0Access (a : BitVec 26) (n : BitVec 7) (w : Option (BitVec 64)) (s : State) : Host.Outcome State Fault Refusal :=
  s.onLive (fun d =>
    if d.pcie.up = false then d
    else if n = 4 ∨ n = 8 then (d.access .pf0 a.toNat n.toNat (w.map BitVec.toNat))
    else (d.bump PCIE_ERR_bad_acc 1).emit (.completion none false))

/-- ERR_ACK. -/
def execErrAck (who : Requester) (v : BitVec 32) (s : State) : Host.Outcome State Fault Refusal :=
  s.onLive (fun d => d.access who ERR_ACK_seq.key 4 (some v.toNat))

/-- SCHEDULE_WINDOW_WRITE: a write of Naeno through one of the two windows. -/
def execScheduleWindowWrite (a : BitVec 26) (wide : Bool) (v : BitVec 64) (s : State) : Host.Outcome State Fault Refusal :=
  s.onLive (fun d => match placeOf a.toNat with
    | .sched _ => d.access .naeno a.toNat (accessBytes wide) (some v.toNat)
    | .page _ _ => d.access .naeno a.toNat (accessBytes wide) (some v.toNat)
    | _ => d)

/-- QUEUE_ENABLE: the write of the first 8 bytes of WARD_Q_n. -/
def execQueueEnable (who : Requester) (q : BitVec 6) (v : BitVec 64) (s : State) : Host.Outcome State Fault Refusal :=
  s.onLive (fun d => d.access who (WARD_Q_en q.toNat).key 8 (some v.toNat))

/-- QUEUE_TAIL_WRITE: a hart writes WARD_Q_n.tail. -/
def execQueueTailWrite (h q : BitVec 6) (tail : BitVec 16) (s : State) : Host.Outcome State Fault Refusal :=
  s.onLive (fun d => d.access (.hart h) ((WARD_Q_en q.toNat).key + 24) 4 (some tail.toNat))

/-- ACCOUNT_RELEASE: the write of 1 to CORE_ACCT_HDR.valid in the core window (R203). -/
def execAccountRelease (who : Requester) (s : State) : Host.Outcome State Fault Refusal :=
  s.onLive (fun d => d.access who (0x1062000 + CORE_ACCT_HDR_valid.key) 4 (some (2 ^ CORE_ACCT_HDR_valid.lo)))

end Sys2Proof.Machine
end

