-- ==== Sys2Proof/Machine/Board.lean ====
section
/-! DEFINITION. The board management interfaces: the I3C target with its registers and mailbox, and the JTAG port (R319 to R321, R323). -/

namespace Sys2Proof.Machine

/-! CCCs (R319). -/

/-- ENEC: the target may send interrupts. -/
def execEnec (s : State) : Host.Outcome State Fault Refusal := s.onLive (fun d => { d with ibiOn := true })
/-- DISEC. -/
def execDisec (s : State) : Host.Outcome State Fault Refusal := s.onLive (fun d => { d with ibiOn := false })
/-- RSTDAA. -/
def execRstdaa (s : State) : Host.Outcome State Fault Refusal := s.onLive (fun d => { d with i3c := { d.i3c with addr := none } })

/-- A dynamic address is taken only by a target that has none. -/
def Dev.takeAddr (d : Dev) (a : BitVec 7) : Dev := { d with i3c := { d.i3c with addr := d.i3c.addr.or (some a) } }

/-- SETDASA: the dynamic address that the controller gives the target at static address 0x3C. -/
def execSetdasa (a : BitVec 7) (s : State) : Host.Outcome State Fault Refusal := s.onLive (fun d => d.takeAddr a)
/-- SETAASA: the static address becomes the dynamic one. -/
def execSetaasa (s : State) : Host.Outcome State Fault Refusal := s.onLive (fun d => d.takeAddr 0x3C)

/-- A directed read of a target that has a dynamic address. -/
def Dev.answerCcc (d : Dev) (bs : List Byte) : Dev := if d.i3c.addr.isSome then d.emit (.i3cData bs) else d

/-- The provisional ID: manufacturer, type, part and the low 16 bits of the die serial. -/
def Dev.pid (d : Dev) : Nat := 0x2E5D * 2 ^ 33 + 0x0960 * 2 ^ 16 + d.get FUSE_SERIAL_serial % 2 ^ 16

/-- GETPID: six bytes, the most significant first. -/
def execGetpid (s : State) : Host.Outcome State Fault Refusal := s.onLive (fun d => d.answerCcc (toBytesBE 6 d.pid))

/-- Bytes that the spec gives no value (log 1). -/
def Dev.answerFree (d : Dev) (n : Nat) : Dev := let (v, d1) := d.free; d1.answerCcc (toBytes n v)

/-- GETBCR: one byte, a free value. -/
def execGetbcr (s : State) : Host.Outcome State Fault Refusal := s.onLive (fun d => d.answerFree 1)
/-- GETDCR: one byte, a free value. -/
def execGetdcr (s : State) : Host.Outcome State Fault Refusal := s.onLive (fun d => d.answerFree 1)
/-- GETSTATUS: two bytes, a free value. -/
def execGetstatus (s : State) : Host.Outcome State Fault Refusal := s.onLive (fun d => d.answerFree 2)
/-- GETMXDS: two bytes, a free value. -/
def execGetmxds (s : State) : Host.Outcome State Fault Refusal := s.onLive (fun d => d.answerFree 2)

/-! Registers (R320). -/

/-- STATE[2:0]: boot, ready, job running, fault. -/
def Dev.i3cState (d : Dev) : Nat :=
  if d.get BOOT_STAT_stage = 15 ∨ d.trip.isSome then 3
  else if d.get BOOT_STAT_stage ≠ 8 then 0
  else if d.jobIds.any (fun i => (d.job i).any (fun j => j.running)) then 2
  else 1

/-- The register that holds an offset: its first offset, its bytes and its value. -/
def Dev.i3cReg (d : Dev) (o : Nat) : Option (Nat × Nat × Nat) :=
  if o < 4 then some (0, 4, d.reg FUSE_GRADE_grade.key % 2 ^ 32)
  else if o < 8 then some (4, 4, d.devnum.toNat)
  else if o = 8 then some (8, 1, d.i3cState + d.get ERR_STAT_worst * 16)
  else if 0x0C ≤ o ∧ o < 0x0E then some (0x0C, 2, d.get PWR_THERM_hottest)
  else if 0x10 ≤ o ∧ o < 0x12 then some (0x10, 2, d.get PWR_STAT_power)
  else if o = 0x14 then some (0x14, 1, d.alert.toNat)
  else if 0x40 ≤ o ∧ o < 0x80 then some (0x40, 64, 0)
  else if 0x80 ≤ o ∧ o < 0xA0 then some (0x80, 32, d.i3c.reply.toNat)
  else if o = 0xA0 then some (0xA0, 1, d.i3c.busy.toNat * 2 + d.i3c.finished.toNat * 4)
  else none

/-- The pointer advances. -/
def Dev.i3cNext (d : Dev) : Dev := { d with i3c := { d.i3c with ptr := d.i3c.ptr + 1 } }

/-- A byte read at the pointer: the first byte of a register latches it.  A byte that no register holds is a free value (log 1). -/
def Dev.i3cReadByte (d : Dev) : Byte × Dev :=
  let o := d.i3c.ptr.toNat
  match d.i3cReg o with
  | none => let (v, d1) := d.free; (BitVec.ofNat 8 v, d1.i3cNext)
  | some (lo, _, v) =>
    if o = lo then (BitVec.ofNat 8 v, ({ d with i3c := { d.i3c with latch := some (lo, v) } }).i3cNext)
    else match d.i3c.latch with
      | some (a, x) => (BitVec.ofNat 8 ((if a = lo then x else v) / 2 ^ (8 * (o - lo))), d.i3cNext)
      | none => (BitVec.ofNat 8 (v / 2 ^ (8 * (o - lo))), d.i3cNext)

/-- Reads of bytes from the pointer. -/
def Dev.i3cRead (d : Dev) : Nat → List Byte × Dev
  | 0 => ([], d)
  | n + 1 =>
    let (b, d1) := d.i3cReadByte
    let (bs, d2) := Dev.i3cRead d1 n
    (b :: bs, d2)

/-- Writing go sets busy and submits MBOX to queue 63; while busy is 1 it is ignored (R321). -/
def Dev.mboxGo (d : Dev) : Dev :=
  if d.i3c.busy then d
  else { d with i3c := { d.i3c with busy := true }, mail := Tab.set (fun _ => []) d.mail 63 (Tab.get (fun _ => []) d.mail 63 ++ [d.i3c.mbox]) }

/-- A byte written at the pointer. -/
def Dev.i3cWriteByte (d : Dev) (b : Byte) : Dev :=
  let o := d.i3c.ptr.toNat
  let d1 :=
    if o = 0x14 then { d with alert := d.alert &&& ~~~b }
    else if 0x40 ≤ o ∧ o < 0x80 then
      (if d.i3c.busy then d
       else { d with i3c := { d.i3c with mbox := BitVec.ofNat 512 (setBits d.i3c.mbox.toNat (8 * (o - 0x40)) 8 b.toNat) } })
    else if o = 0xA0 then
      let d1 := if bit b.toNat 2 then { d with i3c := { d.i3c with finished := false } } else d
      if bit b.toNat 0 then d1.mboxGo else d1
    else d
  d1.i3cNext

/-- I3C_REGISTER_ACCESS: the controller may write the pointer, then bytes, then reads `n` bytes. -/
def execI3cRegisterAccess (ptr : Option (BitVec 8)) (bs : List Byte) (n : BitVec 9) (s : State) : Host.Outcome State Fault Refusal :=
  s.onLive (fun d =>
    let d1 := match ptr with
      | some p => { d with i3c := { d.i3c with ptr := p } }
      | none => d
    let d2 := bs.foldl Dev.i3cWriteByte d1
    let (out, d3) := d2.i3cRead n.toNat
    if n = 0 then d3 else d3.emit (.i3cData out))

/-- MBOX_GO. -/
def execMboxGo (s : State) : Host.Outcome State Fault Refusal := s.onLive Dev.mboxGo

/-! JTAG (R323). -/

/-- An instruction reaches the TAP: its code and the data register it selects. -/
def Dev.tap (d : Dev) (ir : BitVec 8) (select : BitVec 2) : Dev := { d with jtag := { d.jtag with ir := ir, select := select } }

/-- An instruction that takes effect only while RESET_N is low; otherwise it acts as BYPASS. -/
def Dev.tapInReset (d : Dev) (ir : BitVec 8) (select : BitVec 2) : Dev := if d.inReset then d.tap ir select else d.tap 0xFF 2

/-- IDCODE. -/
def execIdcode (s : State) : Host.Outcome State Fault Refusal := s.onAlways (fun d => d.tap 0x01 0)
/-- SAMPLE/PRELOAD: the chain captures the levels of the low-speed balls. -/
def execSamplePreload (pins : BitVec 33) (s : State) : Host.Outcome State Fault Refusal :=
  s.onAlways (fun d => let d1 := d.tap 0x02 1; { d1 with jtag := { d1.jtag with chain := pins } })
/-- EXTEST. -/
def execExtest (s : State) : Host.Outcome State Fault Refusal := s.onAlways (fun d => d.tapInReset 0x03 1)
/-- CLAMP. -/
def execClamp (s : State) : Host.Outcome State Fault Refusal := s.onAlways (fun d => d.tapInReset 0x04 2)
/-- HIGHZ. -/
def execHighz (s : State) : Host.Outcome State Fault Refusal := s.onAlways (fun d => d.tapInReset 0x05 2)
/-- BYPASS. -/
def execBypass (s : State) : Host.Outcome State Fault Refusal := s.onAlways (fun d => d.tap 0xFF 2)

end Sys2Proof.Machine
end

