-- ==== Sys2Proof/Machine/CmdMisc.lean ====
section
/-! DEFINITION. The link, telemetry, power, security and debug commands (R256, R261, R298, R301, R336, R356, R371, R372, R403 to R405, R410, R417,
R436 to R442, R450). -/

namespace Sys2Proof.Machine

/-! Links (R297, R298, R301). -/

/-- The enabled ports of a mask. -/
def Dev.maskPorts (d : Dev) (mask : Nat) : List Nat := (List.range 96).filter (fun p => bit mask p && d.portOn p)

/-- LINK_UP: masked ports in OFF, of engines that are ON, go to LOCK. -/
def Dev.linkUp (d : Dev) (c : Cmd) : Option Reply × Dev :=
  (ok 0, (d.maskPorts (c.par 0 12)).foldl (fun d p =>
    if d.linkState p = 0 ∧ d.dom (88 + p / 12) = 0 then d.setLinkState p 1 0 else d) d)

def execLinkUp (n : Nat) (s : State) : Host.Outcome State Fault Refusal := s.onDev (fun d => d.runCmd n 0x0401 Dev.linkUp)

/-- LINK_DOWN: masked ports go to OFF, after GOING_DOWN with reason 2 if the command asks for it. -/
def Dev.linkDown (d : Dev) (c : Cmd) : Option Reply × Dev :=
  let ps := d.maskPorts (c.par 0 12)
  if ps.any (fun p => d.get (LINK_PORT_CFG_valid p) == 1) then (fail 1 3, d)
  else (ok 0, ps.foldl (fun d p => (if bit (c.par 12 4) 0 then d.sendGoingDown p 2 else d).portOff p) d)

def execLinkDown (n : Nat) (s : State) : Host.Outcome State Fault Refusal := s.onDev (fun d => d.runCmd n 0x0402 Dev.linkDown)

/-- FLOW_LOAD: the flow table of a port, from the job's load set that runs. -/
def Dev.flowLoad (d : Dev) (c : Cmd) : Option Reply × Dev :=
  d.withJob c (fun j =>
    let p := c.par 0 1
    match j.set with
    | none => (fail 3 16, d)
    | some s =>
      let ps := s.ports.filter (fun x => x.1.toNat == p)
      let fs := s.flows.filter (fun x => x.port.toNat == p)
      if d.portOn p = false ∨ (ps.isEmpty && fs.isEmpty) = true then (fail 3 16, d)
      else
        let d1 := ps.foldl (fun d x => d.setReg (LINK_PORT_CFG_valid p).key x.2.toNat) d
        (ok 0, fs.foldl (fun d x => d.loadFlow j.loads x) d1))

def execFlowLoad (n : Nat) (s : State) : Host.Outcome State Fault Refusal := s.onDev (fun d => d.runCmd n 0x0403 Dev.flowLoad)

/-- LINK_STATUS: Naeno reads four registers of a port. -/
def Dev.linkStatus (d : Dev) (c : Cmd) : Option Reply × Dev :=
  let p := c.par 0 1
  if 96 ≤ p then (fail 3 16, d)
  else
    let (a, d1) := d.readReg .naeno (LINK_STATE_state p).key 4
    let (b, d2) := d1.readReg .naeno (LINK_PEER_devnum p).key 8
    let (e, d3) := d2.readReg .naeno (LINK_RETRY_replays p).key 4
    let (f, d4) := d3.readReg .naeno (LINK_ASSAY_ST_tag p).key 4
    (ok (a + b * 2 ^ 32 + e * 2 ^ 96 + f * 2 ^ 128), d4)

def execLinkStatus (n : Nat) (s : State) : Host.Outcome State Fault Refusal := s.onDev (fun d => d.runCmd n 0x0404 Dev.linkStatus)

/-! Telemetry (R336, R450). -/

/-- Whether `n` bytes of HBM from a physical address are usable. -/
def Dev.physOk (d : Dev) (a n : Nat) : Bool :=
  n == 0 || (d.usable a && d.usable (a + n - 1) && stackOf a == stackOf (a + n - 1))

/-- A register word as a snapshot takes it: nothing clears, and the windows read as zero. -/
def Dev.peek (d : Dev) (a : Nat) : Nat :=
  match placeOf a with
  | .sel _ => (d.readPiece .naeno a 4).1
  | .map => (d.readPiece .naeno a 4).1
  | _ => 0

/-- The blocks of R443 by number, as base and the bytes of a snapshot. -/
def snapBlock (b : Nat) : Nat × Nat :=
  ([(0, 0x10000), (0x1000000, 0x10000), (0x1010000, 0x10000), (0x1020000, 0x10000), (0x1030000, 0x10000), (0x1040000, 0x10000),
    (0x1050000, 0x10000), (0x1060000, 0x10000), (0x1080000, 0x20000), (0x10A0000, 0x10000), (0x10B0000, 0x10000),
    (0x10C0000, 0x10000), (0x1100000, 0x80000), (0x1180000, 0x10000), (0x1190000, 0x10000), (0x11A0000, 0x10000),
    (0x11B0000, 0x10000), (0x11C0000, 0x10000), (0x11D0000, 0x10000), (0x11E0000, 0x10000)][b]?).getD (0, 0)

/-- The bytes of a snapshot with a block mask. -/
def Dev.snapshotBytes (d : Dev) (mask : Nat) : List Byte :=
  ((List.range 20).filter (bit mask)).flatMap (fun b =>
    (List.range ((snapBlock b).2 / 4)).flatMap (fun i => toBytes 4 (d.peek ((snapBlock b).1 + 4 * i))))
  ++ (if bit mask 31 then d.snapshot.flatMap (fun r => toBytes 64 r.toNat) else [])

/-- TEL_SNAPSHOT. -/
def Dev.telSnapshot (d : Dev) (c : Cmd) : Option Reply × Dev :=
  let mask := c.par 8 4
  if bits mask 20 11 ≠ 0 then (fail 3 24, d)
  else
    let bs := d.snapshotBytes mask
    if d.physOk (c.par 0 8) bs.length = false then (fail 3 16, d)
    else (ok bs.length, d.writeHbmBytes (c.par 0 8) bs)

def execTelSnapshot (n : Nat) (s : State) : Host.Outcome State Fault Refusal := s.onDev (fun d => d.runCmd n 0x0501 Dev.telSnapshot)

/-- The code of the latest error record. -/
def Dev.lastError (d : Dev) : Nat :=
  if d.get ERR_STAT_seq = 0 then 0 else bits (d.get (ERR_REC_record (d.get ERR_STAT_seq % 256))) 0 16

/-- The stale discards that the cores have counted, summed device-wide (R137, R334). -/
def Dev.staleSum (d : Dev) : Nat := d.cores.foldl (fun n p => n + p.2.get CORE_CHAN_STAT_stale) 0

/-- Naeno has read the stale counts, which the read clears (R8; log 61). -/
def Dev.clearStale (d : Dev) : Dev :=
  { d with cores := d.cores.foldl (fun t p => Tab.set (fun _ => Core.reset) t p.1 (p.2.put CORE_CHAN_STAT_stale 0)) d.cores }

/-- TEL_ERRORS: the open errors by severity, or STALE_GEN with the count of stale discards (R334). -/
def Dev.telErrors (d : Dev) (_ : Cmd) : Option Reply × Dev :=
  if d.staleSum ≠ 0 then (fail 8 d.staleSum, d.clearStale)
  else (ok (d.get ERR_OPEN_corrected + d.get ERR_OPEN_deferred * 2 ^ 16 + d.get ERR_OPEN_step_lost * 2 ^ 32
    + d.get ERR_OPEN_job_lost * 2 ^ 48 + d.get ERR_STAT_device_lost * 2 ^ 64 + d.lastError * 2 ^ 80), d)

def execTelErrors (n : Nat) (s : State) : Host.Outcome State Fault Refusal := s.onDev (fun d => d.runCmd n 0x0502 Dev.telErrors)

/-! Power (R406 to R410, R417). -/

/-- PWR_CAP: the cap within its limits. -/
def Dev.pwrCap (d : Dev) (c : Cmd) : Option Reply × Dev :=
  let cap := max (d.get PWR_CAP_CFG_min) (min (c.par 0 2) 3600)
  (ok cap, d.put PWR_CAP_CFG_cap cap)

def execPwrCap (n : Nat) (s : State) : Host.Outcome State Fault Refusal := s.onDev (fun d => d.runCmd n 0x0801 Dev.pwrCap)

/-- PWR_DOMAIN: replied when its transition ends. -/
def Dev.pwrDomain (d : Dev) (c : Cmd) : Option Reply × Dev :=
  let dom := c.par 0 1
  let st := c.par 1 1
  if 101 < dom then (fail 3 16, d)
  else if 3 < st ∨ domSupports dom st = false then (fail 3 17, d)
  else if d.domHeld dom then (fail 1 3, d)
  else (none, if (d.movesOf dom).any (fun m => m.2 == some c.n) then d else d.wantDomain dom st (some c.n))

def execPwrDomain (n : Nat) (s : State) : Host.Outcome State Fault Refusal := s.onDev (fun d => d.runCmd n 0x0802 Dev.pwrDomain)

/-- PWR_STATUS. -/
def Dev.pwrStatus (d : Dev) (_ : Cmd) : Option Reply × Dev :=
  (ok (d.get PWR_STAT_power + d.get PWR_CAP_CFG_cap * 2 ^ 16 + d.get PWR_THERM_hottest * 2 ^ 32), d)

def execPwrStatus (n : Nat) (s : State) : Host.Outcome State Fault Refusal := s.onDev (fun d => d.runCmd n 0x0803 Dev.pwrStatus)

/-! Security (R356, R371, R372, R403 to R405, R439). -/

/-- The object at a device-scope address: its bytes, none when they are no usable memory. -/
def Dev.object (d : Dev) (c : Cmd) : Option (List Byte) :=
  if d.physOk (c.par 0 8) (c.par 8 4) then some (Memory.bytes d.hbm (c.par 0 8) (c.par 8 4)) else none

/-- FLASH_WRITE. -/
def Dev.flashWrite (d : Dev) (c : Cmd) : Option Reply × Dev :=
  let r := c.par 12 1
  if r = 0 ∨ 7 < r then (fail 3 28, d)
  else match d.object c with
    | none => (fail 3 16, d)
    | some bs => match d.regionCheck r bs with
      | some e => (fail 0xA e, d)
      | none => (ok 0, d.setRegion r bs)

def execFlashWrite (n : Nat) (s : State) : Host.Outcome State Fault Refusal := s.onDev (fun d => d.runCmd n 0x0901 Dev.flashWrite)

/-- OVERLAY_LOAD: an accepted overlay is written to region 4 and takes effect at the next boot. -/
def Dev.overlayLoad (d : Dev) (c : Cmd) : Option Reply × Dev :=
  match d.object c with
  | none => (fail 3 16, d)
  | some bs => match d.overlayCheck bs with
    | some (r, o) => (if r < 4 then fail 0xA 3 else fail 3 o, d)
    | none => (ok 0, d.setRegion 4 bs)

def execOverlayLoad (n : Nat) (s : State) : Host.Outcome State Fault Refusal := s.onDev (fun d => d.runCmd n 0x0902 Dev.overlayLoad)

/-- Whether a job holds a service slot of a complex. -/
def Dev.jobSlot (d : Dev) (c : Nat) : Bool :=
  (List.range 4).any (fun i => match (Tab.get (fun _ => Slot.reset) d.slots (4 * c + i)).use with
    | some (.command _) => false
    | some _ => true
    | none => false)

/-- BROKER_IMAGE: the image goes into every complex of the mask; one that is not ON is woken first. -/
def Dev.brokerImage (d : Dev) (c : Cmd) : Option Reply × Dev :=
  let mask := c.par 12 1
  let cs := (List.range 4).filter (bit mask)
  if 15 < mask then (fail 3 28, d)
  else match d.object c with
    | none => (fail 3 16, d)
    | some bs => match d.brokerCheck bs with
      | some e => (fail 0xA e, d)
      | none =>
        if cs.any d.jobSlot then (fail 1 3, d)
        else d.whenOn (cs.map (· + 96)) (fun d => (ok 0, cs.foldl (fun d x => d.loadBroker x bs) d))

def execBrokerImage (n : Nat) (s : State) : Host.Outcome State Fault Refusal := s.onDev (fun d => d.runCmd n 0x0903 Dev.brokerImage)

/-- OWNER_KEY_SET: the certificate goes into region 5, and the owner counter rises to its cgen (R438). -/
def Dev.ownerKeySet (d : Dev) (c : Cmd) : Option Reply × Dev :=
  match d.object c with
  | none => (fail 3 16, d)
  | some bs => match d.certificateCheck bs with
    | some e => (fail 0xA e, d)
    | none => (ok 0, (d.setRegion 5 bs).put SEC_ARB_owner (max (d.get SEC_ARB_owner) (at_ bs 8 4)))

def execOwnerKeySet (n : Nat) (s : State) : Host.Outcome State Fault Refusal := s.onDev (fun d => d.runCmd n 0x0904 Dev.ownerKeySet)

/-! Debug (R388, R441, R442). -/

/-- DBG_CHALLENGE: 16 bytes of the random generator, which are a free value (log 1). -/
def Dev.dbgChallenge (d : Dev) (c : Cmd) : Option Reply × Dev :=
  let (v, d1) := d.free
  let bytes : BitVec 128 := BitVec.ofNat 128 v
  (ok bytes.toNat, { d1 with challenge := some ⟨bytes, if bit (c.par 0 4) 0 then 1 else 2, c.queue⟩ })

def execDbgChallenge (n : Nat) (s : State) : Host.Outcome State Fault Refusal := s.onDev (fun d => d.runCmd n 0x0703 Dev.dbgChallenge)

/-- DBG_RESPONSE: a response that verifies unlocks its job.  The challenge has served (R441). -/
def Dev.dbgResponse (d : Dev) (c : Cmd) : Option Reply × Dev :=
  match d.object c with
  | none => (fail 3 16, d)
  | some bs =>
    let d1 := { d with challenge := d.challenge.filter (fun x => x.queue != c.queue) }
    match d.responseCheck c.queue bs with
    | some e => (fail e.1 e.2, d1)
    | none =>
      let id : BitVec 16 := BitVec.ofNat 16 (at_ bs 6 2)
      (ok 0, ((d1.updJob id (fun j => { j with unlock := some (at_ bs 4 1, at_ bs 12 4) })).put SEC_STAT_unlock_job id.toNat).showUnlock)

def execDbgResponse (n : Nat) (s : State) : Host.Outcome State Fault Refusal := s.onDev (fun d => d.runCmd n 0x0704 Dev.dbgResponse)

/-- Whether an unlock lets a command read (or write) a space. -/
def Dev.unlocked (d : Dev) (c : Cmd) (j : Job) (space : Nat) (write : Bool) : Bool :=
  match j.unlock with
  | some (1, _) => decide (space < 3) && c.queue == j.owner && (!write || j.phase == .live)
  | some (2, _) => decide (space < 4) && j.phase == .live && d.queueKind c.queue.toNat == .pf0
  | _ => false

/-- The core that an address of space 0 or 1 names. -/
def dbgCore (a : Nat) : CoreId := ⟨BitVec.ofNat 8 (bits a 24 8), BitVec.ofNat 8 (bits a 32 8)⟩

/-- Whether an access of a space stays inside the job's cores and pages (R442): a core of the job and mapped memory of the core, listed CSRs, pages
of the job, aligned register words of BAR0. -/
def Dev.dbgInside (d : Dev) (id : BitVec 16) (j : Job) (space a n : Nat) : Bool :=
  if space = 0 then
    (d.jobCores id).contains (dbgCore a) && decide (a < 2 ^ 40) && (match regionOf (bits a 0 24) with
      | some (r, lo, sz) => decide (bits a 0 24 + n ≤ lo + sz) && !((d.core (dbgCore a)).offMask r)
      | none => false)
  else if space = 1 then
    (d.jobCores id).contains (dbgCore a) && decide (a < 2 ^ 40) && bits a 12 12 == 0
      && (List.range (cdiv n 8)).all (fun i => (d.csr (dbgCore a) (d.core (dbgCore a)) (bits a 0 12 + i)).isSome)
  else if space = 2 then d.mapped id j a n
  else a % 4 == 0 && n % 4 == 0 && decide (a + n ≤ 2 ^ 26)

/-- The bytes of an access of a space: consecutive CSRs of 8 bytes, registers by words, which Naeno reads (R446). -/
def Dev.dbgBytes (d : Dev) (j : Job) (space a n : Nat) : List Byte × Dev :=
  let k := d.core (dbgCore a)
  if space = 0 then (Memory.bytes k.mem (bits a 0 24) n, d)
  else if space = 1 then
    (((List.range (cdiv n 8)).flatMap (fun i => toBytes 8 ((d.csr (dbgCore a) k (bits a 0 12 + i)).getD 0).toNat)).take n, d)
  else if space = 2 then ((d.virtBytes j.table a n).1, d)
  else (List.range (n / 4)).foldl (fun (r : List Byte × Dev) i =>
    let (v, d1) := r.2.readReg .naeno (a + 4 * i) 4
    (r.1 ++ toBytes 4 v, d1)) ([], d)

/-- The status of a debug access before it begins. -/
def Dev.dbgError (d : Dev) (c : Cmd) (j : Job) (write : Bool) : Option (Nat × Nat) :=
  let space := c.par 0 1
  let n := c.par 12 4
  if 3 < space then some (3, 16)
  else if d.unlocked c j space write = false then some (0xA, 5)
  else if n = 0 ∨ 2 ^ 21 < n then some (3, 28)
  else if d.dbgInside c.job j space (c.par 4 8) n = false then some (3, 20)
  else if d.mapped c.job j (c.par 16 8) n = false then some (3, 32)
  else none

/-- DBG_READ. -/
def Dev.dbgRead (d : Dev) (c : Cmd) : Option Reply × Dev :=
  d.withJob c (fun j =>
    match d.dbgError c j false with
    | some e => (fail e.1 e.2, d)
    | none =>
      let (bs, d1) := d.dbgBytes j (c.par 0 1) (c.par 4 8) (c.par 12 4)
      (ok (ofBytes (bs.take 16)), d1.virtWrite j.table (c.par 16 8) bs))

def execDbgRead (n : Nat) (s : State) : Host.Outcome State Fault Refusal := s.onDev (fun d => d.runCmd n 0x0701 Dev.dbgRead)

/-- A debug write to one CSR: CSR_FFLAGS clears the bits that are 1, CSR_FRM takes 0 to 4, and the others are read-only (R34). -/
def Core.dbgCsr (k : Core) (n v : Nat) : Core :=
  if n = 0x004 then { k with fflags := k.fflags &&& ~~~(BitVec.ofNat 5 v) }
  else if n = 0x005 ∧ v % 8 < 5 then { k with frm := BitVec.ofNat 3 v }
  else k

/-- Writes bytes to a space. -/
def Dev.dbgStore (d : Dev) (j : Job) (space a : Nat) (bs : List Byte) : Dev :=
  let c := dbgCore a
  if space = 0 then
    let lo := bits a 0 24
    d.upd c (fun k => { k with mem := Memory.writeBytes k.mem lo bs,
                               poison := Tab.clear k.poison (cdiv lo 64) ((lo + bs.length) / 64 - cdiv lo 64) })
  else if space = 1 then
    d.upd c (fun k => (List.range (cdiv bs.length 8)).foldl (fun k i => k.dbgCsr (bits a 0 12 + i) (ofBytes ((bs.drop (8 * i)).take 8))) k)
  else if space = 2 then d.virtWrite j.table a bs
  else (List.range (bs.length / 4)).foldl (fun d i => d.writeReg .naeno (a + 4 * i) 4 (ofBytes ((bs.drop (4 * i)).take 4))) d

/-- DBG_WRITE. -/
def Dev.dbgWrite (d : Dev) (c : Cmd) : Option Reply × Dev :=
  d.withJob c (fun j =>
    match d.dbgError c j true with
    | some e => (fail e.1 e.2, d)
    | none => (ok 0, d.dbgStore j (c.par 0 1) (c.par 4 8) (d.virtBytes j.table (c.par 16 8) (c.par 12 4)).1))

def execDbgWrite (n : Nat) (s : State) : Host.Outcome State Fault Refusal := s.onDev (fun d => d.runCmd n 0x0702 Dev.dbgWrite)

/-- An unlock ends. -/
def Dev.unlockExpire (d : Dev) (id : BitVec 16) : Dev := (d.updJob id (fun j => { j with unlock := none })).showUnlock

/-- UNLOCK_EXPIRE: the duration of a job's unlock has ended. -/
def execUnlockExpire (job : BitVec 16) (s : State) : Host.Outcome State Fault Refusal := s.onDev (fun d => d.unlockExpire job)

/-- CHALLENGE_EXPIRE: the unused challenge is 60 s old. -/
def execChallengeExpire (s : State) : Host.Outcome State Fault Refusal := s.onDev (fun d => { d with challenge := none })

end Sys2Proof.Machine
end

