-- ==== Sys2Proof/Machine/Checkpoint.lean ====
section
/-! DEFINITION. CKPT_EXPORT and STATE_IMPORT (R225, R226, R244, R363 to R365). -/

namespace Sys2Proof.Machine

/-- The shard entry `i` of a Clerk for a job. -/
def Dev.shardEntry (d : Dev) (j : Job) (k i : Nat) : BitVec 1024 :=
  let va := d.get (CLERK_CTX_stbase k (j.ctx.getD 0)) + 128 * i
  BitVec.ofNat 1024 (Memory.readN d.hbm (d.translate j.table va) 128)

/-- The bytes of a record of R244. -/
def recordLength (e : BitVec 1024) (sel : Nat) : Nat := 128 + cdiv (exportLength (Shard.ofBits e) sel) 64 * 64

/-- The shards of a command in order, each with its serving Clerk and an operand of its own. -/
def shardList {α : Type} (first count : Nat) (l : List (BitVec 4 × α)) : List (Nat × Nat × α) :=
  (l.take count).zipIdx.map (fun p => (first + p.2, p.1.1.toNat, p.1.2))

/-- Whether a record fits in the job's staging pages on its Clerk's stack. -/
def Dev.stages (d : Dev) (id : BitVec 16) (j : Job) (sel : Nat) (x : Nat × Nat × BitVec 40) : Bool :=
  let n := recordLength (d.shardEntry j x.2.1 x.1) sel
  d.mapped id j x.2.2.toNat n && (pagesOf x.2.2.toNat n).all (fun v => (d.pte j.table v).stack == x.2.1 / 2)

/-- The EXPORT request for a shard (R229, R244). -/
def Dev.exportPacket (d : Dev) (id : BitVec 16) (j : Job) (sel : Nat) (x : Nat × Nat × BitVec 40) : Packet :=
  let r := stackRouter d.rows (x.2.1 / 2)
  let bs := toBytes 1 0x24 ++ toBytes 1 0 ++ toBytes 2 x.1 ++ toBytes 4 j.step.toNat ++ toBytes 5 x.2.2.toNat ++ toBytes 1 sel ++ toBytes 18 0
  { type := 0x04, dstX := BitVec.ofNat 8 r.1, dstY := BitVec.ofNat 8 r.2, dstSub := BitVec.ofNat 4 (4 + x.2.1 % 2), dstUnit := 2, vc := 0,
    srcX := 0, srcY := 0, srcSub := 0, srcUnit := 2, job := id, jgen := j.gen, inl := 0,
    payload := [BitVec.ofNat 128 (ofBytes bs), BitVec.ofNat 128 (ofBytes (bs.drop 16))] }

/-- Whether an EXPORT of a job is on the network or at a Clerk. -/
def Dev.exporting (d : Dev) (id : BitVec 16) : Bool :=
  let mine := fun (p : Packet) => p.job == id && p.type == 0x04 && p.dstUnit == 2 && reqOp p == 0x24
  d.flight.any mine || (List.range 16).any (fun k => (d.clerk k).queue.any mine)

/-- CKPT_EXPORT: `staging` are the serving Clerk and the staging address of each shard in order, `refused` the first shard that storage
refuses.  The gate opens once the records are staged, or with the reply if `pause` is 1; a delegated export then waits for
DELEGATE_RESULT (R343, R364). -/
def Dev.ckptExport (d : Dev) (staging : List (BitVec 4 × BitVec 40)) (refused : Option (BitVec 16)) (c : Cmd) : Option Reply × Dev :=
  d.withJob c (fun j =>
    let first := c.par 0 2
    let count := c.par 2 2
    let sel := bits (c.par 4 4) 0 2
    let xs := shardList first count staging
    if c.stage = 0 then
      let d1 := (d.chargeIdle c.job).updJob c.job (fun j => { j with shut := true })
      if d.allHalted c.job = false then (none, d1)
      else if xs.length ≠ count ∨ xs.any (fun x => !(d.stages c.job j sel x)) = true then (fail 3 16, d1)
      else (none, (xs.foldl (fun d x => d.send (d.exportPacket c.job j sel x)) d1).setStage c.n 1)
    else if d.exporting c.job = true ∨ c.stage ≠ 1 then (none, d)
    else
      let d1 := (if bits (c.par 4 4) 2 1 = 0 then d.openGate c.job else d).setStage c.n 2
      let good := xs.takeWhile (fun x => refused != some (BitVec.ofNat 16 x.1))
      let d2 := good.foldl (fun d x => d.emit (.stored (c.par 8 8) x.1
        ((d.virtBytes j.table x.2.2.toNat (recordLength (d.shardEntry j x.2.1 x.1) sel)).1))) d1
      (if good.length = xs.length then ok count else fail 0xC (3 + (first + good.length) * 2 ^ 16), d2))

def execCkptExport (n : Nat) (staging : List (BitVec 4 × BitVec 40)) (refused : Option (BitVec 16)) (s : State) :
    Host.Outcome State Fault Refusal :=
  s.onDev (fun d => d.runCmd n 0x0601 (fun d c => d.ckptExport staging refused c))

/-! STATE_IMPORT (R365). -/

/-- Why a record is not imported for a shard entry: 4 a CRC, 16 a field. -/
def recordError (e : BitVec 1024) (bs : List Byte) : Option Nat :=
  let n := at_ bs 76 8
  let sel := at_ bs 7 1
  if crc32c (bs.take 92) ≠ at_ bs 92 4 ∨ bs.length < 128 + n ∨ crc32c ((bs.drop 128).take n) ≠ at_ bs 88 4 then some 4
  else if at_ bs 8 4 ≠ entAt e 0 4 ∨ at_ bs 12 1 ≠ entAt e 60 1 ∨ at_ bs 16 48 ≠ entAt e 64 48 ∨ 3 < sel
      ∨ at_ bs 6 1 ≠ exportFmt (Shard.ofBits e) sel ∨ n ≠ exportLength (Shard.ofBits e) sel then some 16
  else none

/-- Writes a payload into its array, in the layout of R225 and R226. -/
def Dev.importArray (d : Dev) (base : Nat) (e : BitVec 1024) (sel : Nat) (pay : List Byte) : Dev :=
  let s := Shard.ofBits e
  if sel = 0 ∧ s.split = true then
    let vs := (List.range s.count).map (fun i => ofBytes ((pay.drop (4 * i)).take 4))
    (d.virtWrite base (arrayVa e 0) (vs.flatMap (fun v => toBytes 2 (splitHi v)))).virtWrite base (arrayVa e 4)
      (vs.flatMap (fun v => toBytes 2 v))
  else if sel = 3 ∧ s.split = false ∧ s.isMx = true then
    let n := cdiv (s.count * s.copyWidth) 8
    (d.virtWrite base (arrayVa e 4) (pay.take n)).virtWrite base (arrayVa e 4 + s.scaleOffset) (pay.drop n)
  else d.virtWrite base (arrayVa e (if sel = 3 then (if s.split then 0 else 4) else sel)) pay

/-- Imports records one after another until one fails. -/
def Dev.importAll (d : Dev) (j : Job) : List (Nat × Nat × List Byte) → Option Reply × Dev
  | [] => (none, d)
  | x :: xs =>
    let e := d.shardEntry j x.2.1 x.1
    match recordError e x.2.2 with
    | some 4 => (fail 0xC (4 + x.1 * 2 ^ 16), d)
    | some r => (fail 3 r, d)
    | none => Dev.importAll (d.importArray j.table e (at_ x.2.2 7 1) ((x.2.2.drop 128).take (at_ x.2.2 76 8))) j xs

/-- STATE_IMPORT: `records` are the serving Clerk of each shard in order and the bytes that storage holds for it; a shard without a record
counts as one whose CRC fails. -/
def Dev.stateImport (d : Dev) (records : List (BitVec 4 × List Byte)) (c : Cmd) : Option Reply × Dev :=
  d.withJob c (fun j =>
    let first := c.par 8 2
    let count := c.par 10 2
    if j.running && !(d.allHalted c.job) then (fail 1 3, d)
    else
      let xs := shardList first count (records ++ List.replicate (count - records.length) ((0 : BitVec 4), ([] : List Byte)))
      match d.importAll j xs with
      | (some r, d1) => (some r, d1)
      | (none, d1) => (ok count, d1))

def execStateImport (n : Nat) (records : List (BitVec 4 × List Byte)) (s : State) : Host.Outcome State Fault Refusal :=
  s.onDev (fun d => d.runCmd n 0x0602 (fun d c => d.stateImport records c))

end Sys2Proof.Machine
end

