-- ==== Sys2Proof/Machine/Boot.lean ====
section
/-! DEFINITION. Resets, the boot order, host-driven bring-up, the running map and remaps, the Wardens, and the shutdown after a trip or a rail
fault (R105, R108, R121, R301, R320 to R322, R344, R345, R370 to R377, R385, R393, R394, R399 to R401, R405, R438, R461, R463, R467 to R470). -/

namespace Sys2Proof.Machine

/-! What a reset leaves (R385, R461). -/

/-- The device after a reset of every domain outside the always-on domain: the always-on domain keeps the straps, the fuse counters, the I3C
target, the flash and the state of the PCIe link; with `keep` the stacks keep their contents in self-refresh. -/
def Dev.restart (d : Dev) (keep : Bool) : Dev :=
  let e : Dev := { Dev.reset with
    fuse := d.fuse, ck := d.ck, freeCtr := d.freeCtr, out := d.out, alert := d.alert, ibiOn := d.ibiOn, i3c := d.i3c, flash := d.flash,
    faultLog := d.faultLog, badPages := d.badPages, badRows := d.badRows, trip := d.trip, inReset := d.inReset, jtag := d.jtag, pcie := d.pcie,
    msixMask := d.msixMask, tasks := [],
    hbm := if keep then d.hbm else [], hbmPoison := if keep then d.hbmPoison else [] }
  let kept := [BOOT_STRAP_boot_src, BOOT_STRAP_link_auto, SEC_STAT_revoked, SEC_STAT_owner_key, SEC_ARB_naeno, SEC_ARB_broker, SEC_ARB_owner,
    PCIE_STAT_rate, PCIE_STAT_width, PCIE_STAT_flit]
  let e1 := kept.foldl (fun e f => e.put f (d.get f)) e
  if keep then (List.range 8).foldl (fun e k => (e.setDom (80 + k) 2).put (HBM_STAT_state k) 2) e1 else e1

/-- RESET_N falls: a cold reset in every domain.  Fuses, the fuse counters and the flash stay (R392, R438, R461). -/
def Dev.coldReset (d : Dev) : Dev :=
  let e : Dev := { Dev.reset with
    fuse := d.fuse, ck := d.ck, freeCtr := d.freeCtr, out := d.out, flash := d.flash, faultLog := d.faultLog, badPages := d.badPages,
    badRows := d.badRows, inReset := true, jtag := d.jtag, pcie := { d.pcie with up := false } }
  [SEC_STAT_revoked, SEC_STAT_owner_key, SEC_ARB_naeno, SEC_ARB_broker, SEC_ARB_owner].foldl (fun e f => e.put f (d.get f)) e

/-- COLD_RESET: RESET_N falls, or rises with the straps as (BOOT_SRC, LINK_AUTO) (R370, R461). -/
def execColdReset (straps : Option (Bool × Bool)) (s : State) : Host.Outcome State Fault Refusal :=
  s.onAlways (fun d => match straps with
    | none => d.coldReset
    | some x => if d.inReset then
        (({ d with inReset := false, jtag := if [3, 4, 5].contains d.jtag.ir then { d.jtag with ir := 0xFF, select := 2 } else d.jtag }).put BOOT_STRAP_boot_src x.1.toNat).put BOOT_STRAP_link_auto x.2.toNat
      else d)

/-- The pages of the jobs that exist, with their page tables. -/
def Dev.allJobPages (d : Dev) : List Nat :=
  d.jobIds.flatMap (fun i => match d.job i with
    | some j => d.pageOf j.table :: (d.pageOf j.table + 1) :: j.pages
    | none => [])

/-- WARM_RESET: the steps of R385.  The error code in the replies to the other commands is a free value (log 1). -/
def Dev.warmReset (d : Dev) (n : Nat) : Dev :=
  match d.cmd n with
  | none => d
  | some c =>
    if c.opcode ≠ 0x0003 ∨ c.phase ≠ .started then d
    else if d.jobIds.isEmpty = false ∧ bit (c.par 0 4) 1 = false then d.reply c 1 3 0
    else
      let (v, d1) := (d.reply c 0 0 0).free
      let d2 := d1.cmds.foldl (fun d x => d.replyNow x 0xC (v % 2 ^ 16) 0) d1
      let d3 := (List.range 96).foldl (fun d p => d.sendGoingDown p 1) d2
      (d3.scrubPages d3.allJobPages).restart (bit (c.par 0 4) 0)

def execWarmReset (n : Nat) (s : State) : Host.Outcome State Fault Refusal := s.onDev (fun d => d.warmReset n)

/-! The running map (R393, R394, R399). -/

/-- Whether row record `n` is the outermost row on its die's HBM edge. -/
def edgeRow (n : Nat) : Bool := if n < 96 then n % 48 == 0 else n % 48 == 47

/-- The bad, and so unusable, cores of a row: those that failed at final test or since. -/
def Dev.unusable (d : Dev) (n : Nat) : Nat := d.get (FUSE_ROW_bad n) ||| d.get (MESH_ROWMAP_faulty n)

/-- The spare that takes the place of column `c` of row `n`: the lowest hidden good column that keeps R393 true, and that no remap under way
takes. -/
def Dev.spareFor (d : Dev) (n c : Nat) : Option Nat :=
  (List.range 50).find? (fun s =>
    bit (d.get (MESH_ROWMAP_hidden n)) s && !(bit (d.unusable n) s) && (!(edgeRow n) || decide (s < 25) == decide (c < 25))
      && !(d.remaps.any (fun r => r.row == n && r.spare == s)))

/-- Column `c` of row `n` is hidden as faulty, with its spare in its place; none when the row has no spare. -/
def Dev.hideCore (d : Dev) (n c : Nat) : Option Dev :=
  let h := d.get (MESH_ROWMAP_hidden n)
  let d1 := d.put (MESH_ROWMAP_faulty n) (setBits (d.get (MESH_ROWMAP_faulty n)) c 1 1)
  if bit h c ∨ d.get (MESH_ROWMAP_retired n) = 1 then some d1
  else (d.spareFor n c).map (fun s => d1.put (MESH_ROWMAP_hidden n) (setBits (setBits h s 1 0) c 1 1))

/-- Hides cores one after another; the record of the first row that has no spare, or the device. -/
def Dev.hideAll (d : Dev) : List (Nat × Nat) → Nat ⊕ Dev
  | [] => .inr d
  | x :: xs => match d.hideCore x.1 x.2 with
    | some d1 => Dev.hideAll d1 xs
    | none => .inl x.1

/-- The cores that the fault log records as faulty. -/
def Dev.loggedCores (d : Dev) : List (Nat × Nat) := d.faultLog.filterMap (fun e => match e with | .core n c => some (n, c) | _ => none)

/-! Boot (R370 to R377). -/

/-- Boot ends in FAILED, or a host step has failed (R374 to R376). -/
def Dev.bootFail (d : Dev) (cause detail : Nat) : Dev :=
  let d1 := ((d.put BOOT_STAT_stage 15).put BOOT_STAT_cause cause).put BOOT_STAT_detail detail
  if d.get BOOT_STEP_status = 1 then (d1.put BOOT_STEP_status 3).put BOOT_STEP_go 0 else d1

/-- The contents of the flash, which the probe finds when the device does not know them yet (log 18). -/
def Dev.probe (d : Dev) (x : FlashProbe) : Dev :=
  if d.flash = Flash.reset then
    let f : Flash := ⟨x.size, x.regions.foldl (fun t (r : BitVec 3 × List Byte) => if r.1 = 0 then t else Tab.set (fun _ => []) t r.1.toNat r.2) []⟩
    let d1 := { d with flash := f }
    d1.put SEC_STAT_owner_key (!(d1.region 5).isEmpty).toNat
  else d

/-- Naeno starts from an image: its version is not in the image's header and is a free value (log 1).  Queue 63 is the I3C mailbox at class 3
(R321, R325); the standbys wait (R373). -/
def Dev.startNaeno (d : Dev) : Dev :=
  let (v, d1) := d.free
  let devnum := if (d.region 6).isEmpty then 0 else at_ (d.region 6) 0 4 % 2 ^ 18
  ((((({ d1 with firmware := BitVec.ofNat 64 v, naenoRuns := true, devnum := BitVec.ofNat 18 devnum }).put WARD_ACTIVE_alive 15).put
    WARD_ACTIVE_die 0).put (WARD_Q_loc 63) 3).put (WARD_Q_cls 63) 3).put (WARD_Q_en 63) 1

/-- The Warden ROM verifies the two Naeno copies of the flash and boots one (R372, R374). -/
def Dev.romBoot (d : Dev) : Dev :=
  let a := d.region 1
  let b := d.region 2
  let tried := (!a.isEmpty).toNat + (!b.isEmpty).toNat * 2
  let ra := if a.isEmpty then some 3 else d.naenoCheck a
  let rb := if b.isEmpty then some 3 else d.naenoCheck b
  if d.flash.size.all (fun n => decide (n < 2 ^ 25)) then d.bootFail 1 0
  else if ra = some 3 ∧ rb = some 3 then d.bootFail 2 tried
  else if ra.isSome ∧ rb.isSome then d.bootFail 3 tried
  else (d.put BOOT_STAT_copy (if ra.isSome ∨ (rb.isNone ∧ at_ a 8 4 < at_ b 8 4) then 1 else 0)).startNaeno

/-- Runs a stage of the boot order that follows stage `before`, under BOOT_SRC = FLASH. -/
def Dev.flashStage (d : Dev) (before stage : Nat) (f : Dev → Dev) : Dev :=
  if d.inReset ∨ d.trip.isSome ∨ d.get BOOT_STRAP_boot_src = 1 ∨ d.get BOOT_STAT_stage ≠ before then d
  else f (d.put BOOT_STAT_stage stage)

/-- BOOT_ROM: stage 0x1.  Under BOOT_SRC = HOST it ends after the fuse read. -/
def Dev.bootRom (d : Dev) (x : FlashProbe) : Dev :=
  if d.inReset ∨ d.trip.isSome ∨ d.get BOOT_STAT_stage ≠ 0 then d
  else
    let d1 := d.put BOOT_STAT_stage 1
    if d.get BOOT_STRAP_boot_src = 1 then d1 else (d1.probe x).romBoot

def execBootRom (x : FlashProbe) (s : State) : Host.Outcome State Fault Refusal := s.onLive (fun d => d.bootRom x)

/-- The overlay of region 4 is applied as a whole, or rejected, logged and ignored (R405). -/
def Dev.applyOverlay (d : Dev) : Dev :=
  let bs := d.region 4
  if bs.isEmpty then d.put CAL_STAT_overlay 0
  else match d.overlayCheck bs with
    | none =>
      let t := (ovItems bs).foldl (fun t x => Tab.set (fun _ => (0 : Int)) t (x.cls * 2 ^ 16 + x.index) x.delta) []
      ((({ d with overlay := t }).put CAL_STAT_overlay 1).put CAL_STAT_key (at_ bs 6 1)).put CAL_STAT_items (ovItems bs).length
    | some r => ((d.put CAL_STAT_overlay 2).put CAL_STAT_reason r.1).raise 0x0070 ⟨9, 0, 0, 0, 0, r.2⟩

/-- The work of stage 0x2: `fail` names a PLL that did not lock. -/
def Dev.clocks (d : Dev) (fail : Option (BitVec 8)) : Dev :=
  match fail with
  | some n => d.bootFail 4 n.toNat
  | none =>
    let on := (List.range 16) ++ (List.range 22).map (· + 80)
    let d1 := on.foldl (fun d n => d.setDom n 0) d
    let d2 := (List.range 192).foldl (fun d n => ((d.put (MESH_ROWMAP_hidden n) (d.get (FUSE_ROW_hidden n))).put (MESH_ROWMAP_faulty n) 0).put
      (MESH_ROWMAP_retired n) (d.get (FUSE_ROW_retired n))) d1
    match d2.hideAll d2.loggedCores with
    | .inl n => d2.bootFail 7 (n / 48)
    | .inr d3 =>
      let d4 := d3.applyOverlay
      d4.put CLK_CORE_current d4.coreGoal.2

/-- BOOT_CLOCKS: stage 0x2. -/
def execBootClocks (fail : Option (BitVec 8)) (s : State) : Host.Outcome State Fault Refusal :=
  s.onLive (fun d => (d.flashStage 1 2 (fun d => d.clocks fail)))

/-- The work of stage 0x3: memories zero, stock tiers OFF; `fail` is the block of a memory beyond repair. -/
def Dev.sramTest (d : Dev) (fail : Option (BitVec 8)) : Dev :=
  match fail with
  | some b => d.bootFail 5 b.toNat
  | none => (List.range 64).foldl (fun d n => d.setDom (16 + n) 3) { d with cores := [] }

/-- BOOT_SRAM: stage 0x3. -/
def execBootSram (fail : Option (BitVec 8)) (s : State) : Host.Outcome State Fault Refusal :=
  s.onLive (fun d => d.flashStage 2 3 (fun d => d.sramTest fail))

/-- The work of stage 0x4: a stack in self-refresh keeps its contents, the others are zero (R373, R385). -/
def Dev.hbmTrain (d : Dev) (fail : Option (BitVec 3)) : Dev :=
  match fail with
  | some k => d.bootFail 6 k.toNat
  | none =>
    (List.range 8).foldl (fun d k =>
      let d1 := if d.get (HBM_STAT_state k) = 2 then d else d.loseStack k
      (d1.put (HBM_STAT_state k) 1).put (HBM_STAT_retired k) (sat 16 (d.badPages.filter (fun p => stackOf (p * 2 ^ 21) == k)).length)) d

/-- BOOT_HBM: stage 0x4. -/
def execBootHbm (fail : Option (BitVec 3)) (s : State) : Host.Outcome State Fault Refusal :=
  s.onLive (fun d => d.flashStage 3 4 (fun d => d.hbmTrain fail))

/-- The work of stage 0x5: with LINK_AUTO = 1 every enabled port starts in LOCK. -/
def Dev.linkStage (d : Dev) : Dev :=
  if d.get BOOT_STRAP_link_auto = 1 then (List.range 96).foldl (fun d p => if d.portOn p then d.setLinkState p 1 0 else d) d else d

/-- BOOT_LINKS: stage 0x5. -/
def execBootLinks (s : State) : Host.Outcome State Fault Refusal := s.onLive (fun d => d.flashStage 4 5 Dev.linkStage)

/-- What self-test finds in stage 0x6 on the hardware's side: arcades whose check engine fails its signature, and cores, by row record and
column, that fail (R105, R399). -/
def Dev.selfTest (d : Dev) (engines : List (BitVec 10)) (bad : List (BitVec 8 × BitVec 6)) : Nat ⊕ Dev :=
  let d1 := engines.foldl (fun d a =>
    ({ d with arcades := Tab.set (fun _ => Arcade.reset) d.arcades a.toNat { Tab.get (fun _ => Arcade.reset) d.arcades a.toNat with working := false }
       }).raise 0x0033 ⟨1, arcadeUnit a.toNat, 0, 0, 0, 0⟩) d
  match d1.hideAll (bad.map (fun x => (x.1.toNat, x.2.toNat))) with
  | .inl n => .inl n
  | .inr d2 => .inr { d2 with faultLog := d2.faultLog ++ bad.map (fun x => FaultEntry.core x.1.toNat x.2.toNat) }

/-- Naeno loads the Broker images. -/
def Dev.bootBrokers (d : Dev) : Dev := (List.range 4).foldl Dev.bootBroker d

/-- BOOT_CORES: stage 0x6; `warden` is a die without a working Warden (cause 7). -/
def execBootCores (engines : List (BitVec 10)) (bad : List (BitVec 8 × BitVec 6)) (warden : Option (BitVec 2)) (s : State) :
    Host.Outcome State Fault Refusal :=
  s.onLive (fun d => (d.flashStage 5 6 (fun d =>
    match warden, d.selfTest engines bad with
    | some w, _ => d.bootFail 7 w.toNat
    | none, .inl n => d.bootFail 7 (n / 48)
    | none, .inr d1 => d1.bootBrokers)))

/-- READY: the counters of SEC_ARB rise, and every BAR is served (R373, R438). -/
def Dev.ready (d : Dev) : Dev :=
  let a := d.region 1
  let b := d.region 2
  let both := !a.isEmpty && !b.isEmpty && (d.naenoCheck a).isNone && (d.naenoCheck b).isNone
  let low := min (at_ a 8 4) (at_ b 8 4)
  let d1 := if both then d.put SEC_ARB_naeno (max (d.get SEC_ARB_naeno) low) else d
  let svn := (List.range 4).foldl (fun m c => max m (d.get (BRK_CPX_STAT_svn c))) 0
  ((d1.put SEC_ARB_broker (max (d.get SEC_ARB_broker) svn)).put BOOT_STAT_stage 8).put PCIE_STAT_ready 1

/-- BOOT_READY: stage 0x8. -/
def execBootReady (s : State) : Host.Outcome State Fault Refusal := s.onLive (fun d => d.flashStage 6 8 Dev.ready)

/-! Host-driven bring-up (R375 to R377). -/

/-- Runs the host's step `n` if it is the one that runs, and records how it ends: a step that failed may run again. -/
def Dev.hostStep (d : Dev) (n ms : Nat) (f : Dev → Dev) : Dev :=
  if d.inReset ∨ d.trip.isSome ∨ d.get BOOT_STEP_status ≠ 1 ∨ d.get BOOT_STEP_step ≠ n then d
  else
    let d1 := (f d).put BOOT_STEP_elapsed (sat 16 ms)
    if d1.get BOOT_STEP_status = 3 then { d1 with bootStep := if n = 6 then 5 else d.bootStep }
    else { (d1.put BOOT_STEP_status 2).put BOOT_STEP_go 0 with bootStep := n }

def execBootStepClocks (ms : BitVec 32) (fail : Option (BitVec 8)) (s : State) : Host.Outcome State Fault Refusal :=
  s.onLive (fun d => (d.hostStep 2 ms.toNat (fun d => d.clocks fail)))
def execBootStepSram (ms : BitVec 32) (fail : Option (BitVec 8)) (s : State) : Host.Outcome State Fault Refusal :=
  s.onLive (fun d => d.hostStep 3 ms.toNat (fun d => d.sramTest fail))
def execBootStepHbm (ms : BitVec 32) (fail : Option (BitVec 3)) (s : State) : Host.Outcome State Fault Refusal :=
  s.onLive (fun d => d.hostStep 4 ms.toNat (fun d => d.hbmTrain fail))
def execBootStepLinks (ms : BitVec 32) (s : State) : Host.Outcome State Fault Refusal :=
  s.onLive (fun d => d.hostStep 5 ms.toNat Dev.linkStage)

/-- BOOT_STEP_CORES: the parts of Naeno wait for step 0x7. -/
def execBootStepCores (ms : BitVec 32) (engines : List (BitVec 10)) (bad : List (BitVec 8 × BitVec 6)) (s : State) :
    Host.Outcome State Fault Refusal :=
  s.onLive (fun d => (d.hostStep 6 ms.toNat (fun d => match d.selfTest engines bad with
    | .inl n => d.bootFail 7 (n / 48)
    | .inr d1 => d1)))

/-- BOOT_STEP_WARDEN: Naeno starts from the flash, or from the image in BOOT_STAGE, completes stage 0x6 and sets READY (R376). -/
def Dev.bootWarden (d : Dev) (x : FlashProbe) : Dev :=
  let d1 := if d.get BOOT_STEP_arg = 0 then (d.probe x).romBoot
    else
      let h := Memory.bytes d.stage 0 256
      match d.naenoCheck (Memory.bytes d.stage 0 (min (2 ^ 23) (256 + at_ h 16 8))) with
      | some 4 => d.bootFail 3 0
      | some _ => d.bootFail 2 0
      | none => d.startNaeno
  if d1.naenoRuns then d1.bootBrokers.ready else d1

def execBootStepWarden (ms : BitVec 32) (x : FlashProbe) (s : State) : Host.Outcome State Fault Refusal :=
  s.onLive (fun d => (d.hostStep 7 ms.toNat (fun d => d.bootWarden x)))

/-- BOOT_STAGE_WRITE: a host write of bytes at an offset of the BOOT_STAGE window (R377). -/
def execBootStageWrite (o : BitVec 23) (bs : List Byte) (s : State) : Host.Outcome State Fault Refusal :=
  s.onLive (fun d => if d.pcie.up then d.stageWrite (0x800000 + o.toNat) (bs.take (2 ^ 23 - o.toNat)) else d)

/-- BOOT_STAGE_TIMEOUT: the stage that follows, or the host's step, has passed its limit: cause 8 with its number (R373, R374). -/
def Dev.stageTimeout (d : Dev) : Dev :=
  let stage := d.get BOOT_STAT_stage
  if d.inReset ∨ d.trip.isSome then d
  else if d.get BOOT_STEP_status = 1 then
    let n := d.get BOOT_STEP_step
    let d1 := d.bootFail 8 n
    { d1 with bootStep := if n = 6 then 5 else d.bootStep }
  else if d.get BOOT_STRAP_boot_src = 0 ∧ stage < 6 then d.bootFail 8 (stage + 1)
  else d

def execBootStageTimeout (s : State) : Host.Outcome State Fault Refusal := s.onLive Dev.stageTimeout

/-! The Wardens (R344, R345). -/

/-- The seconds left of the unlocks at the end of a second (R442). -/
def Dev.countUnlocks (d : Dev) : Dev :=
  (d.jobIds.foldl (fun d i => d.updJob i (fun j => { j with unlock := j.unlock.map (fun u => (u.1, u.2 - 1)) })) d).showUnlock

/-- WARDEN_HEARTBEAT: a millisecond has passed and the active Warden shows that it is alive; its busy fraction is a free value (log 1). -/
def Dev.heartbeat (d : Dev) : Dev :=
  if d.naenoRuns = false then d
  else
    let (v, d1) := d.free
    let d2 := ({ d1 with ms := d.ms + 1 }).put WARD_LOAD_busy v
    let die := d.get WARD_ACTIVE_die
    let d3 := d2.put WARD_ACTIVE_alive (setBits (d.get WARD_ACTIVE_alive) die 1 1)
    if (d.ms + 1) % 1000 = 0 then d3.countUnlocks else d3

def execWardenHeartbeat (s : State) : Host.Outcome State Fault Refusal := s.onDev Dev.heartbeat

/-- WARDEN_TAKEOVER: the live standby on the lowest-numbered die takes over; commands that have started are replied HW_ERROR detail 1. -/
def Dev.takeover (d : Dev) : Dev :=
  let old := d.get WARD_ACTIVE_die
  let alive := setBits (d.get WARD_ACTIVE_alive) old 1 0
  match (List.range 4).find? (bit alive) with
  | none => d
  | some die =>
    let d1 := (((d.put WARD_ACTIVE_alive alive).put WARD_ACTIVE_die die).bump WARD_ACTIVE_takeovers 1).setAlert 8
    let d2 := (d1.cmds.filter (fun c => c.phase == .started)).foldl (fun d c => d.replyNow c 0xC 1 0) d1
    d2.raise 0x0060 ⟨7, die, 0, 0, 0, old⟩

def execWardenTakeover (s : State) : Host.Outcome State Fault Refusal := s.onDev (fun d => if d.naenoRuns then d.takeover else d)

/-! Remaps (R108, R400, R401). -/

/-- Whether a Porter transfer of a job targets one of some cores. -/
def Dev.targeted (d : Dev) (cs : List CoreId) : Bool :=
  (List.range 32).any (fun n => (d.porter n).transfers.any (fun t => (PDesc.ofBits t.desc).cores.any cs.contains))

/-- REMAP: at a step boundary, a core whose matrix engine is faulty begins to move to a spare; without one Naeno reports NO_SPARE. -/
def Dev.remap (d : Dev) (c : CoreId) : Dev :=
  let k := d.core c
  if k.meFaulty = false ∨ k.image.present = false ∨ d.allHalted k.job = false ∨ d.remaps.any (fun r => r.core == c) then d
  else
    let p := d.physOf c
    match d.spareFor p.1 p.2 with
    | none => d.raise 0x0034 (k.errAt c 0)
    | some s =>
      let ms := d.movers c p.2 s
      if ms.all (fun x => (d.core x).image.present == false || (d.core x).job == k.job) && !(d.targeted ms) then
        { d with remaps := d.remaps ++ [⟨p.1, p.2, s, c⟩] }
      else d

def execRemap (c : CoreId) (s : State) : Host.Outcome State Fault Refusal := s.onCore c (fun d => d.remap c)

/-- One remap takes effect: the row map changes, the core is out of recovery, and the fault log records it. -/
def Dev.remapDone (d : Dev) (r : Remap) : Dev :=
  let h := d.get (MESH_ROWMAP_hidden r.row)
  let d1 := (d.put (MESH_ROWMAP_hidden r.row) (setBits (setBits h r.spare 1 0) r.bad 1 1)).put (MESH_ROWMAP_faulty r.row)
    (setBits (d.get (MESH_ROWMAP_faulty r.row)) r.bad 1 1)
  { d1.upd r.core (fun k => { k with meFaulty := false, recovery := false }) with faultLog := d.faultLog ++ [FaultEntry.core r.row r.bad] }

/-- REMAP_END: every row of the copy has arrived. -/
def execRemapEnd (row : BitVec 8) (s : State) : Host.Outcome State Fault Refusal :=
  s.onDev (fun d =>
    let d1 := (d.remaps.filter (fun r => r.row == row.toNat)).foldl Dev.remapDone d
    { d1 with remaps := d.remaps.filter (fun r => r.row != row.toNat) })

/-! Thermal trips and rail faults (R301, R463, R467 to R470). -/

/-- A shutdown begins, or a second cause joins it before the domains are OFF: the clocks stop and GOING_DOWN goes out. -/
def Dev.shutdown (d : Dev) (thermal : Bool) : Dev :=
  let down := fun (d : Dev) => (List.range 96).foldl (fun d p => d.sendGoingDown p (if thermal then 3 else 2)) d
  match d.trip with
  | none => { down d with trip := some ⟨thermal, !thermal, false⟩ }
  | some t =>
    if t.off then d
    else if thermal ∧ t.thermal = false then { down d with trip := some { t with thermal := true } }
    else { d with trip := some { t with rail := t.rail || !thermal } }

/-- RAIL_FAULT: a rail below its range; a fault of an always-on rail acts as RESET_N low. -/
def execRailFault (ao : Bool) (s : State) : Host.Outcome State Fault Refusal :=
  s.onAlways (fun d => if d.inReset then d else if ao then d.coldReset else d.shutdown false)

/-- A raw sample with the factory offset alone (R467). -/
def Dev.tripSample (d : Dev) (n : Nat) (raw : BitVec 16) : Int := raw.toInt + signed 16 (d.get (CAL_TSENS_offset n))

/-- THERMAL_TRIP: two consecutive samples of a sensor at 115.0 °C or more. -/
def execThermalTrip (n : BitVec 6) (a b : BitVec 16) (s : State) : Host.Outcome State Fault Refusal :=
  s.onLive (fun d => if 920 ≤ d.tripSample n.toNat a ∧ 920 ≤ d.tripSample n.toNat b then d.shutdown true else d)

/-- TRIP_DOMAINS_OFF: light stops, domains 0 to 99 and 101 go OFF, TRIP_N falls, ALERT[0] sets, and Naeno writes a summary to the fault log.
Replies that are pending are not written. -/
def Dev.tripOff (d : Dev) : Dev :=
  match d.trip with
  | none => d
  | some t =>
    if t.off then d
    else
      let d1 := { d with cmds := [], waiters := [], moves := [], tasks := [] }
      let d2 := (List.range 96).foldl (fun d p => d.portOff p) d1
      let d3 := ((List.range 100) ++ [101]).foldl (fun (d : Dev) n => ((d.domEffect n (d.dom n) 3).setDom n 3).put (PWR_DOM_busy n) 0) d2
      { d3.setAlert 1 with trip := some { t with off := true }, faultLog := d.faultLog ++ [FaultEntry.shutdown t.thermal t.rail], tasks := [] }

def execTripDomainsOff (s : State) : Host.Outcome State Fault Refusal := s.onLive Dev.tripOff

end Sys2Proof.Machine
end

