-- ==== Sys2Proof/Machine/Errand.lean ====
section
/-! DEFINITION. The packets that reach a core's network interface and the port relays there (R133, R134, R137, R139, R147, R168, R170,
R218, R259 to R261, R381). -/

namespace Sys2Proof.Machine

/-- Whether a packet is for a core's network interface that the device has. -/
def Dev.toCore (d : Dev) (p : Packet) : Bool := p.dstUnit == 0 && d.logical (packetCore p)

/-- The ingress flows of the relays at a router, as (port, flow): flow number modulo 32 is `n` (R259). -/
def Dev.flowsAt (d : Dev) (r : CoreId) (n : Nat) : List (Nat × Nat) :=
  ([d.ownLane r, d.joinedLane r].filterMap id).filterMap (fun q =>
    let f := q.2 * 32 + n
    if d.get (LINK_FLOW_valid q.1 (64 + f)) = 1 then some (q.1, f) else none)

/-- Whether a packet may concern a flow: its generation, and the job of the flow's target core. -/
def Dev.flowTakes (d : Dev) (p : Packet) (q : Nat × Nat) : Bool :=
  let n := 64 + q.2
  d.get (LINK_FLOW_gen q.1 n) == bits p.inl.toNat 8 8 &&
    (d.core ⟨BitVec.ofNat 8 (d.get (LINK_FLOW_ax q.1 n)), BitVec.ofNat 8 (d.get (LINK_FLOW_ay q.1 n))⟩).ofJob p

/-- The flows of a router's relays that a CREDIT or RECEIPT is for: the flow it names, where that is no valid endpoint of the core, or the
flows whose target is the tally queue that sent it (R259, R260). -/
def Dev.relayTargets (d : Dev) (p : Packet) (tq : Bool) : List (Nat × Nat) :=
  let r := packetCore p
  let n := bits p.inl.toNat 0 5
  let all := if tq then (List.range 32).flatMap (d.flowsAt r) else
    if (d.core r).get (CORE_EP_valid n) = 1 then [] else d.flowsAt r n
  all.filter (fun q =>
    let m := 64 + q.2
    d.flowTakes p q && d.get (LINK_FLOW_pass q.1 m) == 0 && (d.get (LINK_FLOW_tally q.1 m) == 1) == tq &&
      (!tq || (d.get (LINK_FLOW_ax q.1 m) == p.srcX.toNat && d.get (LINK_FLOW_ay q.1 m) == p.srcY.toNat
        && d.get (LINK_FLOW_aep q.1 m) == n)))

/-- CREDIT: to the relays it is for, and to the send endpoints it matches (R133, R134, R147, R260). -/
def Dev.creditArrives (d : Dev) (p : Packet) : Dev :=
  let d1 := d.eject p
  let tq := bit p.inl.toNat 16
  if !(d.toCore p) then d1.absorbPacket
  else
    let qs := d.relayTargets p tq
    let d2 := qs.foldl (fun d q => d.flowReturn q.1 q.2) d1
    if qs.isEmpty || (tq && !((d.core (packetCore p)).matching tq (bits p.inl.toNat 0 5) (bits p.inl.toNat 8 8)).isEmpty) then
      d2.channelPacket p 16 (fun tq rx k n => k.takeCredit tq rx n)
    else d2

def execCreditArrival (p : Packet) (s : State) : Host.Outcome State Fault Refusal :=
  s.onDev (fun d => if p.type = 1 then d.creditArrives p else d)

/-- A RECEIPT at an ingress relay: reason 4 closes the flow until the next step start, any other makes the peer's flow gone (R261). -/
def Dev.relayReceipt (d : Dev) (reason : Nat) (q : Nat × Nat) : Dev :=
  if reason = 4 then
    let r := d.relay q.1
    d.setRelay q.1 { r with closed := Tab.set (fun _ => false) r.closed q.2 true }
  else d.peerGone q.1 q.2

/-- RECEIPT: to the relays it is for, and to the send endpoints it matches (R139, R261). -/
def Dev.receiptArrives (d : Dev) (p : Packet) : Dev :=
  let d1 := d.eject p
  let tq := bit p.inl.toNat 20
  if !(d.toCore p) then d1.absorbPacket
  else
    let qs := d.relayTargets p tq
    let d2 := qs.foldl (Dev.relayReceipt · (bits p.inl.toNat 16 4)) d1
    if qs.isEmpty || (tq && !((d.core (packetCore p)).matching tq (bits p.inl.toNat 0 5) (bits p.inl.toNat 8 8)).isEmpty) then
      d2.channelPacket p 20 (fun _ rx k n => k.takeReceipt rx n)
    else d2

def execReceiptArrival (p : Packet) (s : State) : Host.Outcome State Fault Refusal :=
  s.onDev (fun d => if p.type = 2 then d.receiptArrives p else d)

/-- ERRINC at a core: the counter gains the increment (R168). -/
def Dev.errincArrives (d : Dev) (p : Packet) : Dev :=
  let d1 := d.eject p
  if !(d.toCore p) then d1.absorbPacket
  else d1.atCore p false (fun k =>
    d1.setCore (packetCore p) (k.advance (bits p.inl.toNat 0 6) (bits p.inl.toNat 6 15) .other))

def execErrincArrival (p : Packet) (s : State) : Host.Outcome State Fault Refusal :=
  s.onDev (fun d => if p.type = 3 then d.errincArrives p else d)

/-- DONE reaches its requester: it is taken off the network; a core in RESET or of another job drops it (R170, R218, R381). -/
def Dev.doneArrives (d : Dev) (p : Packet) : Dev :=
  let d1 := d.eject p
  if p.dstUnit = 0 then (if d.logical (packetCore p) then d1.atCore p false (fun _ => d1) else d1.absorbPacket)
  else d1

def execDoneArrival (p : Packet) (s : State) : Host.Outcome State Fault Refusal :=
  s.onDev (fun d => if p.type = 0x0A then d.doneArrives p else d)

end Sys2Proof.Machine
end

