-- ==== Sys2Proof/Machine/Ethernet.lean ====
section
/-! DEFINITION. The Ethernet ports: frames, checksums, receive-side scaling, rings and pause frames (R315 to R318, R452). -/

namespace Sys2Proof.Machine

/-! Frames (R315, R316). -/

/-- `n` bytes of a frame from offset `i`, in network order. -/
def beAt (bs : List Byte) (i n : Nat) : Nat := ofBytesBE ((bs.drop i).take n)

/-- The sum of 16-bit words in network order with its carries folded in, an odd byte padded with zero. -/
def onesSum : List Byte → Nat → Nat
  | a :: b :: bs, s => let t := s + a.toNat * 256 + b.toNat; onesSum bs (if 65535 < t then t - 65535 else t)
  | [a], s => let t := s + a.toNat * 256; if 65535 < t then t - 65535 else t
  | [], s => s

/-- The TCP or UDP segment of a frame: where it starts, its length, its protocol, the addresses, and whether it is carried by IPv4. -/
structure Segment where
  start : Nat
  length : Nat
  proto : Nat
  addrs : List Byte
  four : Bool
deriving DecidableEq, Repr

/-- The 802.1Q tag of a frame, and the frame without it. -/
def stripTag (bs : List Byte) : Option Nat × List Byte :=
  if beAt bs 12 2 = 0x8100 ∧ 16 ≤ bs.length then (some (beAt bs 14 2), bs.take 12 ++ bs.drop 16) else (none, bs)

/-- The bytes of a frame's IPv4 header, when it has a whole one. -/
def ipv4Header (bs : List Byte) : Option (List Byte) :=
  let n := beAt bs 14 1 % 16 * 4
  if beAt bs 12 2 = 0x0800 ∧ 34 ≤ bs.length ∧ beAt bs 14 1 / 16 = 4 ∧ 20 ≤ n ∧ 14 + n ≤ bs.length then some ((bs.drop 14).take n) else none

/-- A segment that is whole: a UDP segment has the length that its header gives. -/
def segmentOf (bs : List Byte) (start room proto : Nat) (addrs : List Byte) (four : Bool) : Option Segment :=
  let n := if proto = 17 then beAt bs (start + 4) 2 else room
  if bs.length < start + room then none
  else if proto = 6 ∧ 20 ≤ room then some ⟨start, n, proto, addrs, four⟩
  else if proto = 17 ∧ 8 ≤ room ∧ 8 ≤ n ∧ n ≤ room then some ⟨start, n, proto, addrs, four⟩
  else none

/-- The TCP or UDP segment over IPv4, not a fragment, or over IPv6 without extension headers. -/
def parseSegment (bs : List Byte) : Option Segment :=
  match ipv4Header bs with
  | some h =>
    let total := beAt h 2 2
    if total < h.length ∨ beAt h 6 2 % 2 ^ 14 ≠ 0 then none
    else segmentOf bs (14 + h.length) (total - h.length) (beAt h 9 1) ((h.drop 12).take 8) true
  | none =>
    if beAt bs 12 2 = 0x86DD ∧ 54 ≤ bs.length ∧ beAt bs 14 1 / 16 = 6 then
      segmentOf bs 54 (beAt bs 18 2) (beAt bs 20 1) ((bs.drop 22).take 32) false
    else none

/-- The sum over the pseudo header and the segment. -/
def Segment.sum (g : Segment) (bs : List Byte) : Nat :=
  onesSum (g.addrs ++ toBytesBE 4 g.length ++ toBytesBE 4 g.proto ++ (bs.drop g.start).take g.length) 0

/-- Where the checksum of a segment stands in the frame. -/
def Segment.field (g : Segment) : Nat := g.start + (if g.proto = 6 then 16 else 6)

/-- Whether the checksum of a segment is checked: a UDP datagram over IPv4 may carry none. -/
def Segment.checked (g : Segment) (bs : List Byte) : Bool := !(g.four && g.proto == 17 && beAt bs g.field 2 == 0)

/-- Writes a checksum of two bytes into a frame. -/
def putSum (bs : List Byte) (i v : Nat) : List Byte := bs.take i ++ toBytesBE 2 v ++ bs.drop (i + 2)

/-- Inserts the IPv4 header checksum. -/
def insertIpv4 (bs : List Byte) : List Byte :=
  match ipv4Header bs with
  | none => bs
  | some h => putSum bs 24 (65535 - onesSum (putSum h 10 0) 0)

/-- Inserts the TCP or UDP checksum; a UDP checksum of zero is sent as ones. -/
def insertL4 (bs : List Byte) : List Byte :=
  match parseSegment bs with
  | none => bs
  | some g =>
    let v := 65535 - g.sum (putSum bs g.field 0)
    putSum bs g.field (if g.proto = 17 ∧ v = 0 then 65535 else v)

/-- Whether the MAC accepts a frame of `n` bytes without its FCS. -/
def frameFits (n : Nat) : Bool := decide (64 ≤ n + 4) && decide (n + 4 ≤ 9216)

/-! Receive-side scaling (R317). -/

/-- The Toeplitz hash of bits, most significant first, under a key of 320 bits: the xor of the 32-bit windows of the key at the set bits. -/
def toeplitz (key : Nat) (bs : List Byte) : Nat :=
  let n := bs.length * 8
  let v := ofBytesBE bs
  (List.range n).foldl (fun h i => if bit v (n - 1 - i) then h ^^^ bits key (288 - i) 32 else h) 0

/-- ETH_RSS_KEY of a port, byte 0 first. -/
def Dev.rssKey (d : Dev) (p : Nat) : Nat :=
  ofBytesBE ((List.range 10).flatMap (fun n => toBytes 4 (d.get (ETH_RSS_KEY_key p n))))

/-- The hash over the addresses and ports of a segment: source before destination (log 27). -/
def Dev.rssHash (d : Dev) (p : Nat) (bs : List Byte) (g : Segment) : Nat := toeplitz (d.rssKey p) (g.addrs ++ (bs.drop g.start).take 4)

/-- The ring that a hash names. -/
def Dev.rssRing (d : Dev) (p h : Nat) : Nat := bits (d.get (ETH_RSS_TBL_ring p (h % 128 / 8))) (h % 8 * 4) 4

/-! Rings (R317, R318, R452). -/

/-- Whether a port moves frames: it is enabled, its link is up and its domain ON. -/
def Dev.ethRuns (d : Dev) (p : Nat) : Bool := d.get (ETH_CFG_en p) == 1 && d.get (ETH_STAT_link p) == 1 && d.dom 101 == 0

/-- Whether a span of HBM lies in usable pages of a stack that is ON. -/
def Dev.ethReaches (d : Dev) (pa n : Nat) : Bool :=
  d.usable pa && d.usable (pa + (n - 1)) && stackOf pa == stackOf (pa + (n - 1)) && d.dom (80 + stackOf pa) == 0

/-- The port sends a pause of the frame's priority if a ring is short and none is in effect (R318). -/
def Dev.pfcStart (d : Dev) (p prio : Nat) : Dev :=
  if d.pfcWants p prio ∧ Tab.get (fun _ => false) d.paused (p * 8 + prio) = false then
    ({ d with paused := Tab.set (fun _ => false) d.paused (p * 8 + prio) true }).emit (.pfc p prio true)
  else d

/-- What a received frame asks of the port: its ring, the write-back without the length and the truncation, the priority and the bytes to
deliver. -/
structure Received where
  ring : Nat
  hash : Nat
  tag : Nat
  flags : Nat
  prio : Nat
  bytes : List Byte
deriving DecidableEq, Repr

/-- Parses a frame.  `v` is a free value for what a frame without a hash or without a tag writes back (log 1). -/
def Dev.parseFrame (d : Dev) (p : Nat) (frame : List Byte) (v : Nat) : Received :=
  let (tag, bs) := stripTag frame
  let seg := parseSegment bs
  let h := (seg.map (d.rssHash p bs)).getD (v % 2 ^ 32)
  let ip := (ipv4Header bs).any (fun h => onesSum h 0 == 65535)
  let checked := seg.any (fun g => g.checked bs)
  let good := checked && seg.any (fun g => g.sum bs == 65535)
  ⟨if seg.isSome then d.rssRing p h else 0, h, tag.getD (v / 2 ^ 32 % 2 ^ 16),
    1 + ip.toNat * 2 + checked.toNat * 4 + good.toNat * 8 + tag.isSome.toNat * 16, (tag.getD 0) / 2 ^ 13, bs⟩

/-- Delivers a received frame into its buffer at `buf` and writes its descriptor at `desc` back (R317, R318). -/
def Dev.deliver (d : Dev) (p : Nat) (r : Received) (desc buf room v : Nat) : Dev :=
  let cut := r.bytes.take room
  let flags := r.flags + (if room < r.bytes.length then 32 else 0)
  let back := toBytes 6 buf ++ toBytes 2 cut.length ++ toBytes 4 r.hash ++ toBytes 2 r.tag ++ [BitVec.ofNat 8 flags, BitVec.ofNat 8 (v / 2 ^ 48)]
  let next := (d.get (ETH_RXR_head p r.ring) + 1) % 2 ^ d.get (ETH_RXR_log2n p r.ring)
  ((d.writeHbmBytes buf cut).writeHbmBytes desc back).put (ETH_RXR_head p r.ring) next

/-- Whether the memory that a received frame needs exists: its descriptor and its buffer. -/
def Dev.receiveAddr (d : Dev) (p ring : Nat) : Nat × Nat × Nat :=
  let desc := d.get (ETH_RXR_base p ring) + 16 * d.get (ETH_RXR_head p ring)
  let w := Memory.readN d.hbm desc 8
  (desc, bits w 0 48, bits w 48 16)

/-- A good frame that the MAC accepts. -/
def Dev.receive (d : Dev) (p : Nat) (frame : List Byte) : Fault ⊕ Dev :=
  let (v, d1) := d.free
  let r := d1.parseFrame p frame v
  if d1.ethPosted p r.ring = 0 then .inr ((d1.pfcStart p r.prio).bump (ETH_STAT_rx_drop p) 1)
  else
    let (desc, buf, room) := d1.receiveAddr p r.ring
    if d1.ethReaches desc 16 = false then .inl (.noMemory desc)
    else if d1.ethReaches buf (min room r.bytes.length) = false then .inl (.noMemory buf)
    else .inr ((d1.deliver p r desc buf room v).pfcStart p r.prio)

/-- ETH_FRAME_RECEIVE: a frame of a port without its FCS, and whether the FCS is good. -/
def execEthFrameReceive (p : BitVec 1) (frame : List Byte) (good : Bool) (s : State) : Host.Outcome State Fault Refusal :=
  let d := s.dev
  if d.dead ∨ d.ethRuns p.toNat = false ∨ frameFits frame.length = false then .next s
  else if good = false then s.onDev (fun d => d.bump (ETH_STAT_rx_fcs p.toNat) 1)
  else match d.receive p.toNat frame with
    | .inl e => .fault e
    | .inr e => s.onDev (fun _ => e)

/-- The frame that a transmit descriptor asks for: checksums are inserted before the tag. -/
def transmitFrame (bs : List Byte) (flags tag : Nat) : List Byte :=
  let b1 := if bit flags 1 then insertIpv4 bs else bs
  let b2 := if bit flags 2 then insertL4 b1 else b1
  if bit flags 3 then b2.take 12 ++ [0x81, 0x00] ++ toBytesBE 2 tag ++ b2.drop 12 else b2

/-- The port sends the frame at `buf` if the MAC accepts its length, sets done and advances head. -/
def Dev.transmit (d : Dev) (p q desc w : Nat) : Dev :=
  let frame := transmitFrame (Memory.bytes d.hbm (bits w 0 48) (bits w 48 16)) (bits w 112 8) (bits w 96 16)
  let d1 := if frameFits frame.length then d.emit (.frame p frame) else d
  (d1.writeHbmBytes (desc + 14) [BitVec.ofNat 8 (setBits (bits w 112 8) 0 1 1)]).put (ETH_TXR_head p q)
    ((d.get (ETH_TXR_head p q) + 1) % 2 ^ d.get (ETH_TXR_log2n p q))

/-- ETH_FRAME_TRANSMIT: the frame of the next posted descriptor of a transmit ring. -/
def execEthFrameTransmit (p : BitVec 1) (q : BitVec 4) (s : State) : Host.Outcome State Fault Refusal :=
  let d := s.dev
  let n := p.toNat
  let m := q.toNat
  if d.dead ∨ d.ethRuns n = false ∨ d.get (ETH_TXR_en n m) = 0 ∨ d.get (ETH_TXR_head n m) = d.get (ETH_TXR_tail n m) then .next s
  else
    let desc := d.get (ETH_TXR_base n m) + 16 * d.get (ETH_TXR_head n m)
    let w := Memory.readN d.hbm desc 16
    if d.ethReaches desc 16 = false then .fault (.noMemory desc)
    else if d.ethReaches (bits w 0 48) (bits w 48 16) = false then .fault (.noMemory (bits w 0 48))
    else s.onDev (fun d => d.transmit n m desc w)

/-- ETH_RING_WRITE: a write of the first or, if `upper`, the second 8 bytes of a ring register; `tx` names a transmit ring. -/
def execEthRingWrite (who : Requester) (p : BitVec 1) (tx : Bool) (q : BitVec 4) (upper : Bool) (v : BitVec 64) (s : State) :
    Host.Outcome State Fault Refusal :=
  let key := if tx then (ETH_TXR_base p.toNat q.toNat).key else (ETH_RXR_base p.toNat q.toNat).key
  s.onLive (fun d => d.access who (key + (if upper then 8 else 0)) 8 (some v.toNat))

/-- ETH_LINK: the PCS of a port aligns or loses alignment. -/
def execEthLink (p : BitVec 1) (up : Bool) (s : State) : Host.Outcome State Fault Refusal :=
  s.onDev (fun d => if d.dom 101 = 0 then d.put (ETH_STAT_link p.toNat) up.toNat else d)

end Sys2Proof.Machine
end

