-- ==== Sys2Proof/Machine/Pcie.lean ====
section
/-! DEFINITION. The PCIe endpoint: configuration requests, the HBM window, doorbells, function-level and hot resets, PERST_N and the link
(R307, R310 to R314, R410, R462). -/

namespace Sys2Proof.Machine

/-! Configuration requests (R307, R313). -/

/-- MSI-X vectors of a function. -/
def vectorsOf (f : Nat) : Nat := if f = 0 then 64 else 8

/-- A write of a vector's mask bit: unmasking sends a vector that is pending (R313). -/
def Dev.maskVector (d : Dev) (f v : Nat) (masked : Bool) : Dev :=
  let i := f * 64 + v
  if vectorsOf f ≤ v then d
  else
    let d1 := { d with msixMask := Tab.set (fun _ => false) d.msixMask i masked }
    if masked = false ∧ Tab.get (fun _ => false) d.msixPba i = true then
      ({ d1 with msixPba := Tab.set (fun _ => false) d1.msixPba i false }).emit (.msix f v)
    else d1

/-- The endpoint answers a configuration request under hardware control alone.  The spec lists no configuration register, so that what an
access returns is a free value (log 1). -/
def Dev.configRequest (d : Dev) (f : Nat) (r : ConfigReq) : Dev :=
  if d.pcie.up = false then d
  else match r with
    | .access => let (v, d1) := d.free; d1.emit (.completion (some (v % 2 ^ 32)) false)
    | .msixMask vec masked => d.maskVector f vec.toNat masked

/-- PCIE_CONFIG_REQUEST. -/
def execPcieConfigRequest (f : BitVec 4) (r : ConfigReq) (s : State) : Host.Outcome State Fault Refusal :=
  s.onLive (fun d => d.configRequest f.toNat r)

/-! The HBM window (R307, R310, R311). -/

/-- The physical address of BAR2 offset `o` of a function; none outside the window and past the last device page. -/
def Dev.windowAddr (d : Dev) (f o : Nat) : Option Nat :=
  let page := d.get (PCIE_WIN_start f) + o / 2 ^ 21
  if d.get (PCIE_WIN_pages f) ≤ o / 2 ^ 21 ∨ 8 * d.usablePages ≤ page then none else some (d.pageAddr page + o % 2 ^ 21)

/-- The endpoint rejects an access; a write has no completion. -/
def Dev.unsupported (d : Dev) (read : Bool) : Dev := if read then d.emit (.completion none false) else d

/-- A BAR2 access: before READY and on a stack that is not ON it is an Unsupported Request, and so is one that leaves the window. -/
def Dev.bar2 (d : Dev) (f : BitVec 4) (o n : Nat) (w : Option (List Byte × Bool)) : Dev :=
  if d.pcie.up = false then d
  else if d.get PCIE_STAT_ready = 0 then d.unsupported w.isNone
  else match d.windowAddr f.toNat o with
    | none => (d.bump PCIE_ERR_win_miss 1).unsupported w.isNone
    | some pa =>
      if d.dom (80 + stackOf pa) ≠ 0 ∨ 2 ^ 12 < o % 2 ^ 12 + n then d.unsupported w.isNone
      else d.serveWindow (d.windowed ++ [⟨f, pa, n, w⟩])

/-- BAR2_ACCESS: a read of `n` bytes. or a write of bytes with the EP bit. -/
def execBar2Access (f : BitVec 4) (o : BitVec 36) (n : BitVec 13) (w : Option (List Byte × Bool)) (s : State) :
    Host.Outcome State Fault Refusal :=
  s.onLive (fun d => d.bar2 f o.toNat ((w.map (fun x => x.1.length)).getD n.toNat) w)

/-! Doorbells (R312). -/

/-- A 4-byte write into the doorbells of a function: page `q`, offset `o` in the page. -/
def Dev.ring (d : Dev) (f q o v : Nat) : Dev :=
  if d.pcie.up = false ∨ d.get PCIE_STAT_ready = 0 ∨ o ≠ 0 then d
  else if d.get (PCIE_QMAP_valid q) = 0 ∨ d.get (PCIE_QMAP_func q) ≠ f then d.bump PCIE_ERR_db_foreign 1
  else if 2 ^ d.get (WARD_Q_log2n q) ≤ v then d.bump PCIE_ERR_db_bad 1
  else d.put (WARD_Q_tail q) v

/-- DOORBELL. -/
def execDoorbell (f : BitVec 4) (q : BitVec 6) (o : BitVec 12) (v : BitVec 32) (s : State) : Host.Outcome State Fault Refusal :=
  s.onLive (fun d => d.ring f.toNat q.toNat o.toNat v.toNat)

/-! Resets (R314, R462). -/

/-- The host queues of a function. -/
def Dev.queuesOf (d : Dev) (f : Nat) : List Nat :=
  (List.range 48).filter (fun q => d.get (WARD_Q_loc q) == 0 && d.get (WARD_Q_func q) == f)

/-- The effects of a reset of one function: its outstanding accesses end as Unsupported Requests, its window closes, its queues are
fetched no more with what is in them discarded, and its jobs are killed. -/
def Dev.resetFunction (d : Dev) (f : Nat) : Dev :=
  let mine := d.windowed.filter (fun a => a.func.toNat == f && a.write.isNone)
  let d1 := mine.foldl (fun d _ => d.unsupported true) { d with windowed := d.windowed.filter (fun a => a.func.toNat != f) }
  let qs := d1.queuesOf f
  let d2 := qs.foldl (fun d q => (d.put (WARD_Q_tail q) (d.get (WARD_Q_head q))).put (WARD_Q_en q) 0) (d1.put (PCIE_WIN_pages f) 0)
  if d2.dead then d2
  else d2.jobIds.foldl (fun d i => if (d.job i).any (fun j => qs.contains j.owner.toNat) then d.killJob i false none else d) d2

/-- An FLR of PF0, a hot reset and a link-down: every function is reset and PCIE_QMAP is clear. -/
def Dev.resetFunctions (d : Dev) : Dev :=
  (List.range 64).foldl (fun d q => ((d.put (PCIE_QMAP_valid q) 0).put (PCIE_QMAP_func q) 0).put (PCIE_QMAP_vector q) 0)
    ((List.range 16).foldl Dev.resetFunction d)

/-- FLR. -/
def execFlr (f : BitVec 4) (s : State) : Host.Outcome State Fault Refusal :=
  s.onLive (fun d => if d.pcie.up = false then d else if f = 0 then d.resetFunctions else d.resetFunction f.toNat)

/-- The link goes down. -/
def Dev.pcieDown (d : Dev) : Dev := if d.pcie.up then { d.resetFunctions with pcie := { d.pcie with up := false } } else d

/-- HOT_RESET: a hot reset, or a link-down if `down`. -/
def execHotReset (down : Bool) (s : State) : Host.Outcome State Fault Refusal :=
  s.onLive (fun d => if down then d.pcieDown else if d.pcie.up then d.resetFunctions else d)

/-- PERST_N takes a level: low acts as a link-down. -/
def execPerstN (high : Bool) (s : State) : Host.Outcome State Fault Refusal :=
  s.onAlways (fun d =>
    let d1 := if high ∨ d.inReset then d else d.pcieDown
    { d1 with pcie := ⟨high, d1.pcie.up && high⟩ })

/-- PCIE_LINK_UP: the link has trained at a rate, a width and a mode. -/
def execPcieLinkUp (rate : BitVec 3) (width : BitVec 5) (flit : Bool) (s : State) : Host.Outcome State Fault Refusal :=
  s.onLive (fun d =>
    if d.pcie.perst then
      ((({ d with pcie := { d.pcie with up := true } }).put PCIE_STAT_rate rate.toNat).put PCIE_STAT_width width.toNat).put PCIE_STAT_flit
        flit.toNat
    else d)

end Sys2Proof.Machine
end

