-- ==== Sys2Proof/Machine/Dispatch.lean ====
section
/-! DEFINITION. One meaning for each command: the dispatch. -/

namespace Sys2Proof.Machine

def exec (i : Instr) (s : State) : Host.Outcome State Fault Refusal :=
  match i with
  | .alu c f => Sys2Proof.Machine.execAlu c f s
  | .addi c f => Sys2Proof.Machine.execAddi c f s
  | .andi c f => Sys2Proof.Machine.execAndi c f s
  | .ori c f => Sys2Proof.Machine.execOri c f s
  | .xori c f => Sys2Proof.Machine.execXori c f s
  | .shi c f => Sys2Proof.Machine.execShi c f s
  | .lui c f => Sys2Proof.Machine.execLui c f s
  | .slti c f => Sys2Proof.Machine.execSlti c f s
  | .beq c f => Sys2Proof.Machine.execBeq c f s
  | .bne c f => Sys2Proof.Machine.execBne c f s
  | .blt c f => Sys2Proof.Machine.execBlt c f s
  | .bge c f => Sys2Proof.Machine.execBge c f s
  | .bltu c f => Sys2Proof.Machine.execBltu c f s
  | .bgeu c f => Sys2Proof.Machine.execBgeu c f s
  | .jal c f => Sys2Proof.Machine.execJal c f s
  | .jalr c f => Sys2Proof.Machine.execJalr c f s
  | .lb c f w => Sys2Proof.Machine.execLb c f w s
  | .lbu c f w => Sys2Proof.Machine.execLbu c f w s
  | .lh c f w => Sys2Proof.Machine.execLh c f w s
  | .lhu c f w => Sys2Proof.Machine.execLhu c f w s
  | .lw c f w => Sys2Proof.Machine.execLw c f w s
  | .lwu c f w => Sys2Proof.Machine.execLwu c f w s
  | .ld c f w => Sys2Proof.Machine.execLd c f w s
  | .sb c f w => Sys2Proof.Machine.execSb c f w s
  | .sh c f w => Sys2Proof.Machine.execSh c f w s
  | .sw c f w => Sys2Proof.Machine.execSw c f w s
  | .sd c f w => Sys2Proof.Machine.execSd c f w s
  | .storeRetire c => Sys2Proof.Machine.execStoreRetire c s
  | .dld c f w => Sys2Proof.Machine.execDld c f w s
  | .dst c f w => Sys2Proof.Machine.execDst c f w s
  | .dset c f => Sys2Proof.Machine.execDset c f s
  | .vop c f w => Sys2Proof.Machine.execVop c f w s
  | .tmm c f w => Sys2Proof.Machine.execTmm c f w s
  | .tmmComplete c => Sys2Proof.Machine.execTmmComplete c s
  | .tcvt c f w => Sys2Proof.Machine.execTcvt c f w s
  | .tcvtComplete c => Sys2Proof.Machine.execTcvtComplete c s
  | .tscat c f w => Sys2Proof.Machine.execTscat c f w s
  | .scatterRowAdd c portFree => Sys2Proof.Machine.execScatterRowAdd c portFree s
  | .tscatComplete c => Sys2Proof.Machine.execTscatComplete c s
  | .send c f w => Sys2Proof.Machine.execSend c f w s
  | .recv c f w => Sys2Proof.Machine.execRecv c f w s
  | .rrel c f w => Sys2Proof.Machine.execRrel c f w s
  | .poll c f => Sys2Proof.Machine.execPoll c f s
  | .waitc c f => Sys2Proof.Machine.execWaitc c f s
  | .waitcr c f => Sys2Proof.Machine.execWaitcr c f s
  | .counterWaitRetire c w => Sys2Proof.Machine.execCounterWaitRetire c w s
  | .csetc c f => Sys2Proof.Machine.execCsetc c f s
  | .crd c f => Sys2Proof.Machine.execCrd c f s
  | .preq c f w => Sys2Proof.Machine.execPreq c f w s
  | .fence c f w => Sys2Proof.Machine.execFence c f w s
  | .rankup c f => Sys2Proof.Machine.execRankup c f s
  | .slotnext c f => Sys2Proof.Machine.execSlotnext c f s
  | .csrr c f => Sys2Proof.Machine.execCsrr c f s
  | .csrw c f => Sys2Proof.Machine.execCsrw c f s
  | .errinc c f w => Sys2Proof.Machine.execErrinc c f w s
  | .halt c f w => Sys2Proof.Machine.execHalt c f w s
  | .rowArrival c r portFree => Sys2Proof.Machine.execRowArrival c r portFree s
  | .remoteQueueRetire c m => Sys2Proof.Machine.execRemoteQueueRetire c m s
  | .tallyHeaderClassify c q t => Sys2Proof.Machine.execTallyHeaderClassify c q t s
  | .tallyRowAdd c => Sys2Proof.Machine.execTallyRowAdd c s
  | .tallyDeadline c q t => Sys2Proof.Machine.execTallyDeadline c q t s
  | .tallyRelease c q => Sys2Proof.Machine.execTallyRelease c q s
  | .tallyReleaseEnd c q => Sys2Proof.Machine.execTallyReleaseEnd c q s
  | .creditArrival p => Sys2Proof.Machine.execCreditArrival p s
  | .receiptArrival p => Sys2Proof.Machine.execReceiptArrival p s
  | .errincArrival p => Sys2Proof.Machine.execErrincArrival p s
  | .doneArrival p => Sys2Proof.Machine.execDoneArrival p s
  | .routerSlot r ck e => Sys2Proof.Machine.execRouterSlot r ck e s
  | .scheduleFill c r => Sys2Proof.Machine.execScheduleFill c r s
  | .epochVote p ck => Sys2Proof.Machine.execEpochVote p ck s
  | .turn c ck => Sys2Proof.Machine.execTurn c ck s
  | .turnDrainStart => Sys2Proof.Machine.execTurnDrainStart s
  | .bankTurn => Sys2Proof.Machine.execBankTurn s
  | .spotCheckSelect c => Sys2Proof.Machine.execSpotCheckSelect c s
  | .checkEngineRequest arcade => Sys2Proof.Machine.execCheckEngineRequest arcade s
  | .spotCheckCompare c ok => Sys2Proof.Machine.execSpotCheckCompare c ok s
  | .patrolRead c row e => Sys2Proof.Machine.execPatrolRead c row e s
  | .hbmPatrol k line e => Sys2Proof.Machine.execHbmPatrol k line e s
  | .descriptorAccept p => Sys2Proof.Machine.execDescriptorAccept p s
  | .porterCredit p => Sys2Proof.Machine.execPorterCredit p s
  | .transferStart p st => Sys2Proof.Machine.execTransferStart p st s
  | .tagGrant p => Sys2Proof.Machine.execTagGrant p s
  | .pieceReturn p t n e => Sys2Proof.Machine.execPieceReturn p t n e s
  | .pieceTimeout p t n => Sys2Proof.Machine.execPieceTimeout p t n s
  | .gatedCreditTake p st => Sys2Proof.Machine.execGatedCreditTake p st s
  | .storeCmd p portFree => Sys2Proof.Machine.execStoreCmd p portFree s
  | .storeRowArrival k r => Sys2Proof.Machine.execStoreRowArrival k r s
  | .pieceWriteAck p t n => Sys2Proof.Machine.execPieceWriteAck p t n s
  | .fencePostArrival k => Sys2Proof.Machine.execFencePostArrival k s
  | .stackFail k => Sys2Proof.Machine.execStackFail k s
  | .clerkRequest p => Sys2Proof.Machine.execClerkRequest p s
  | .update k => Sys2Proof.Machine.execUpdate k s
  | .scan k => Sys2Proof.Machine.execScan k s
  | .norm k => Sys2Proof.Machine.execNorm k s
  | .exportRecord k => Sys2Proof.Machine.execExportRecord k s
  | .clerkRowCommit k => Sys2Proof.Machine.execClerkRowCommit k s
  | .clerkWatchdog k => Sys2Proof.Machine.execClerkWatchdog k s
  | .clerkFail k => Sys2Proof.Machine.execClerkFail k s
  | .clerkTakeback k => Sys2Proof.Machine.execClerkTakeback k s
  | .egressTransmit p f => Sys2Proof.Machine.execEgressTransmit p f s
  | .egressMessageSent p f => Sys2Proof.Machine.execEgressMessageSent p f s
  | .ingressMessage p f => Sys2Proof.Machine.execIngressMessage p f s
  | .nullMessage p f => Sys2Proof.Machine.execNullMessage p f s
  | .flitReceive p x e => Sys2Proof.Machine.execFlitReceive p x e s
  | .linkMessage p vl => Sys2Proof.Machine.execLinkMessage p vl s
  | .nopSymbol p y chk => Sys2Proof.Machine.execNopSymbol p y chk s
  | .ack p y chk => Sys2Proof.Machine.execAck p y chk s
  | .nak p y chk => Sys2Proof.Machine.execNak p y chk s
  | .laneCredit p y chk => Sys2Proof.Machine.execLaneCredit p y chk s
  | .flowCredit p y chk => Sys2Proof.Machine.execFlowCredit p y chk s
  | .epochTurn p y chk => Sys2Proof.Machine.execEpochTurn p y chk s
  | .assay p y chk => Sys2Proof.Machine.execAssay p y chk s
  | .goingDown p y chk => Sys2Proof.Machine.execGoingDown p y chk s
  | .discover p y chk => Sys2Proof.Machine.execDiscover p y chk s
  | .spareReq p y chk cw => Sys2Proof.Machine.execSpareReq p y chk cw s
  | .swap p y chk cw => Sys2Proof.Machine.execSwap p y chk cw s
  | .align p y chk => Sys2Proof.Machine.execAlign p y chk s
  | .train p y chk => Sys2Proof.Machine.execTrain p y chk s
  | .ackTimer p => Sys2Proof.Machine.execAckTimer p s
  | .nakRepeat p => Sys2Proof.Machine.execNakRepeat p s
  | .creditRefresh p => Sys2Proof.Machine.execCreditRefresh p s
  | .assayRepeat p => Sys2Proof.Machine.execAssayRepeat p s
  | .discoverRepeat p => Sys2Proof.Machine.execDiscoverRepeat p s
  | .laneSpareTrigger p lane tx cw => Sys2Proof.Machine.execLaneSpareTrigger p lane tx cw s
  | .swapAtK p lane => Sys2Proof.Machine.execSwapAtK p lane s
  | .spareOldStop p lane => Sys2Proof.Machine.execSpareOldStop p lane s
  | .ringLockLoss p tx wl cw => Sys2Proof.Machine.execRingLockLoss p tx wl cw s
  | .linkStateDone p rings => Sys2Proof.Machine.execLinkStateDone p rings s
  | .linkStateTimeout p => Sys2Proof.Machine.execLinkStateTimeout p s
  | .lostRetry p => Sys2Proof.Machine.execLostRetry p s
  | .pcieConfigRequest f r => Sys2Proof.Machine.execPcieConfigRequest f r s
  | .bar0Access a n w => Sys2Proof.Machine.execBar0Access a n w s
  | .bar2Access f o n w => Sys2Proof.Machine.execBar2Access f o n w s
  | .doorbell f q o v => Sys2Proof.Machine.execDoorbell f q o v s
  | .flr f => Sys2Proof.Machine.execFlr f s
  | .hotReset down => Sys2Proof.Machine.execHotReset down s
  | .perstN high => Sys2Proof.Machine.execPerstN high s
  | .ethFrameReceive p frame good => Sys2Proof.Machine.execEthFrameReceive p frame good s
  | .ethFrameTransmit p q => Sys2Proof.Machine.execEthFrameTransmit p q s
  | .ethRingWrite who p tx q upper v => Sys2Proof.Machine.execEthRingWrite who p tx q upper v s
  | .enec => Sys2Proof.Machine.execEnec s
  | .disec => Sys2Proof.Machine.execDisec s
  | .rstdaa => Sys2Proof.Machine.execRstdaa s
  | .setdasa a => Sys2Proof.Machine.execSetdasa a s
  | .setaasa => Sys2Proof.Machine.execSetaasa s
  | .getpid => Sys2Proof.Machine.execGetpid s
  | .getbcr => Sys2Proof.Machine.execGetbcr s
  | .getdcr => Sys2Proof.Machine.execGetdcr s
  | .getstatus => Sys2Proof.Machine.execGetstatus s
  | .getmxds => Sys2Proof.Machine.execGetmxds s
  | .i3cRegisterAccess ptr bs n => Sys2Proof.Machine.execI3cRegisterAccess ptr bs n s
  | .mboxGo => Sys2Proof.Machine.execMboxGo s
  | .idcode => Sys2Proof.Machine.execIdcode s
  | .samplePreload pins => Sys2Proof.Machine.execSamplePreload pins s
  | .extest => Sys2Proof.Machine.execExtest s
  | .clamp => Sys2Proof.Machine.execClamp s
  | .highz => Sys2Proof.Machine.execHighz s
  | .bypass => Sys2Proof.Machine.execBypass s
  | .commandFetch x => Sys2Proof.Machine.execCommandFetch x s
  | .commandStart n => Sys2Proof.Machine.execCommandStart n s
  | .resourceGrant => Sys2Proof.Machine.execResourceGrant s
  | .commandTimeout n => Sys2Proof.Machine.execCommandTimeout n s
  | .delegateResult n status detail result => Sys2Proof.Machine.execDelegateResult n status detail result s
  | .nop n => Sys2Proof.Machine.execNop n s
  | .devInfo n => Sys2Proof.Machine.execDevInfo n s
  | .setDevnum n => Sys2Proof.Machine.execSetDevnum n s
  | .warmReset n => Sys2Proof.Machine.execWarmReset n s
  | .memAlloc n => Sys2Proof.Machine.execMemAlloc n s
  | .memFree n => Sys2Proof.Machine.execMemFree n s
  | .memFill n => Sys2Proof.Machine.execMemFill n s
  | .memCopy n => Sys2Proof.Machine.execMemCopy n s
  | .winSet n => Sys2Proof.Machine.execWinSet n s
  | .quotaSet n => Sys2Proof.Machine.execQuotaSet n s
  | .jobCreate n => Sys2Proof.Machine.execJobCreate n s
  | .imageLoad n img => Sys2Proof.Machine.execImageLoad n img s
  | .jobStart n => Sys2Proof.Machine.execJobStart n s
  | .stepLaunch n => Sys2Proof.Machine.execStepLaunch n s
  | .stepVerdict n => Sys2Proof.Machine.execStepVerdict n s
  | .jobKill n => Sys2Proof.Machine.execJobKill n s
  | .jobRelease n => Sys2Proof.Machine.execJobRelease n s
  | .jobStatus n => Sys2Proof.Machine.execJobStatus n s
  | .coreReset n => Sys2Proof.Machine.execCoreReset n s
  | .planLoad n => Sys2Proof.Machine.execPlanLoad n s
  | .linkUp n => Sys2Proof.Machine.execLinkUp n s
  | .linkDown n => Sys2Proof.Machine.execLinkDown n s
  | .flowLoad n => Sys2Proof.Machine.execFlowLoad n s
  | .linkStatus n => Sys2Proof.Machine.execLinkStatus n s
  | .telSnapshot n => Sys2Proof.Machine.execTelSnapshot n s
  | .telErrors n => Sys2Proof.Machine.execTelErrors n s
  | .ckptExport n staging refused => Sys2Proof.Machine.execCkptExport n staging refused s
  | .stateImport n records => Sys2Proof.Machine.execStateImport n records s
  | .dbgRead n => Sys2Proof.Machine.execDbgRead n s
  | .dbgWrite n => Sys2Proof.Machine.execDbgWrite n s
  | .dbgChallenge n => Sys2Proof.Machine.execDbgChallenge n s
  | .dbgResponse n => Sys2Proof.Machine.execDbgResponse n s
  | .pwrCap n => Sys2Proof.Machine.execPwrCap n s
  | .pwrDomain n => Sys2Proof.Machine.execPwrDomain n s
  | .pwrStatus n => Sys2Proof.Machine.execPwrStatus n s
  | .flashWrite n => Sys2Proof.Machine.execFlashWrite n s
  | .overlayLoad n => Sys2Proof.Machine.execOverlayLoad n s
  | .brokerImage n => Sys2Proof.Machine.execBrokerImage n s
  | .ownerKeySet n => Sys2Proof.Machine.execOwnerKeySet n s
  | .wardenHeartbeat => Sys2Proof.Machine.execWardenHeartbeat s
  | .wardenTakeover => Sys2Proof.Machine.execWardenTakeover s
  | .stepStart job ck => Sys2Proof.Machine.execStepStart job ck s
  | .variantLoad job => Sys2Proof.Machine.execVariantLoad job s
  | .stepResolve job => Sys2Proof.Machine.execStepResolve job s
  | .coreFaultReport p => Sys2Proof.Machine.execCoreFaultReport p s
  | .remap c => Sys2Proof.Machine.execRemap c s
  | .remapEnd row => Sys2Proof.Machine.execRemapEnd row s
  | .stepReceipt job => Sys2Proof.Machine.execStepReceipt job s
  | .killDrainEnd job => Sys2Proof.Machine.execKillDrainEnd job s
  | .sramScrubEnd job => Sys2Proof.Machine.execSramScrubEnd job s
  | .hbmScrubEnd job => Sys2Proof.Machine.execHbmScrubEnd job s
  | .quietEnd job => Sys2Proof.Machine.execQuietEnd job s
  | .rejoinPause job sends into => Sys2Proof.Machine.execRejoinPause job sends into s
  | .rdS cpx line => Sys2Proof.Machine.execRdS cpx line s
  | .rdO cpx line => Sys2Proof.Machine.execRdO cpx line s
  | .evictC cpx line home => Sys2Proof.Machine.execEvictC cpx line home s
  | .evictD cpx line data home => Sys2Proof.Machine.execEvictD cpx line data home s
  | .snpS cpx line dirty => Sys2Proof.Machine.execSnpS cpx line dirty s
  | .snpI cpx line dirty => Sys2Proof.Machine.execSnpI cpx line dirty s
  | .wbAck cpx line => Sys2Proof.Machine.execWbAck cpx line s
  | .snoopResponse cpx line => Sys2Proof.Machine.execSnoopResponse cpx line s
  | .errandSend h => Sys2Proof.Machine.execErrandSend h s
  | .inputEntryReady x => Sys2Proof.Machine.execInputEntryReady x s
  | .absent => Sys2Proof.Machine.execAbsent s
  | .rejoin => Sys2Proof.Machine.execRejoin s
  | .accept => Sys2Proof.Machine.execAccept s
  | .nfsum => Sys2Proof.Machine.execNfsum s
  | .verdict => Sys2Proof.Machine.execVerdict s
  | .telemetryCopy c => Sys2Proof.Machine.execTelemetryCopy c s
  | .accountRelease who => Sys2Proof.Machine.execAccountRelease who s
  | .queueEnable who q v => Sys2Proof.Machine.execQueueEnable who q v s
  | .queueTailWrite h q tail => Sys2Proof.Machine.execQueueTailWrite h q tail s
  | .errAck who v => Sys2Proof.Machine.execErrAck who v s
  | .rcRead who a wide => Sys2Proof.Machine.execRcRead who a wide s
  | .scheduleWindowWrite a wide v => Sys2Proof.Machine.execScheduleWindowWrite a wide v s
  | .registerWrite who a wide v => Sys2Proof.Machine.execRegisterWrite who a wide v s
  | .bootStepClocks ms fail => Sys2Proof.Machine.execBootStepClocks ms fail s
  | .bootStepSram ms fail => Sys2Proof.Machine.execBootStepSram ms fail s
  | .bootStepHbm ms fail => Sys2Proof.Machine.execBootStepHbm ms fail s
  | .bootStepLinks ms => Sys2Proof.Machine.execBootStepLinks ms s
  | .bootStepCores ms engines bad => Sys2Proof.Machine.execBootStepCores ms engines bad s
  | .bootStepWarden ms x => Sys2Proof.Machine.execBootStepWarden ms x s
  | .bootStageWrite o bs => Sys2Proof.Machine.execBootStageWrite o bs s
  | .bootRom x => Sys2Proof.Machine.execBootRom x s
  | .bootClocks fail => Sys2Proof.Machine.execBootClocks fail s
  | .bootSram fail => Sys2Proof.Machine.execBootSram fail s
  | .bootHbm fail => Sys2Proof.Machine.execBootHbm fail s
  | .bootLinks => Sys2Proof.Machine.execBootLinks s
  | .bootCores engines bad warden => Sys2Proof.Machine.execBootCores engines bad warden s
  | .bootReady => Sys2Proof.Machine.execBootReady s
  | .bootStageTimeout => Sys2Proof.Machine.execBootStageTimeout s
  | .coldReset straps => Sys2Proof.Machine.execColdReset straps s
  | .railFault ao => Sys2Proof.Machine.execRailFault ao s
  | .thermalTrip n a b => Sys2Proof.Machine.execThermalTrip n a b s
  | .tripDomainsOff => Sys2Proof.Machine.execTripDomainsOff s
  | .powerSample w => Sys2Proof.Machine.execPowerSample w s
  | .capLimitRaise => Sys2Proof.Machine.execCapLimitRaise s
  | .thermalLimitStep raw slow => Sys2Proof.Machine.execThermalLimitStep raw slow s
  | .clockStep reached => Sys2Proof.Machine.execClockStep reached s
  | .voltageUpdate die want failed status => Sys2Proof.Machine.execVoltageUpdate die want failed status s
  | .droopTrip => Sys2Proof.Machine.execDroopTrip s
  | .domainTransitionEnd n => Sys2Proof.Machine.execDomainTransitionEnd n s
  | .bellFire job since => Sys2Proof.Machine.execBellFire job since s
  | .unlockExpire job => Sys2Proof.Machine.execUnlockExpire job s
  | .challengeExpire => Sys2Proof.Machine.execChallengeExpire s
  | .errandInject c => Sys2Proof.Machine.execErrandInject c s
  | .vopComplete c => Sys2Proof.Machine.execVopComplete c s
  | .pcieLinkUp rate width flit => Sys2Proof.Machine.execPcieLinkUp rate width flit s
  | .ethLink p up => Sys2Proof.Machine.execEthLink p up s
  | .clerkSelfCheck k ok => Sys2Proof.Machine.execClerkSelfCheck k ok s

end Sys2Proof.Machine
end

