-- ==== Sys2Proof/WellFormed.lean ====
section
/-! DEFINITION. Which commands are well formed: the units their operands name exist on the largest grade (R3, R4, R12, R167, R322, R371,
R393, R406), and lists have the lengths that the spec gives. -/

namespace Sys2Proof

/-- A position on the largest grade (R3, R4). -/
def CoreId.fits (c : CoreId) : Bool := decide (c.x.toNat < 96) && decide (c.y.toNat < 96)

/-- One of the 96 optical ports (R12). -/
def fitsPort (p : BitVec 7) : Bool := decide (p.toNat < 96)

/-- One of the 576 arcades (R13). -/
def fitsArcade (a : BitVec 10) : Bool := decide (a.toNat < 576)

/-- A physical core: one of 192 row records and a die-local column of 50 (R393). -/
def fitsPlace (x : BitVec 8 × BitVec 6) : Bool := decide (x.1.toNat < 192) && decide (x.2.toNat < 50)

/-- A packet has at most two payload flits (R167). -/
def Packet.fits (p : Packet) : Bool := decide (p.payload.length ≤ 2)

/-- A flash has regions 1 to 7 (R371). -/
def FlashProbe.fits (x : FlashProbe) : Bool := x.regions.all (fun r => decide (r.1 ≠ 0))

/-- What a load set gives a core and a router is at a position, and what it gives a port at a port. -/
def LoadSet.fits (l : LoadSet) : Bool :=
  l.cores.all (fun c => c.core.fits) && l.routes.all (fun r => r.router.fits) && l.ports.all (fun p => fitsPort p.1)
    && l.flows.all (fun f => fitsPort f.port)

/-- An image's load sets fit, and it has at most seven dimensions and sixteen variants (R185, R186). -/
def Image.fits (i : Image) : Bool := i.sets.all LoadSet.fits && decide (i.buckets.length ≤ 7) && decide (i.vars.length ≤ 16)

/-- Whether a command is well formed. -/
def Instr.wellFormed (i : Instr) : Bool :=
  match i with
  | .alu c _ => c.fits
  | .addi c _ => c.fits
  | .andi c _ => c.fits
  | .ori c _ => c.fits
  | .xori c _ => c.fits
  | .shi c _ => c.fits
  | .lui c _ => c.fits
  | .slti c _ => c.fits
  | .beq c _ => c.fits
  | .bne c _ => c.fits
  | .blt c _ => c.fits
  | .bge c _ => c.fits
  | .bltu c _ => c.fits
  | .bgeu c _ => c.fits
  | .jal c _ => c.fits
  | .jalr c _ => c.fits
  | .lb c _ _ => c.fits
  | .lbu c _ _ => c.fits
  | .lh c _ _ => c.fits
  | .lhu c _ _ => c.fits
  | .lw c _ _ => c.fits
  | .lwu c _ _ => c.fits
  | .ld c _ _ => c.fits
  | .sb c _ _ => c.fits
  | .sh c _ _ => c.fits
  | .sw c _ _ => c.fits
  | .sd c _ _ => c.fits
  | .storeRetire c => c.fits
  | .dld c _ _ => c.fits
  | .dst c _ _ => c.fits
  | .dset c _ => c.fits
  | .vop c _ _ => c.fits
  | .tmm c _ _ => c.fits
  | .tmmComplete c => c.fits
  | .tcvt c _ _ => c.fits
  | .tcvtComplete c => c.fits
  | .tscat c _ _ => c.fits
  | .scatterRowAdd c _ => c.fits
  | .tscatComplete c => c.fits
  | .send c _ _ => c.fits
  | .recv c _ _ => c.fits
  | .rrel c _ _ => c.fits
  | .poll c _ => c.fits
  | .waitc c _ => c.fits
  | .waitcr c _ => c.fits
  | .counterWaitRetire c _ => c.fits
  | .csetc c _ => c.fits
  | .crd c _ => c.fits
  | .preq c _ _ => c.fits
  | .fence c _ _ => c.fits
  | .rankup c _ => c.fits
  | .slotnext c _ => c.fits
  | .csrr c _ => c.fits
  | .csrw c _ => c.fits
  | .errinc c _ _ => c.fits
  | .halt c _ _ => c.fits
  | .rowArrival c _ _ => c.fits
  | .remoteQueueRetire c _ => c.fits
  | .tallyHeaderClassify c _ _ => c.fits
  | .tallyRowAdd c => c.fits
  | .tallyDeadline c _ _ => c.fits
  | .tallyRelease c _ => c.fits
  | .tallyReleaseEnd c _ => c.fits
  | .creditArrival p => p.fits
  | .receiptArrival p => p.fits
  | .errincArrival p => p.fits
  | .doneArrival p => p.fits
  | .routerSlot r _ _ => r.fits
  | .scheduleFill c _ => c.fits
  | .epochVote p _ => p.fits
  | .turn c _ => c.fits
  | .turnDrainStart => true
  | .bankTurn => true
  | .spotCheckSelect c => c.fits
  | .checkEngineRequest arcade => fitsArcade arcade
  | .spotCheckCompare c _ => c.fits
  | .patrolRead c _ _ => c.fits
  | .hbmPatrol _ _ _ => true
  | .descriptorAccept p => p.fits
  | .porterCredit p => p.fits
  | .transferStart _ _ => true
  | .tagGrant _ => true
  | .pieceReturn _ _ _ _ => true
  | .pieceTimeout _ _ _ => true
  | .gatedCreditTake _ _ => true
  | .storeCmd p _ => p.fits
  | .storeRowArrival _ _ => true
  | .pieceWriteAck _ _ _ => true
  | .fencePostArrival _ => true
  | .stackFail _ => true
  | .clerkRequest p => p.fits
  | .update _ => true
  | .scan _ => true
  | .norm _ => true
  | .exportRecord _ => true
  | .clerkRowCommit _ => true
  | .clerkWatchdog _ => true
  | .clerkFail _ => true
  | .clerkTakeback _ => true
  | .egressTransmit p _ => fitsPort p
  | .egressMessageSent p _ => fitsPort p
  | .ingressMessage p _ => fitsPort p
  | .nullMessage p _ => fitsPort p
  | .flitReceive p _ _ => fitsPort p
  | .linkMessage p _ => fitsPort p
  | .nopSymbol p _ _ => fitsPort p
  | .ack p _ _ => fitsPort p
  | .nak p _ _ => fitsPort p
  | .laneCredit p _ _ => fitsPort p
  | .flowCredit p _ _ => fitsPort p
  | .epochTurn p _ _ => fitsPort p
  | .assay p _ _ => fitsPort p
  | .goingDown p _ _ => fitsPort p
  | .discover p _ _ => fitsPort p
  | .spareReq p _ _ _ => fitsPort p
  | .swap p _ _ _ => fitsPort p
  | .align p _ _ => fitsPort p
  | .train p _ _ => fitsPort p
  | .ackTimer p => fitsPort p
  | .nakRepeat p => fitsPort p
  | .creditRefresh p => fitsPort p
  | .assayRepeat p => fitsPort p
  | .discoverRepeat p => fitsPort p
  | .laneSpareTrigger p _ _ _ => fitsPort p
  | .swapAtK p _ => fitsPort p
  | .spareOldStop p _ => fitsPort p
  | .ringLockLoss p _ wl _ => fitsPort p && decide (wl.toNat < 18)
  | .linkStateDone p _ => fitsPort p
  | .linkStateTimeout p => fitsPort p
  | .lostRetry p => fitsPort p
  | .pcieConfigRequest _ _ => true
  | .bar0Access _ _ _ => true
  | .bar2Access _ _ n w => decide (n.toNat ≤ 4096) && w.all (fun x => decide (x.1.length ≤ 4096))
  | .doorbell _ _ _ _ => true
  | .flr _ => true
  | .hotReset _ => true
  | .perstN _ => true
  | .ethFrameReceive _ _ _ => true
  | .ethFrameTransmit _ _ => true
  | .ethRingWrite _ _ _ _ _ _ => true
  | .enec => true
  | .disec => true
  | .rstdaa => true
  | .setdasa _ => true
  | .setaasa => true
  | .getpid => true
  | .getbcr => true
  | .getdcr => true
  | .getstatus => true
  | .getmxds => true
  | .i3cRegisterAccess _ _ _ => true
  | .mboxGo => true
  | .idcode => true
  | .samplePreload _ => true
  | .extest => true
  | .clamp => true
  | .highz => true
  | .bypass => true
  | .commandFetch _ => true
  | .commandStart _ => true
  | .resourceGrant => true
  | .commandTimeout _ => true
  | .delegateResult _ _ _ _ => true
  | .nop _ => true
  | .devInfo _ => true
  | .setDevnum _ => true
  | .warmReset _ => true
  | .memAlloc _ => true
  | .memFree _ => true
  | .memFill _ => true
  | .memCopy _ => true
  | .winSet _ => true
  | .quotaSet _ => true
  | .jobCreate _ => true
  | .imageLoad _ img => img.fits
  | .jobStart _ => true
  | .stepLaunch _ => true
  | .stepVerdict _ => true
  | .jobKill _ => true
  | .jobRelease _ => true
  | .jobStatus _ => true
  | .coreReset _ => true
  | .planLoad _ => true
  | .linkUp _ => true
  | .linkDown _ => true
  | .flowLoad _ => true
  | .linkStatus _ => true
  | .telSnapshot _ => true
  | .telErrors _ => true
  | .ckptExport _ _ _ => true
  | .stateImport _ _ => true
  | .dbgRead _ => true
  | .dbgWrite _ => true
  | .dbgChallenge _ => true
  | .dbgResponse _ => true
  | .pwrCap _ => true
  | .pwrDomain _ => true
  | .pwrStatus _ => true
  | .flashWrite _ => true
  | .overlayLoad _ => true
  | .brokerImage _ => true
  | .ownerKeySet _ => true
  | .wardenHeartbeat => true
  | .wardenTakeover => true
  | .stepStart _ _ => true
  | .variantLoad _ => true
  | .stepResolve _ => true
  | .coreFaultReport p => p.fits
  | .remap c => c.fits
  | .remapEnd row => decide (row.toNat < 192)
  | .stepReceipt _ => true
  | .killDrainEnd _ => true
  | .sramScrubEnd _ => true
  | .hbmScrubEnd _ => true
  | .quietEnd _ => true
  | .rejoinPause _ _ _ => true
  | .rdS _ _ => true
  | .rdO _ _ => true
  | .evictC _ _ _ => true
  | .evictD _ _ _ _ => true
  | .snpS _ _ _ => true
  | .snpI _ _ _ => true
  | .wbAck _ _ => true
  | .snoopResponse _ _ => true
  | .errandSend _ => true
  | .inputEntryReady x => x.cores.all CoreId.fits
  | .absent => true
  | .rejoin => true
  | .accept => true
  | .nfsum => true
  | .verdict => true
  | .telemetryCopy c => c.all CoreId.fits
  | .accountRelease _ => true
  | .queueEnable _ _ _ => true
  | .queueTailWrite _ _ _ => true
  | .errAck _ _ => true
  | .rcRead _ _ _ => true
  | .scheduleWindowWrite _ _ _ => true
  | .registerWrite _ _ _ _ => true
  | .bootStepClocks _ _ => true
  | .bootStepSram _ _ => true
  | .bootStepHbm _ _ => true
  | .bootStepLinks _ => true
  | .bootStepCores _ engines bad => engines.all fitsArcade && bad.all fitsPlace
  | .bootStepWarden _ x => x.fits
  | .bootStageWrite _ _ => true
  | .bootRom x => x.fits
  | .bootClocks _ => true
  | .bootSram _ => true
  | .bootHbm _ => true
  | .bootLinks => true
  | .bootCores engines bad _ => engines.all fitsArcade && bad.all fitsPlace
  | .bootReady => true
  | .bootStageTimeout => true
  | .coldReset _ => true
  | .railFault _ => true
  | .thermalTrip _ _ _ => true
  | .tripDomainsOff => true
  | .powerSample _ => true
  | .capLimitRaise => true
  | .thermalLimitStep raw _ => decide (raw.length ≤ 64)
  | .clockStep _ => true
  | .voltageUpdate _ want _ _ => want.length == 4
  | .droopTrip => true
  | .domainTransitionEnd n => decide (n.toNat < 102)
  | .bellFire _ _ => true
  | .unlockExpire _ => true
  | .challengeExpire => true
  | .errandInject c => c.fits
  | .vopComplete c => c.fits
  | .pcieLinkUp _ _ _ => true
  | .ethLink _ _ => true
  | .clerkSelfCheck _ _ => true

/-- The core or router that a command names. -/
def Instr.core (i : Instr) : Option CoreId :=
  match i with
  | .alu c _ => some c
  | .addi c _ => some c
  | .andi c _ => some c
  | .ori c _ => some c
  | .xori c _ => some c
  | .shi c _ => some c
  | .lui c _ => some c
  | .slti c _ => some c
  | .beq c _ => some c
  | .bne c _ => some c
  | .blt c _ => some c
  | .bge c _ => some c
  | .bltu c _ => some c
  | .bgeu c _ => some c
  | .jal c _ => some c
  | .jalr c _ => some c
  | .lb c _ _ => some c
  | .lbu c _ _ => some c
  | .lh c _ _ => some c
  | .lhu c _ _ => some c
  | .lw c _ _ => some c
  | .lwu c _ _ => some c
  | .ld c _ _ => some c
  | .sb c _ _ => some c
  | .sh c _ _ => some c
  | .sw c _ _ => some c
  | .sd c _ _ => some c
  | .storeRetire c => some c
  | .dld c _ _ => some c
  | .dst c _ _ => some c
  | .dset c _ => some c
  | .vop c _ _ => some c
  | .tmm c _ _ => some c
  | .tmmComplete c => some c
  | .tcvt c _ _ => some c
  | .tcvtComplete c => some c
  | .tscat c _ _ => some c
  | .scatterRowAdd c _ => some c
  | .tscatComplete c => some c
  | .send c _ _ => some c
  | .recv c _ _ => some c
  | .rrel c _ _ => some c
  | .poll c _ => some c
  | .waitc c _ => some c
  | .waitcr c _ => some c
  | .counterWaitRetire c _ => some c
  | .csetc c _ => some c
  | .crd c _ => some c
  | .preq c _ _ => some c
  | .fence c _ _ => some c
  | .rankup c _ => some c
  | .slotnext c _ => some c
  | .csrr c _ => some c
  | .csrw c _ => some c
  | .errinc c _ _ => some c
  | .halt c _ _ => some c
  | .rowArrival c _ _ => some c
  | .remoteQueueRetire c _ => some c
  | .tallyHeaderClassify c _ _ => some c
  | .tallyRowAdd c => some c
  | .tallyDeadline c _ _ => some c
  | .tallyRelease c _ => some c
  | .tallyReleaseEnd c _ => some c
  | .creditArrival _ => none
  | .receiptArrival _ => none
  | .errincArrival _ => none
  | .doneArrival _ => none
  | .routerSlot r _ _ => some r
  | .scheduleFill c _ => some c
  | .epochVote _ _ => none
  | .turn c _ => some c
  | .turnDrainStart => none
  | .bankTurn => none
  | .spotCheckSelect c => some c
  | .checkEngineRequest _ => none
  | .spotCheckCompare c _ => some c
  | .patrolRead c _ _ => some c
  | .hbmPatrol _ _ _ => none
  | .descriptorAccept _ => none
  | .porterCredit _ => none
  | .transferStart _ _ => none
  | .tagGrant _ => none
  | .pieceReturn _ _ _ _ => none
  | .pieceTimeout _ _ _ => none
  | .gatedCreditTake _ _ => none
  | .storeCmd _ _ => none
  | .storeRowArrival _ _ => none
  | .pieceWriteAck _ _ _ => none
  | .fencePostArrival _ => none
  | .stackFail _ => none
  | .clerkRequest _ => none
  | .update _ => none
  | .scan _ => none
  | .norm _ => none
  | .exportRecord _ => none
  | .clerkRowCommit _ => none
  | .clerkWatchdog _ => none
  | .clerkFail _ => none
  | .clerkTakeback _ => none
  | .egressTransmit _ _ => none
  | .egressMessageSent _ _ => none
  | .ingressMessage _ _ => none
  | .nullMessage _ _ => none
  | .flitReceive _ _ _ => none
  | .linkMessage _ _ => none
  | .nopSymbol _ _ _ => none
  | .ack _ _ _ => none
  | .nak _ _ _ => none
  | .laneCredit _ _ _ => none
  | .flowCredit _ _ _ => none
  | .epochTurn _ _ _ => none
  | .assay _ _ _ => none
  | .goingDown _ _ _ => none
  | .discover _ _ _ => none
  | .spareReq _ _ _ _ => none
  | .swap _ _ _ _ => none
  | .align _ _ _ => none
  | .train _ _ _ => none
  | .ackTimer _ => none
  | .nakRepeat _ => none
  | .creditRefresh _ => none
  | .assayRepeat _ => none
  | .discoverRepeat _ => none
  | .laneSpareTrigger _ _ _ _ => none
  | .swapAtK _ _ => none
  | .spareOldStop _ _ => none
  | .ringLockLoss _ _ _ _ => none
  | .linkStateDone _ _ => none
  | .linkStateTimeout _ => none
  | .lostRetry _ => none
  | .pcieConfigRequest _ _ => none
  | .bar0Access _ _ _ => none
  | .bar2Access _ _ _ _ => none
  | .doorbell _ _ _ _ => none
  | .flr _ => none
  | .hotReset _ => none
  | .perstN _ => none
  | .ethFrameReceive _ _ _ => none
  | .ethFrameTransmit _ _ => none
  | .ethRingWrite _ _ _ _ _ _ => none
  | .enec => none
  | .disec => none
  | .rstdaa => none
  | .setdasa _ => none
  | .setaasa => none
  | .getpid => none
  | .getbcr => none
  | .getdcr => none
  | .getstatus => none
  | .getmxds => none
  | .i3cRegisterAccess _ _ _ => none
  | .mboxGo => none
  | .idcode => none
  | .samplePreload _ => none
  | .extest => none
  | .clamp => none
  | .highz => none
  | .bypass => none
  | .commandFetch _ => none
  | .commandStart _ => none
  | .resourceGrant => none
  | .commandTimeout _ => none
  | .delegateResult _ _ _ _ => none
  | .nop _ => none
  | .devInfo _ => none
  | .setDevnum _ => none
  | .warmReset _ => none
  | .memAlloc _ => none
  | .memFree _ => none
  | .memFill _ => none
  | .memCopy _ => none
  | .winSet _ => none
  | .quotaSet _ => none
  | .jobCreate _ => none
  | .imageLoad _ _ => none
  | .jobStart _ => none
  | .stepLaunch _ => none
  | .stepVerdict _ => none
  | .jobKill _ => none
  | .jobRelease _ => none
  | .jobStatus _ => none
  | .coreReset _ => none
  | .planLoad _ => none
  | .linkUp _ => none
  | .linkDown _ => none
  | .flowLoad _ => none
  | .linkStatus _ => none
  | .telSnapshot _ => none
  | .telErrors _ => none
  | .ckptExport _ _ _ => none
  | .stateImport _ _ => none
  | .dbgRead _ => none
  | .dbgWrite _ => none
  | .dbgChallenge _ => none
  | .dbgResponse _ => none
  | .pwrCap _ => none
  | .pwrDomain _ => none
  | .pwrStatus _ => none
  | .flashWrite _ => none
  | .overlayLoad _ => none
  | .brokerImage _ => none
  | .ownerKeySet _ => none
  | .wardenHeartbeat => none
  | .wardenTakeover => none
  | .stepStart _ _ => none
  | .variantLoad _ => none
  | .stepResolve _ => none
  | .coreFaultReport _ => none
  | .remap c => some c
  | .remapEnd _ => none
  | .stepReceipt _ => none
  | .killDrainEnd _ => none
  | .sramScrubEnd _ => none
  | .hbmScrubEnd _ => none
  | .quietEnd _ => none
  | .rejoinPause _ _ _ => none
  | .rdS _ _ => none
  | .rdO _ _ => none
  | .evictC _ _ _ => none
  | .evictD _ _ _ _ => none
  | .snpS _ _ _ => none
  | .snpI _ _ _ => none
  | .wbAck _ _ => none
  | .snoopResponse _ _ => none
  | .errandSend _ => none
  | .inputEntryReady _ => none
  | .absent => none
  | .rejoin => none
  | .accept => none
  | .nfsum => none
  | .verdict => none
  | .telemetryCopy _ => none
  | .accountRelease _ => none
  | .queueEnable _ _ _ => none
  | .queueTailWrite _ _ _ => none
  | .errAck _ _ => none
  | .rcRead _ _ _ => none
  | .scheduleWindowWrite _ _ _ => none
  | .registerWrite _ _ _ _ => none
  | .bootStepClocks _ _ => none
  | .bootStepSram _ _ => none
  | .bootStepHbm _ _ => none
  | .bootStepLinks _ => none
  | .bootStepCores _ _ _ => none
  | .bootStepWarden _ _ => none
  | .bootStageWrite _ _ => none
  | .bootRom _ => none
  | .bootClocks _ => none
  | .bootSram _ => none
  | .bootHbm _ => none
  | .bootLinks => none
  | .bootCores _ _ _ => none
  | .bootReady => none
  | .bootStageTimeout => none
  | .coldReset _ => none
  | .railFault _ => none
  | .thermalTrip _ _ _ => none
  | .tripDomainsOff => none
  | .powerSample _ => none
  | .capLimitRaise => none
  | .thermalLimitStep _ _ => none
  | .clockStep _ => none
  | .voltageUpdate _ _ _ _ => none
  | .droopTrip => none
  | .domainTransitionEnd _ => none
  | .bellFire _ _ => none
  | .unlockExpire _ => none
  | .challengeExpire => none
  | .errandInject c => some c
  | .vopComplete c => some c
  | .pcieLinkUp _ _ _ => none
  | .ethLink _ _ => none
  | .clerkSelfCheck _ _ => none

/-- The optical port that a command names. -/
def Instr.port (i : Instr) : Option (BitVec 7) :=
  match i with
  | .alu _ _ => none
  | .addi _ _ => none
  | .andi _ _ => none
  | .ori _ _ => none
  | .xori _ _ => none
  | .shi _ _ => none
  | .lui _ _ => none
  | .slti _ _ => none
  | .beq _ _ => none
  | .bne _ _ => none
  | .blt _ _ => none
  | .bge _ _ => none
  | .bltu _ _ => none
  | .bgeu _ _ => none
  | .jal _ _ => none
  | .jalr _ _ => none
  | .lb _ _ _ => none
  | .lbu _ _ _ => none
  | .lh _ _ _ => none
  | .lhu _ _ _ => none
  | .lw _ _ _ => none
  | .lwu _ _ _ => none
  | .ld _ _ _ => none
  | .sb _ _ _ => none
  | .sh _ _ _ => none
  | .sw _ _ _ => none
  | .sd _ _ _ => none
  | .storeRetire _ => none
  | .dld _ _ _ => none
  | .dst _ _ _ => none
  | .dset _ _ => none
  | .vop _ _ _ => none
  | .tmm _ _ _ => none
  | .tmmComplete _ => none
  | .tcvt _ _ _ => none
  | .tcvtComplete _ => none
  | .tscat _ _ _ => none
  | .scatterRowAdd _ _ => none
  | .tscatComplete _ => none
  | .send _ _ _ => none
  | .recv _ _ _ => none
  | .rrel _ _ _ => none
  | .poll _ _ => none
  | .waitc _ _ => none
  | .waitcr _ _ => none
  | .counterWaitRetire _ _ => none
  | .csetc _ _ => none
  | .crd _ _ => none
  | .preq _ _ _ => none
  | .fence _ _ _ => none
  | .rankup _ _ => none
  | .slotnext _ _ => none
  | .csrr _ _ => none
  | .csrw _ _ => none
  | .errinc _ _ _ => none
  | .halt _ _ _ => none
  | .rowArrival _ _ _ => none
  | .remoteQueueRetire _ _ => none
  | .tallyHeaderClassify _ _ _ => none
  | .tallyRowAdd _ => none
  | .tallyDeadline _ _ _ => none
  | .tallyRelease _ _ => none
  | .tallyReleaseEnd _ _ => none
  | .creditArrival _ => none
  | .receiptArrival _ => none
  | .errincArrival _ => none
  | .doneArrival _ => none
  | .routerSlot _ _ _ => none
  | .scheduleFill _ _ => none
  | .epochVote _ _ => none
  | .turn _ _ => none
  | .turnDrainStart => none
  | .bankTurn => none
  | .spotCheckSelect _ => none
  | .checkEngineRequest _ => none
  | .spotCheckCompare _ _ => none
  | .patrolRead _ _ _ => none
  | .hbmPatrol _ _ _ => none
  | .descriptorAccept _ => none
  | .porterCredit _ => none
  | .transferStart _ _ => none
  | .tagGrant _ => none
  | .pieceReturn _ _ _ _ => none
  | .pieceTimeout _ _ _ => none
  | .gatedCreditTake _ _ => none
  | .storeCmd _ _ => none
  | .storeRowArrival _ _ => none
  | .pieceWriteAck _ _ _ => none
  | .fencePostArrival _ => none
  | .stackFail _ => none
  | .clerkRequest _ => none
  | .update _ => none
  | .scan _ => none
  | .norm _ => none
  | .exportRecord _ => none
  | .clerkRowCommit _ => none
  | .clerkWatchdog _ => none
  | .clerkFail _ => none
  | .clerkTakeback _ => none
  | .egressTransmit p _ => some p
  | .egressMessageSent p _ => some p
  | .ingressMessage p _ => some p
  | .nullMessage p _ => some p
  | .flitReceive p _ _ => some p
  | .linkMessage p _ => some p
  | .nopSymbol p _ _ => some p
  | .ack p _ _ => some p
  | .nak p _ _ => some p
  | .laneCredit p _ _ => some p
  | .flowCredit p _ _ => some p
  | .epochTurn p _ _ => some p
  | .assay p _ _ => some p
  | .goingDown p _ _ => some p
  | .discover p _ _ => some p
  | .spareReq p _ _ _ => some p
  | .swap p _ _ _ => some p
  | .align p _ _ => some p
  | .train p _ _ => some p
  | .ackTimer p => some p
  | .nakRepeat p => some p
  | .creditRefresh p => some p
  | .assayRepeat p => some p
  | .discoverRepeat p => some p
  | .laneSpareTrigger p _ _ _ => some p
  | .swapAtK p _ => some p
  | .spareOldStop p _ => some p
  | .ringLockLoss p _ _ _ => some p
  | .linkStateDone p _ => some p
  | .linkStateTimeout p => some p
  | .lostRetry p => some p
  | .pcieConfigRequest _ _ => none
  | .bar0Access _ _ _ => none
  | .bar2Access _ _ _ _ => none
  | .doorbell _ _ _ _ => none
  | .flr _ => none
  | .hotReset _ => none
  | .perstN _ => none
  | .ethFrameReceive _ _ _ => none
  | .ethFrameTransmit _ _ => none
  | .ethRingWrite _ _ _ _ _ _ => none
  | .enec => none
  | .disec => none
  | .rstdaa => none
  | .setdasa _ => none
  | .setaasa => none
  | .getpid => none
  | .getbcr => none
  | .getdcr => none
  | .getstatus => none
  | .getmxds => none
  | .i3cRegisterAccess _ _ _ => none
  | .mboxGo => none
  | .idcode => none
  | .samplePreload _ => none
  | .extest => none
  | .clamp => none
  | .highz => none
  | .bypass => none
  | .commandFetch _ => none
  | .commandStart _ => none
  | .resourceGrant => none
  | .commandTimeout _ => none
  | .delegateResult _ _ _ _ => none
  | .nop _ => none
  | .devInfo _ => none
  | .setDevnum _ => none
  | .warmReset _ => none
  | .memAlloc _ => none
  | .memFree _ => none
  | .memFill _ => none
  | .memCopy _ => none
  | .winSet _ => none
  | .quotaSet _ => none
  | .jobCreate _ => none
  | .imageLoad _ _ => none
  | .jobStart _ => none
  | .stepLaunch _ => none
  | .stepVerdict _ => none
  | .jobKill _ => none
  | .jobRelease _ => none
  | .jobStatus _ => none
  | .coreReset _ => none
  | .planLoad _ => none
  | .linkUp _ => none
  | .linkDown _ => none
  | .flowLoad _ => none
  | .linkStatus _ => none
  | .telSnapshot _ => none
  | .telErrors _ => none
  | .ckptExport _ _ _ => none
  | .stateImport _ _ => none
  | .dbgRead _ => none
  | .dbgWrite _ => none
  | .dbgChallenge _ => none
  | .dbgResponse _ => none
  | .pwrCap _ => none
  | .pwrDomain _ => none
  | .pwrStatus _ => none
  | .flashWrite _ => none
  | .overlayLoad _ => none
  | .brokerImage _ => none
  | .ownerKeySet _ => none
  | .wardenHeartbeat => none
  | .wardenTakeover => none
  | .stepStart _ _ => none
  | .variantLoad _ => none
  | .stepResolve _ => none
  | .coreFaultReport _ => none
  | .remap _ => none
  | .remapEnd _ => none
  | .stepReceipt _ => none
  | .killDrainEnd _ => none
  | .sramScrubEnd _ => none
  | .hbmScrubEnd _ => none
  | .quietEnd _ => none
  | .rejoinPause _ _ _ => none
  | .rdS _ _ => none
  | .rdO _ _ => none
  | .evictC _ _ _ => none
  | .evictD _ _ _ _ => none
  | .snpS _ _ _ => none
  | .snpI _ _ _ => none
  | .wbAck _ _ => none
  | .snoopResponse _ _ => none
  | .errandSend _ => none
  | .inputEntryReady _ => none
  | .absent => none
  | .rejoin => none
  | .accept => none
  | .nfsum => none
  | .verdict => none
  | .telemetryCopy _ => none
  | .accountRelease _ => none
  | .queueEnable _ _ _ => none
  | .queueTailWrite _ _ _ => none
  | .errAck _ _ => none
  | .rcRead _ _ _ => none
  | .scheduleWindowWrite _ _ _ => none
  | .registerWrite _ _ _ _ => none
  | .bootStepClocks _ _ => none
  | .bootStepSram _ _ => none
  | .bootStepHbm _ _ => none
  | .bootStepLinks _ => none
  | .bootStepCores _ _ _ => none
  | .bootStepWarden _ _ => none
  | .bootStageWrite _ _ => none
  | .bootRom _ => none
  | .bootClocks _ => none
  | .bootSram _ => none
  | .bootHbm _ => none
  | .bootLinks => none
  | .bootCores _ _ _ => none
  | .bootReady => none
  | .bootStageTimeout => none
  | .coldReset _ => none
  | .railFault _ => none
  | .thermalTrip _ _ _ => none
  | .tripDomainsOff => none
  | .powerSample _ => none
  | .capLimitRaise => none
  | .thermalLimitStep _ _ => none
  | .clockStep _ => none
  | .voltageUpdate _ _ _ _ => none
  | .droopTrip => none
  | .domainTransitionEnd _ => none
  | .bellFire _ _ => none
  | .unlockExpire _ => none
  | .challengeExpire => none
  | .errandInject _ => none
  | .vopComplete _ => none
  | .pcieLinkUp _ _ _ => none
  | .ethLink _ _ => none
  | .clerkSelfCheck _ _ => none

end Sys2Proof
end

