-- ==== Sys2Proof/Safety.lean ====
section
/-! DEFINITION. What counts as a safe run of the block, and the conditions and frames in which the statements speak of its commands. -/

namespace Sys2Proof.Machine

/-! Runs. -/

/-- A step that goes on. -/
def Runs (s t : State) : Prop := step s = .next t

/-- Nothing that an earlier command made Naeno do is left over.  Every command leaves a state so. -/
def Calm (s : State) : Prop := s.dev.tasks = []

/-- The device takes commands: it is out of reset, no shutdown is latched and boot has not failed (R374, R461, R469, R470). -/
structure Live (s : State) : Prop where
  up : s.dev.dead = false
  calm : Calm s

/-- The device is out of reset, so that its always-on interfaces answer. -/
structure Awake (s : State) : Prop where
  up : s.dev.inReset = false
  calm : Calm s

/-! Frames. -/

/-- Nothing of the device changes but core `c`. -/
structure OnlyCore (s t : State) (c : CoreId) : Prop where
  queue : t.pending = s.pending
  device : { t.dev with cores := s.dev.cores } = s.dev
  others : ∀ x, x ≠ c → t.dev.core x = s.dev.core x

/-- Nothing of the device changes but core `c` and the packets on the errand network, of which there is one more. -/
structure OnlyCoreAndPacket (s t : State) (c : CoreId) (p : Packet) : Prop where
  queue : t.pending = s.pending
  device : { t.dev with cores := s.dev.cores, flight := s.dev.flight } = s.dev
  others : ∀ x, x ≠ c → t.dev.core x = s.dev.core x
  packet : t.dev.flight = s.dev.flight ++ [p]

/-- Nothing of the device changes but core `c` and the packets on the errand network, which gain `ps`. -/
structure OnlyCorePackets (s t : State) (c : CoreId) (ps : List Packet) : Prop where
  queue : t.pending = s.pending
  device : { t.dev with cores := s.dev.cores, flight := s.dev.flight } = s.dev
  others : ∀ x, x ≠ c → t.dev.core x = s.dev.core x
  packets : t.dev.flight = s.dev.flight ++ ps

/-- Nothing of the device changes but Porter `n`, the registers of its block and the packets on the errand network. -/
structure OnlyPorter (s t : State) (n : Nat) : Prop where
  queue : t.pending = s.pending
  device : { t.dev with porters := s.dev.porters, regs := s.dev.regs, flight := s.dev.flight } = s.dev
  others : ∀ m, m ≠ n → t.dev.porter m = s.dev.porter m
  regs : ∀ a, a < 0x1080000 + n * 4096 ∨ 0x1080000 + n * 4096 + 4096 ≤ a → t.dev.reg a = s.dev.reg a

/-- Nothing of the device changes but the link logic and the relays of port `p`, the registers of its block and what leaves the device. -/
structure OnlyLink (s t : State) (p : Nat) : Prop where
  queue : t.pending = s.pending
  device : { t.dev with ports := s.dev.ports, relays := s.dev.relays, regs := s.dev.regs, out := s.dev.out } = s.dev
  ports : ∀ q, q ≠ p → t.dev.port q = s.dev.port q
  relays : ∀ q, q ≠ p → t.dev.relay q = s.dev.relay q
  regs : ∀ a, a < 0x1100000 + p * 4096 ∨ 0x1100000 + p * 4096 + 4096 ≤ a → t.dev.reg a = s.dev.reg a

/-- Whether a byte address lies in one of a list of spans, given as first byte and bytes. -/
def inSpans (l : List (Nat × Nat)) (a : Nat) : Prop := ∃ p ∈ l, p.1 ≤ a ∧ a < p.1 + p.2

/-! Instructions of a core. -/

/-- A core's sequencer takes the instruction with major opcode `op` and field part `f` (R20). -/
structure Ready (s : State) (c : CoreId) (op : Nat) (f : BitVec 26) : Prop where
  live : Live s
  here : s.dev.logical c = true
  takes : (s.dev.core c).takes (wordOf op f) = true

/-- What an instruction that only retires leaves alone of its core: all but the pc, the count of instructions, the wait, and the ck with
their account. -/
def Core.still (k : Core) : Core := { k with pc := 0, instret := 0, wait := none, cycle := 0, acct := Acct.zero }

/-- As `still`, for an instruction that also writes a general register. -/
def Core.stillGr (k : Core) : Core := { k.still with g := [], gReady := [] }

/-- As `stillGr`, for an instruction that also writes a descriptor register. -/
def Core.stillGrDr (k : Core) : Core := { k.stillGr with d := [], dReady := [] }

/-- The instruction has retired and control is at index `next`. -/
structure Retired (k k' : Core) (next : Nat) : Prop where
  pc : k'.pc = next
  count : k'.instret = k.instret + 1
  wait : k'.wait = none

/-- Nothing of the device changes but core `c` and the error log, which has one record of ACCT_MISS more (R204, R432). -/
structure LogsMiss (s t : State) (c : CoreId) : Prop where
  queue : t.pending = s.pending
  device : { t.dev with cores := s.dev.cores, regs := s.dev.regs } = s.dev
  others : ∀ x, x ≠ c → t.dev.core x = s.dev.core x
  regs : ∀ a, a < 0x11E0000 ∨ 0x11E3000 ≤ a → t.dev.reg a = s.dev.reg a
  seq : t.dev.get ERR_STAT_seq = (s.dev.get ERR_STAT_seq + 1) % 2 ^ 32
  record : t.dev.get (ERR_REC_record (t.dev.get ERR_STAT_seq % 256)) % 2 ^ 16 = 0x0035

/-- A wait of core `c` retires: only the core changes where the ck booked for its pc are at most the lag, ACCT_MISS is logged as well where
the core had not waited and they exceed the lag, and else one of the two holds (R196, R204). -/
structure WaitRetires (s t : State) (c : CoreId) : Prop where
  hits : (∀ b, (s.dev.core c).booking (s.dev.core c).pc = some b → b.2.2.2 ≤ (s.dev.core c).acct.lag) → OnlyCore s t c
  misses : (s.dev.core c).wait = none → ∀ b, (s.dev.core c).booking (s.dev.core c).pc = some b → (s.dev.core c).acct.lag < b.2.2.2 →
    LogsMiss s t c
  frame : OnlyCore s t c ∨ LogsMiss s t c

/-- The instruction has retired, `rd` holds `v`, or nothing where `rd` is g0, and nothing else of the core changed. -/
structure WritesGr (k k' : Core) (rd : Nat) (v : BitVec 64) (next : Nat) : Prop where
  retired : Retired k k' next
  regs : ∀ r, k'.gr r = if r = rd ∧ rd ≠ 0 then v else k.gr r
  rest : k'.stillGr = k.stillGr

/-- The instruction has retired, descriptor register `rd` holds `v`, and nothing else of the core changed. -/
structure WritesDr (k k' : Core) (rd : Nat) (v : BitVec 128) (next : Nat) : Prop where
  retired : Retired k k' next
  regs : ∀ r, k'.dr r = if r = rd then v else k.dr r
  rest : { k'.still with d := [], dReady := [] } = { k.still with d := [], dReady := [] }

/-- The core has stopped with a fault of code `code` and detail `info` at its pc, and has done nothing else (R49). -/
structure Stopped (k k' : Core) (code : Nat) (info : Nat) : Prop where
  state : k'.run = .faulted
  fault : k'.fault = ⟨BitVec.ofNat 8 code, BitVec.ofNat 12 k.pc, BitVec.ofNat 32 info⟩
  rest : { k'.still with run := k.run, fault := k.fault } = k.still
  pc : k'.pc = k.pc
  count : k'.instret = k.instret

/-- The core has stopped with a fault, and one REPORT packet with CSR_FAULT to its arcade controller has left; nothing else of the device has
changed (R49). -/
def StopsWith (s t : State) (c : CoreId) (code info : Nat) : Prop :=
  Stopped (s.dev.core c) (t.dev.core c) code info
    ∧ ∃ p, OnlyCoreAndPacket s t c p ∧ p.type = 0x07 ∧ p.dstX = c.x ∧ p.dstY = c.y ∧ p.dstUnit = 1
      ∧ p.payload = [BitVec.ofNat 128 (code % 2 ^ 8 + (s.dev.core c).pc % 2 ^ 12 * 2 ^ 8 + info % 2 ^ 32 * 2 ^ 32)]

/-! Commands of the queues. -/

/-- A host queue of 64-byte commands, with the PCIe link up, so that its replies go into host memory (R327, R333). -/
structure HostRing (d : Dev) (q : Nat) : Prop where
  loc : d.get (WARD_Q_loc q) = 0
  words : d.get (WARD_Q_a2 q) = 0
  up : d.pcie.up = true

/-- Command `c` of a host queue has opcode `op`, Naeno does its work, and no drain of its job holds up the reply (R339). -/
structure Working (s : State) (c : Cmd) (op : Nat) : Prop where
  live : Live s
  cmd : s.dev.cmd c.n = some c
  opcode : c.opcode = op
  phase : c.phase = .started
  timely : c.opcode ≠ 0x0304 → s.dev.killing c.job = false
  ring : HostRing s.dev c.queue.toNat

/-- A command of a host queue has been answered after the change that leaves `e`: its reply is in the queue's reply ring, it is pending no
longer, and nothing else of `e` has changed but the registers of the queue and the counts of pending commands, BUSY replies and interrupts
(R327, R329, R333). -/
structure Replied (s t : State) (e : Dev) (c : Cmd) (status detail result : Nat) : Prop where
  queue : t.pending = s.pending
  gone : t.dev.cmds = e.cmds.filter (fun x => x.n != c.n)
  entry : Out.hostWrite (e.get (WARD_Q_func c.queue.toNat))
    ((e.get (WARD_Q_rbase c.queue.toNat) + e.get (WARD_Q_rindex c.queue.toNat) * 32) % 2 ^ 64) 32 (replyBytes c.tag status detail result) ∈ t.dev.out
  index : t.dev.get (WARD_Q_rindex c.queue.toNat) = (e.get (WARD_Q_rindex c.queue.toNat) + 1) % 2 ^ e.get (WARD_Q_log2n c.queue.toNat)
  rest : { t.dev with cmds := e.cmds, waiters := e.waiters, regs := e.regs, out := e.out, msixPba := e.msixPba } = e
  regs : ∀ a, a ≠ (WARD_Q_en c.queue.toNat).key → a ≠ WARD_LOAD_pending.key → a ≠ PCIE_ERR_db_bad.key → t.dev.reg a = e.reg a

end Sys2Proof.Machine
end

