-- ==== Sys2Proof/Certificates/Slice0/Obligations.lean ====
section
/-! DEFINITION. The statements for the provers. -/

section
open Sys2Proof Sys2Proof.Machine

/-- For every command c and state s, step of s with c at the front of its queue is exec of c on s with the queue's rest.  With no command
waiting the block idles: one ck passes and nothing else changes, which is the model's choice (log 5). -/
def Obligations.StepRunsFront : Prop :=
  (∀ (c : Instr) (cs : List Instr) (s : State), step { s with pending := c :: cs } = exec c { s with pending := cs })
    ∧ ∀ s : State, s.pending = [] → step s = .next { s with dev := { s.dev with ck := s.dev.ck + 1 } }

/-! The core's instructions. -/

/-- R38: what each function of ALU gives on the operands a and b. -/
def aluTable (a b : BitVec 64) : List (Nat × BitVec 64) :=
  [(0x000, a + b), (0x001, a - b), (0x002, a &&& b), (0x003, a ||| b), (0x004, a ^^^ b),
   (0x005, a <<< (b.toNat % 64)), (0x006, a >>> (b.toNat % 64)), (0x007, a.sshiftRight (b.toNat % 64)),
   (0x008, if a.slt b then 1 else 0), (0x009, if a.ult b then 1 else 0),
   (0x00A, if a.slt b then a else b), (0x00B, if a.slt b then b else a),
   (0x00C, if a.ult b then a else b), (0x00D, if a.ult b then b else a),
   (0x010, a * b), (0x011, BitVec.ofInt 64 (a.toInt * b.toInt / 2 ^ 64)), (0x012, BitVec.ofNat 64 (a.toNat * b.toNat / 2 ^ 64))]

/-- On a core whose sequencer takes ALU, for each of the 17 functions of R38 the command answers a next state in which rd holds the function of
rs1 and rs2 (nothing is written where rd is g0), the pc is the next index, and every other register, memory, counter and special register of
the core, every other core and the rest of the device are unchanged; only the ck and their account move. -/
def Obligations.AluResults : Prop :=
  ∀ (s : State) (c : CoreId) (f : BitVec 26), Ready s c 0x00 f → (s.dev.core c).pc < 4095 →
    ∀ p ∈ aluTable ((s.dev.core c).gr (fld f 16 5)) ((s.dev.core c).gr (fld f 11 5)), fld f 0 11 = p.1 →
      ∃ t, exec (.alu c f) s = .next t ∧ OnlyCore s t c
        ∧ WritesGr (s.dev.core c) (t.dev.core c) (fld f 21 5) p.2 ((s.dev.core c).pc + 1)

/-- R38: the immediate instructions on the operand a: instruction, major opcode, whether the word is legal, and the result. -/
def immTable (c : CoreId) (f : BitVec 26) (a : BitVec 64) : List (Instr × Nat × Bool × BitVec 64) :=
  let i : BitVec 64 := (f.setWidth 16).signExtend 64
  let n := f.toNat % 64
  [(.addi c f, 0x01, true, a + i), (.andi c f, 0x02, true, a &&& i), (.ori c f, 0x03, true, a ||| i), (.xori c f, 0x04, true, a ^^^ i),
   (.shi c f, 0x05, fld f 6 10 == 0, a <<< n), (.shi c f, 0x05, fld f 6 10 == 1, a >>> n), (.shi c f, 0x05, fld f 6 10 == 2, a.sshiftRight n),
   (.lui c f, 0x06, fld f 16 5 == 0, ((f.setWidth 16).setWidth 32 <<< 16).signExtend 64),
   (.slti c f, 0x07, true, if a.slt i then 1 else 0)]

/-- On a core whose sequencer takes it, each legal immediate instruction answers a next state in which rd holds its result on rs1 and the
sign-extended imm16 (nothing is written where rd is g0), the pc is the next index, and nothing else of the core or the device is changed but
the ck and their account. -/
def Obligations.ImmediateResults : Prop :=
  ∀ (s : State) (c : CoreId) (f : BitVec 26), ∀ p ∈ immTable c f ((s.dev.core c).gr (fld f 16 5)),
    Ready s c p.2.1 f → p.2.2.1 = true → (s.dev.core c).pc < 4095 →
      ∃ t, exec p.1 s = .next t ∧ OnlyCore s t c
        ∧ WritesGr (s.dev.core c) (t.dev.core c) (fld f 21 5) p.2.2.2 ((s.dev.core c).pc + 1)

/-- The words of R36 that are ILLEGAL: instruction, major opcode, and whether its fields are reserved. -/
def illegalTable (c : CoreId) (f : BitVec 26) (w : Nat) : List (Instr × Nat × Bool) :=
  [(.alu c f, 0x00, decide (0x013 ≤ fld f 0 11) || fld f 0 11 == 0x00E || fld f 0 11 == 0x00F),
   (.shi c f, 0x05, decide (3 ≤ fld f 6 10)), (.lui c f, 0x06, fld f 16 5 != 0), (.dld c f w, 0x1C, fld f 21 1 == 1),
   (.dst c f w, 0x1D, fld f 21 1 == 1), (.dset c f, 0x1E, fld f 21 1 == 1 || decide (6 ≤ fld f 0 16)),
   (.tmm c f w, 0x20, fld f 0 1 == 1 || decide (5 ≤ fld f 5 3) || fld f 3 2 == 3),
   (.tcvt c f w, 0x21, fld f 0 8 != 0 || fld f 14 4 != 0), (.tscat c f w, 0x22, fld f 0 8 != 0),
   (.send c f w, 0x30, fld f 0 12 != 0), (.recv c f w, 0x31, fld f 0 12 != 0), (.rrel c f w, 0x32, fld f 0 21 != 0),
   (.poll c f, 0x33, fld f 0 12 != 0 || fld f 17 4 != 0), (.waitcr c f, 0x35, fld f 0 15 != 0), (.csetc c f, 0x36, fld f 0 15 != 0),
   (.crd c f, 0x37, fld f 0 15 != 0), (.fence c f w, 0x39, fld f 0 26 == 0 || decide (16 ≤ fld f 0 26)),
   (.rankup c f, 0x3A, fld f 16 10 != 0), (.slotnext c f, 0x3B, fld f 0 26 != 0), (.csrr c f, 0x3C, fld f 12 9 != 0),
   (.csrw c f, 0x3D, fld f 12 4 != 0 || fld f 21 5 != 0), (.halt c f w, 0x3F, fld f 16 10 != 0)]

/-- On a core whose sequencer takes it, a word with a nonzero reserved field, a reserved function, selector, shape or order, or a bad FENCE mask,
stops the core: CSR_FAULT holds code 0x01, the pc and the instruction word, the state is FAULTED, nothing else of the core changed, and one
REPORT packet with CSR_FAULT leaves. -/
def Obligations.IllegalWordsStop : Prop :=
  ∀ (s : State) (c : CoreId) (f : BitVec 26) (w : Nat), ∀ p ∈ illegalTable c f w, Ready s c p.2.1 f → p.2.2 = true →
    ∃ t, exec p.1 s = .next t ∧ StopsWith s t c 0x01 (p.2.1 * 2 ^ 26 + f.toNat)

/-- R39: the branches on the operands a and b: instruction, major opcode, whether the branch is taken. -/
def branchTable (c : CoreId) (f : BitVec 26) (a b : BitVec 64) : List (Instr × Nat × Bool) :=
  [(.beq c f, 0x08, a == b), (.bne c f, 0x09, a != b), (.blt c f, 0x0A, a.slt b), (.bge c f, 0x0B, !(a.slt b)),
   (.bltu c f, 0x0C, a.ult b), (.bgeu c f, 0x0D, !(a.ult b))]

/-- On a core whose sequencer takes it, a branch whose test of rs1 and rs2 fails retires to the next index; one whose test holds retires to
pc + offset when that lies in 0 to 4,095, and otherwise stops the core with PC_FAULT and the target.  A retired branch changes nothing but the
pc, the count of instructions, the wait and the ck. -/
def Obligations.BranchesGo : Prop :=
  ∀ (s : State) (c : CoreId) (f : BitVec 26),
    ∀ p ∈ branchTable c f ((s.dev.core c).gr (fld f 21 5)) ((s.dev.core c).gr (fld f 16 5)), Ready s c p.2.1 f →
      let k := s.dev.core c
      let target : Int := k.pc + (f.setWidth 16).toInt
      (p.2.2 = false → k.pc < 4095 → ∃ t, exec p.1 s = .next t ∧ OnlyCore s t c ∧ Retired k (t.dev.core c) (k.pc + 1)
        ∧ (t.dev.core c).still = k.still)
      ∧ (p.2.2 = true → ∀ n : Nat, target = n → n < 4096 → ∃ t, exec p.1 s = .next t ∧ OnlyCore s t c ∧ Retired k (t.dev.core c) n
        ∧ (t.dev.core c).still = k.still)
      ∧ (p.2.2 = true → target < 0 ∨ 4096 ≤ target → ∃ t, exec p.1 s = .next t ∧ StopsWith s t c 0x08 (target % 2 ^ 32).toNat)

/-- R39: the jumps: instruction, major opcode and target. -/
def jumpTable (c : CoreId) (f : BitVec 26) (k : Core) : List (Instr × Nat × Int) :=
  [(.jal c f, 0x0E, k.pc + (f.setWidth 21).toInt),
   (.jalr c f, 0x0F, ((k.gr (fld f 16 5) + (f.setWidth 16).signExtend 64).toNat : Int))]

/-- On a core whose sequencer takes it, a jump whose target lies in 0 to 4,095 writes pc + 1 to rd (nothing where rd is g0) and goes to the
target; any other target stops the core with PC_FAULT and nothing is written. -/
def Obligations.JumpsLink : Prop :=
  ∀ (s : State) (c : CoreId) (f : BitVec 26), ∀ p ∈ jumpTable c f (s.dev.core c), Ready s c p.2.1 f →
    (∀ n : Nat, p.2.2 = n → n < 4096 → ∃ t, exec p.1 s = .next t ∧ OnlyCore s t c
      ∧ WritesGr (s.dev.core c) (t.dev.core c) (fld f 21 5) (BitVec.ofNat 64 ((s.dev.core c).pc + 1)) n)
    ∧ (p.2.2 < 0 ∨ 4096 ≤ p.2.2 → ∃ t, exec p.1 s = .next t ∧ StopsWith s t c 0x08 (p.2.2 % 2 ^ 32).toNat)

/-- R40: the loads into general registers: instruction, major opcode, bytes, and the word that the number read gives. -/
def loadTable (c : CoreId) (f : BitVec 26) (w : Nat) : List (Instr × Nat × Nat × (Nat → BitVec 64)) :=
  [(.lb c f w, 0x10, 1, fun v => (BitVec.ofNat 8 v).signExtend 64), (.lbu c f w, 0x11, 1, BitVec.ofNat 64),
   (.lh c f w, 0x12, 2, fun v => (BitVec.ofNat 16 v).signExtend 64), (.lhu c f w, 0x13, 2, BitVec.ofNat 64),
   (.lw c f w, 0x14, 4, fun v => (BitVec.ofNat 32 v).signExtend 64), (.lwu c f w, 0x15, 4, BitVec.ofNat 64),
   (.ld c f w, 0x16, 8, BitVec.ofNat 64)]

/-- A scalar access of `n` bytes that issues: aligned, in a region, of no held footprint (R22, R23, R46); a store not to IM. -/
def accessOk (k : Core) (a n : Nat) (isStore : Bool) : Prop :=
  a % n = 0 ∧ (∃ r lo size, regionOf a = some (r, lo, size) ∧ (isStore = true → r ≠ 3)) ∧ k.holds [(a, n)] = false

/-- On a core whose sequencer takes it, a load or DLD from an aligned address of a region, of a row that is not poisoned, with no held footprint
and no unretired store in its row, writes the bytes at rs1 + imm (zero in a stock tier outside the mask), extended as its mnemonic says, to rd
or to the descriptor register; the pc is the next index and nothing else of the core or the device is changed but the ck and the account. -/
def Obligations.LoadsRead : Prop :=
  ∀ (s : State) (c : CoreId) (f : BitVec 26) (w : Nat),
    let k := s.dev.core c
    let a := (k.gr (fld f 16 5) + (f.setWidth 16).signExtend 64).toNat
    (∀ p ∈ loadTable c f w, Ready s c p.2.1 f → accessOk k a p.2.2.1 false → k.rowPoisoned a = false → k.storePending a = false → k.pc < 4095 →
      ∃ t, exec p.1 s = .next t ∧ OnlyCore s t c
        ∧ WritesGr k (t.dev.core c) (fld f 21 5) (p.2.2.2 (if k.addrOff a then 0 else Memory.readN k.mem a p.2.2.1)) (k.pc + 1))
    ∧ (Ready s c 0x1C f → fld f 21 1 = 0 → accessOk k a 16 false → k.rowPoisoned a = false → k.storePending a = false → k.pc < 4095 →
      ∃ t, exec (.dld c f w) s = .next t ∧ OnlyCore s t c
        ∧ WritesDr k (t.dev.core c) (fld f 22 4) (BitVec.ofNat 128 (if k.addrOff a then 0 else Memory.readN k.mem a 16)) (k.pc + 1))

/-- R120: a command whose `n` rows lie in a tier outside the mask of core `c`.  Before Naeno acts on the reports, no memory of a core and no
other core has changed, CORE_MEM_STAT.offmask_wr has counted the rows, and the error log has `n` records more. -/
def WritesOffMask (s : State) (i : Instr) (c : CoreId) (n : Nat) : Prop :=
  ∃ d : Dev, exec i s = .next { s with dev := { d.settle with fuse := s.dev.fuse } } ∧ (d.core c).mem = (s.dev.core c).mem
    ∧ (∀ x, x ≠ c → d.core x = s.dev.core x)
    ∧ (d.core c).get CORE_MEM_STAT_offmask_wr = sat 8 ((s.dev.core c).get CORE_MEM_STAT_offmask_wr + n)
    ∧ d.get ERR_STAT_seq = (s.dev.get ERR_STAT_seq + n) % 2 ^ 32

/-- R40: the stores: instruction, major opcode, whether the word is legal, bytes, and the number stored. -/
def storeTable (c : CoreId) (f : BitVec 26) (w : Nat) (k : Core) : List (Instr × Nat × Bool × Nat × Nat) :=
  let v := (k.gr (fld f 21 5)).toNat
  [(.sb c f w, 0x18, true, 1, v % 2 ^ 8), (.sh c f w, 0x19, true, 2, v % 2 ^ 16), (.sw c f w, 0x1A, true, 4, v % 2 ^ 32),
   (.sd c f w, 0x1B, true, 8, v), (.dst c f w, 0x1D, fld f 21 1 == 0, 16, (k.dr (fld f 22 4)).toNat)]

/-- R40: the fields that DSET writes: selector, lowest bit, width. -/
def dsetTable : List (Nat × Nat × Nat) := [(0, 0, 24), (1, 48, 16), (2, 32, 16), (3, 64, 16), (4, 80, 16), (5, 112, 16)]

/-- On a core whose sequencer takes it, a store to an aligned address of a region other than IM with no held footprint retires: its address,
bytes and data wait as the youngest issued store, the pc is the next index, no register and no byte of memory is changed.  On a live device,
STORE_RETIRE of a core whose oldest issued store lies in a tier of the mask or in another region takes that store out of the queue and writes its
bytes, little-endian, at its address; every byte outside them reads as before, and no register, counter or other core is changed; in a tier
outside the mask it changes no memory, counts one write there and reports it.  DSET with a
selector of R40 gives the field of d the low bits of rs1 and leaves every other bit of d as it was; the pc is the next index and nothing else of the
core or the device is changed but the ck and their account. -/
def Obligations.StoresAndDescriptorFields : Prop :=
  (∀ (s : State) (c : CoreId) (f : BitVec 26) (w : Nat),
      let k := s.dev.core c
      let a := (k.gr (fld f 16 5) + (f.setWidth 16).signExtend 64).toNat
      ∀ p ∈ storeTable c f w k, Ready s c p.2.1 f → p.2.2.1 = true → accessOk k a p.2.2.2.1 true → k.pc < 4095 →
        ∃ t, exec p.1 s = .next t ∧ OnlyCore s t c ∧ Retired k (t.dev.core c) (k.pc + 1)
          ∧ (t.dev.core c).stores = k.stores ++ [⟨a, p.2.2.2.1, p.2.2.2.2⟩]
          ∧ { (t.dev.core c).still with stores := k.stores } = k.still)
  ∧ (∀ (s : State) (c : CoreId) (st : PendStore) (rest : List PendStore), Live s → s.dev.logical c = true →
      (s.dev.core c).stores = st :: rest → (s.dev.core c).addrOff st.addr = false → st.n < 64 →
        ∃ t, exec (.storeRetire c) s = .next t ∧ OnlyCore s t c ∧ (t.dev.core c).stores = rest
          ∧ (∀ i < st.n, (t.dev.core c).mem.read (st.addr + i) = BitVec.ofNat 8 (st.val / 256 ^ i))
          ∧ (∀ a, a < st.addr ∨ st.addr + st.n ≤ a → (t.dev.core c).mem.read a = (s.dev.core c).mem.read a)
          ∧ { t.dev.core c with stores := (s.dev.core c).stores, mem := (s.dev.core c).mem, acct := (s.dev.core c).acct } = s.dev.core c)
  ∧ (∀ (s : State) (c : CoreId) (st : PendStore) (rest : List PendStore), Live s → s.dev.logical c = true →
      (s.dev.core c).stores = st :: rest → (s.dev.core c).addrOff st.addr = true → WritesOffMask s (.storeRetire c) c 1)
  ∧ (∀ (s : State) (c : CoreId) (f : BitVec 26), Ready s c 0x1E f → fld f 21 1 = 0 → (s.dev.core c).pc < 4095 →
      ∀ p ∈ dsetTable, fld f 0 16 = p.1 →
        let k := s.dev.core c
        ∃ t v, exec (.dset c f) s = .next t ∧ OnlyCore s t c ∧ WritesDr k (t.dev.core c) (fld f 22 4) v (k.pc + 1)
          ∧ (∀ i < p.2.2, v.getLsbD (p.2.1 + i) = (k.gr (fld f 16 5)).getLsbD i)
          ∧ ∀ i < 128, i < p.2.1 ∨ p.2.1 + p.2.2 ≤ i → v.getLsbD i = (k.dr (fld f 22 4)).getLsbD i)

/-- On a core whose sequencer takes it, CSETC gives its counter bits [31:0] of the register, clears the counter's poison and changes no other
counter; CRD writes the counter, zero-extended, to the register and changes no counter.  WAITC (target imm20) and WAITCR (target bits [31:0] of the
register) on a counter that is not poisoned retire to the next index when the counter satisfies the target, and leave the core waiting with nothing
else changed when it does not; COUNTER_WAIT_RETIRE retires a core that waits once its counter satisfies the target.  A retired wait changes nothing
of the core but the pc, the count of instructions, the ck with their account and, when it closes a window, the latched account in the core's
registers; outside the core it logs ACCT_MISS where it would recover more ck than the lag, and changes nothing else. -/
def Obligations.CountersMoveAndWait : Prop :=
  (∀ (s : State) (c : CoreId) (f : BitVec 26), fld f 0 15 = 0 → (s.dev.core c).pc < 4095 →
      let k := s.dev.core c
      (Ready s c 0x36 f → ∃ t, exec (.csetc c f) s = .next t ∧ OnlyCore s t c ∧ Retired k (t.dev.core c) (k.pc + 1)
        ∧ (∀ n, (t.dev.core c).cr n = if n = fld f 20 6 then (k.gr (fld f 15 5)).setWidth 32 else k.cr n)
        ∧ (∀ n, Tab.get (fun _ => none) (t.dev.core c).cPoison n = if n = fld f 20 6 then none else Tab.get (fun _ => none) k.cPoison n)
        ∧ { (t.dev.core c).still with c := k.c, cPoison := k.cPoison } = k.still)
      ∧ (Ready s c 0x37 f → ∃ t, exec (.crd c f) s = .next t ∧ OnlyCore s t c
        ∧ WritesGr k (t.dev.core c) (fld f 15 5) ((k.cr (fld f 20 6)).setWidth 64) (k.pc + 1)))
  ∧ (∀ (s : State) (c : CoreId) (f : BitVec 26) (w : Nat),
      let k := s.dev.core c
      let n := fld f 20 6
      let met := fun (t : BitVec 32) => (k.cr n - t).toNat < 2 ^ 31
      Tab.get (fun _ => (none : CtrPoison)) k.cPoison n = none → k.pc < 4095 →
        (∀ p ∈ [(Instr.waitc c f, 0x34, BitVec.ofNat 32 (fld f 0 20)), (Instr.waitcr c f, 0x35, (k.gr (fld f 15 5)).setWidth 32)],
          Ready s c p.2.1 f → (p.2.1 = 0x35 → fld f 0 15 = 0) →
            (met p.2.2 → ∃ t, exec p.1 s = .next t ∧ WaitRetires s t c ∧ Retired k (t.dev.core c) (k.pc + 1)
              ∧ { (t.dev.core c).still with win := k.win, stepIdle := k.stepIdle } = k.still)
            ∧ (¬met p.2.2 → ∃ t x, exec p.1 s = .next t ∧ OnlyCore s t c ∧ (t.dev.core c).wait = some x ∧ x.word = wordOf p.2.1 f
              ∧ x.kind = .counter (BitVec.ofNat 6 n) p.2.2 ∧ (t.dev.core c).pc = k.pc ∧ (t.dev.core c).still = k.still))
        ∧ ∀ word target waited, Live s → s.dev.logical c = true → k.run = .run →
          k.wait = some ⟨word, .counter (BitVec.ofNat 6 n) target, waited⟩ → met target →
            ∃ t, exec (.counterWaitRetire c w) s = .next t ∧ WaitRetires s t c ∧ Retired k (t.dev.core c) (k.pc + 1)
              ∧ { (t.dev.core c).still with win := k.win, stepIdle := k.stepIdle } = k.still)

/-- R34: the CSRs of a core and what they read as. -/
def csrTable (d : Dev) (c : CoreId) (k : Core) : List (Nat × BitVec 64) :=
  let x := c.x.toNat
  let y := c.y.toNat
  [(0x000, BitVec.ofNat 64 (x + y * 2 ^ 8 + (y / 4 * 24 + x / 4) * 2 ^ 16 + d.hallOf x y * 2 ^ 26 + d.devnum.toNat * 2 ^ 32)),
   (0x001, BitVec.ofNat 64 (k.run.code + k.tmm.length * 2 ^ 2 + k.mov.length * 2 ^ 5 + k.exit.toNat * 2 ^ 16)),
   (0x002, BitVec.ofNat 64 (k.fault.code.toNat + k.fault.pc.toNat * 2 ^ 8 + k.fault.info.toNat * 2 ^ 32)),
   (0x003, k.rank.setWidth 64), (0x004, k.fflags.setWidth 64), (0x005, k.frm.setWidth 64), (0x006, k.lfsr.setWidth 64), (0x007, k.cycle),
   (0x008, k.instret), (0x009, k.step.setWidth 64), (0x00A, BitVec.ofNat 64 (k.job.toNat + k.jgen.toNat * 2 ^ 16))]
    ++ (List.range 7).map (fun i => (0x011 + i, (Tab.get (fun _ => (0 : BitVec 16)) k.dyn (i + 1)).setWidth 64))

/-- On a core whose sequencer takes it, CSRR of a number of R34 writes that register's value to rd; CSRW of CSR_FFLAGS clears the flags whose bit
in rs1 is 1, and CSRW of CSR_FRM with a value below 5 sets it; CSRR of a number not listed, CSRW of any other number and a CSR_FRM value of 5
to 7 stop the core with CSR_ACCESS and the number. -/
def Obligations.CsrsReadAndWrite : Prop :=
  ∀ (s : State) (c : CoreId) (f : BitVec 26), (s.dev.core c).pc < 4095 →
    let k := s.dev.core c
    let n := fld f 0 12
    let v := k.gr (fld f 16 5)
    (Ready s c 0x3C f → fld f 12 9 = 0 →
      (∀ p ∈ csrTable s.dev c k, n = p.1 →
        ∃ t, exec (.csrr c f) s = .next t ∧ OnlyCore s t c ∧ WritesGr k (t.dev.core c) (fld f 21 5) p.2 (k.pc + 1))
      ∧ (0x017 < n ∨ (0x00A < n ∧ n < 0x011) → ∃ t, exec (.csrr c f) s = .next t ∧ StopsWith s t c 0x09 n))
    ∧ (Ready s c 0x3D f → fld f 12 4 = 0 → fld f 21 5 = 0 →
      (n = 0x004 → ∃ t, exec (.csrw c f) s = .next t ∧ OnlyCore s t c ∧ Retired k (t.dev.core c) (k.pc + 1)
        ∧ (t.dev.core c).still = { k with fflags := k.fflags &&& ~~~(v.setWidth 5) }.still)
      ∧ (n = 0x005 → (v.setWidth 3).toNat < 5 → ∃ t, exec (.csrw c f) s = .next t ∧ OnlyCore s t c ∧ Retired k (t.dev.core c) (k.pc + 1)
        ∧ (t.dev.core c).still = { k with frm := v.setWidth 3 }.still)
      ∧ (n ≠ 0x004 ∧ (n = 0x005 → 5 ≤ (v.setWidth 3).toNat) → ∃ t, exec (.csrw c f) s = .next t ∧ StopsWith s t c 0x09 n))

/-- Rank a is greater than rank b exactly when the slot of a lies 1 to 63 slots ahead of that of b, mod 256, or the slots are equal and the stage
of a is higher.  On a core whose sequencer takes it, SLOTNEXT with a zero field part sets CSR_RANK to the next slot, mod 256, with stage 0;
RANKUP sets it to imm16 when that equals it or is greater in rank order, and otherwise stops the core with RANK_FAULT and both ranks.  A retired
one changes nothing else of the core. -/
def Obligations.RanksAdvance : Prop :=
  (∀ a b : BitVec 16, rankGt a.toNat b.toNat = true ↔
    (1 ≤ ((a >>> 8) - (b >>> 8)).toNat % 256 ∧ ((a >>> 8) - (b >>> 8)).toNat % 256 ≤ 63)
      ∨ (a >>> 8 = b >>> 8 ∧ b.toNat % 256 < a.toNat % 256))
  ∧ ∀ (s : State) (c : CoreId) (f : BitVec 26), (s.dev.core c).pc < 4095 →
    let k := s.dev.core c
    let r : BitVec 16 := f.setWidth 16
    let up := r = k.rank ∨ rankGt r.toNat k.rank.toNat = true
    (Ready s c 0x3B f → f = 0 → ∃ t, exec (.slotnext c f) s = .next t ∧ OnlyCore s t c ∧ Retired k (t.dev.core c) (k.pc + 1)
      ∧ (t.dev.core c).still = { k with rank := BitVec.ofNat 16 ((k.rank.toNat / 256 + 1) % 256 * 256) }.still)
    ∧ (Ready s c 0x3A f → fld f 16 10 = 0 → up → ∃ t, exec (.rankup c f) s = .next t ∧ OnlyCore s t c ∧ Retired k (t.dev.core c) (k.pc + 1)
      ∧ (t.dev.core c).still = { k with rank := r }.still)
    ∧ (Ready s c 0x3A f → fld f 16 10 = 0 → ¬up →
      ∃ t, exec (.rankup c f) s = .next t ∧ StopsWith s t c 0x06 (k.rank.toNat + r.toNat * 2 ^ 16))


/-- R131 to R135, R155: the rows that a SEND of descriptor `ds` hands to the network interface. -/
def sendRows (k : Core) (c : CoreId) (n : Nat) (ds : Desc) : List InjRow :=
  let addrs := ds.rowAddrs (k.actualRows ds)
  let p := k.tensorPoisoned ds (k.actualRows ds)
  let tag := BitVec.ofNat 8 (k.get (CORE_EP_tag n))
  ⟨n, ⟨k.header c n ds, true, addrs.isEmpty, p, tag⟩⟩
    :: (List.range addrs.length).map (fun i =>
      ⟨n, ⟨BitVec.ofNat 512 (k.load (addrs.getD i 0) 64), false, i + 1 == addrs.length, p, tag⟩⟩)

/-- On a core whose sequencer takes it, a SEND that passes the checks of R471: with no peer gone and a credit, with room for its rows and with no
unretired store in them, hands over the header and the rows of the tensor, takes one credit, counts one message, advances the endpoint's slot
and writes 0 to rd, or 9 when a receiver is gone; with the peer gone it hands over nothing, advances the slot and writes 9; without a credit it
waits and changes nothing.  Nothing else of the core or the device is changed but the ck and their account, and one ACCT_MISS record where the
wait that retires would recover more ck than the lag. -/
def Obligations.SendHandsOver : Prop :=
  ∀ (s : State) (c : CoreId) (f : BitVec 26) (w : Nat),
    let k := s.dev.core c
    let n := fld f 21 5
    let ds := k.desc (fld f 17 4)
    let gone := k.get (CORE_EP_gone n)
    let slot := (k.get (CORE_EP_slot n) + k.get (CORE_EP_sstep n)) % 256
    Ready s c 0x30 f → fld f 0 12 = 0 → k.send = none → k.sendFault n (fld f 17 4) = none → k.pc < 4095 →
      (gone ≠ 1 → k.get (CORE_EP_credits n) ≠ 0 → k.inj.length + (sendRows k c n ds).length ≤ 64 →
        (∀ a ∈ ds.rowAddrs (k.actualRows ds), k.storePending a = false) →
        ∃ t, exec (.send c f w) s = .next t ∧ WaitRetires s t c ∧ Retired k (t.dev.core c) (k.pc + 1)
          ∧ (∀ r, (t.dev.core c).gr r = if r = fld f 12 5 ∧ fld f 12 5 ≠ 0 then
              (if k.get (CORE_EP_rx_gone n) = 0 ∧ gone = 0 then 0 else 9) else k.gr r)
          ∧ (t.dev.core c).inj = k.inj ++ sendRows k c n ds
          ∧ { (t.dev.core c).stillGr with inj := k.inj } =
              (((k.setEpRun n { k.epRun n with sent := (k.epRun n).sent + 1 }).put (CORE_EP_credits n) (k.get (CORE_EP_credits n) - 1)).put
                (CORE_EP_slot n) slot).stillGr)
      ∧ (gone = 1 → ∃ t, exec (.send c f w) s = .next t ∧ WaitRetires s t c ∧ Retired k (t.dev.core c) (k.pc + 1)
          ∧ (∀ r, (t.dev.core c).gr r = if r = fld f 12 5 ∧ fld f 12 5 ≠ 0 then 9 else k.gr r)
          ∧ (t.dev.core c).stillGr = (k.put (CORE_EP_slot n) slot).stillGr)
      ∧ (gone ≠ 1 → k.get (CORE_EP_credits n) = 0 → ∃ t, exec (.send c f w) s = .next t ∧ OnlyCore s t c
          ∧ (t.dev.core c).pc = k.pc ∧ (t.dev.core c).instret = k.instret ∧ (t.dev.core c).wait.isSome = true
          ∧ (t.dev.core c).still = k.still)

/-- On a core whose sequencer takes it and for a configured receive endpoint: RECV with a complete message writes the descriptor that the header
row gives and the element count, and sets CSR_RANK to the endpoint's rank; with none it waits.  RREL after RECV, with no footprint on the entry,
frees the head entry, advances the slot, and sends one CREDIT to the peer unless the endpoint is a tally queue's.  POLL writes the number of
complete messages.  Nothing else of the core or the device is changed but the ck and their account, and one ACCT_MISS record where RECV's wait
would recover more ck than the lag. -/
def Obligations.ReceiveReturns : Prop :=
  ∀ (s : State) (c : CoreId) (f : BitVec 26) (w : Nat),
    let k := s.dev.core c
    let n := fld f 21 5
    let e := k.epRun n
    k.isRecv n = true → k.pc < 4095 →
      (Ready s c 0x31 f → fld f 0 12 = 0 → k.get (CORE_EP_held n) ≠ 0 →
        ∃ t, exec (.recv c f w) s = .next t ∧ WaitRetires s t c ∧ Retired k (t.dev.core c) (k.pc + 1)
          ∧ (∀ r, (t.dev.core c).gr r = if r = fld f 12 5 ∧ fld f 12 5 ≠ 0 then
              BitVec.ofNat 64 (Memory.readN k.mem (k.entryBase n e.head + 16) 4) else k.gr r)
          ∧ (∀ r, (t.dev.core c).dr r = if r = fld f 17 4 then k.recvDesc (k.entryBase n e.head) else k.dr r)
          ∧ (t.dev.core c).stillGrDr
              = { k.setEpRun n { e with headGiven := true } with
                  rank := BitVec.ofNat 16 (k.get (CORE_EP_slot n) * 256 + k.get (CORE_EP_stage n)) }.stillGrDr)
      ∧ (Ready s c 0x31 f → fld f 0 12 = 0 → k.get (CORE_EP_held n) = 0 →
        ∃ t, exec (.recv c f w) s = .next t ∧ OnlyCore s t c ∧ (t.dev.core c).pc = k.pc ∧ (t.dev.core c).instret = k.instret
          ∧ (t.dev.core c).wait.isSome = true ∧ (t.dev.core c).still = k.still)
      ∧ (Ready s c 0x32 f → fld f 0 21 = 0 → e.headGiven = true →
        k.holds [(k.entryBase n e.head, k.get (CORE_EP_entry_rows n) * 64)] = false →
        ∃ t, exec (.rrel c f w) s = .next t
          ∧ OnlyCorePackets s t c (if k.get (CORE_EP_tally n) = 1 then [] else [k.creditPacket c n])
          ∧ Retired k (t.dev.core c) (k.pc + 1)
          ∧ (t.dev.core c).still
              = (((k.setEpRun n { e with headGiven := false, head := (e.head + 1) % (k.get (CORE_EP_qdepth n) + 1) }).put (CORE_EP_held n)
                  (k.get (CORE_EP_held n) - 1)).put (CORE_EP_slot n) ((k.get (CORE_EP_slot n) + k.get (CORE_EP_sstep n)) % 256)).still)
      ∧ (Ready s c 0x33 f → fld f 0 12 = 0 → fld f 17 4 = 0 →
        ∃ t, exec (.poll c f) s = .next t ∧ OnlyCore s t c
          ∧ WritesGr k (t.dev.core c) (fld f 12 5) (BitVec.ofNat 64 (k.get (CORE_EP_held n))) (k.pc + 1))

/-- On a core whose sequencer takes it and whose injection queue has a place: PREQ to a Porter that exists, with a 32-byte-aligned descriptor in
AM, queues a DESC packet with the 32 bytes for the service port of its stack; ERRINC to a core of the job queues an ERRINC packet with the
counter and imm15, and ERRINC to 0xFEFE by the epoch owner queues the vote.  ERRAND_INJECT puts the head of the queue onto the errand network.
FENCE retires once the classes its mask names are empty, and waits before.  Nothing else of the core or the device is changed but the ck and
their account, and one ACCT_MISS record where the wait of PREQ, ERRINC or FENCE bit 3 would recover more ck than the lag. -/
def Obligations.ErrandRequestsQueue : Prop :=
  ∀ (s : State) (c : CoreId) (f : BitVec 26) (w : Nat),
    let k := s.dev.core c
    let t0 := (k.gr (fld f 21 5)).toNat
    let a := (k.gr (fld f 16 5) + (f.setWidth 16).signExtend 64).toNat
    let inl := fld f 15 6 + fld f 0 15 * 2 ^ 6
    let m := fld f 0 16
    let busy := (bit m 0 = true ∧ k.tmm ≠ []) ∨ (bit m 1 = true ∧ k.mov ≠ []) ∨ (bit m 2 = true ∧ k.stores ≠ [])
      ∨ (bit m 3 = true ∧ k.errand ≠ [])
    (k.pc < 4095 → k.errand.length < 8 → Ready s c 0x38 f → t0 < 64 → t0 / 8 < 6 → a % 32 = 0 → 0x40000 ≤ a → a < 0x60000 →
      ∃ t p, exec (.preq c f w) s = .next t ∧ WaitRetires s t c ∧ Retired k (t.dev.core c) (k.pc + 1)
        ∧ (t.dev.core c).errand = k.errand ++ [p] ∧ { (t.dev.core c).still with errand := k.errand } = k.still
        ∧ p.type = 0x04 ∧ p.dstX.toNat = 24 * (t0 % 4) + 12 ∧ (s.dev.rows ≤ 256 → p.dstY.toNat = if t0 % 8 < 4 then 0 else s.dev.rows - 1)
        ∧ p.dstUnit = 2 ∧ p.dstSub.toNat = t0 / 8 ∧ p.srcX = c.x ∧ p.srcY = c.y ∧ p.job = k.job ∧ p.jgen = k.jgen
        ∧ p.payload = [BitVec.ofNat 128 (Memory.readN k.mem a 32), BitVec.ofNat 128 (Memory.readN k.mem a 32 / 2 ^ 128)])
    ∧ (k.pc < 4095 → k.errand.length < 8 → Ready s c 0x3E f → t0 % 2 ^ 16 ≠ 0xFEFE →
      s.dev.inJob k ⟨BitVec.ofNat 8 t0, BitVec.ofNat 8 (t0 / 2 ^ 8)⟩ = true →
      ∃ t, exec (.errinc c f w) s = .next t ∧ WaitRetires s t c ∧ Retired k (t.dev.core c) (k.pc + 1)
        ∧ (t.dev.core c).errand = k.errand ++ [k.packet c 0x03 (t0 % 2 ^ 8) (t0 / 2 ^ 8 % 2 ^ 8) 0 0 0 inl []]
        ∧ { (t.dev.core c).still with errand := k.errand } = k.still)
    ∧ (k.pc < 4095 → k.errand.length < 8 → Ready s c 0x3E f → t0 % 2 ^ 16 = 0xFEFE → s.dev.ownsEpoch k.job k.jgen = true →
      ∃ t, exec (.errinc c f w) s = .next t ∧ WaitRetires s t c ∧ Retired k (t.dev.core c) (k.pc + 1)
        ∧ (t.dev.core c).errand = k.errand ++ [k.packet c 0x03 0 0 2 1 0 inl []]
        ∧ { (t.dev.core c).still with errand := k.errand } = k.still)
    ∧ (Live s → s.dev.logical c = true → ∀ p rest, k.errand = p :: rest →
      ∃ t, exec (.errandInject c) s = .next t ∧ OnlyCorePackets s t c [p] ∧ t.dev.core c = { k with errand := rest })
    ∧ (Ready s c 0x39 f → fld f 16 10 = 0 → 0 < m → m < 16 → k.pc < 4095 → ¬busy →
      ∃ t, exec (.fence c f w) s = .next t ∧ (if bit m 3 then WaitRetires s t c else OnlyCore s t c) ∧ Retired k (t.dev.core c) (k.pc + 1) ∧ (t.dev.core c).still = k.still)
    ∧ (Ready s c 0x39 f → fld f 16 10 = 0 → 0 < m → m < 16 → busy →
      ∃ t, exec (.fence c f w) s = .next t ∧ OnlyCore s t c ∧ (t.dev.core c).pc = k.pc ∧ (t.dev.core c).instret = k.instret
        ∧ (t.dev.core c).wait.isSome = true ∧ (t.dev.core c).still = k.still)

/-- On a core whose sequencer takes it, HALT with no tensor work and no store outstanding puts the core into HALTED with its exit code, counts the
instruction, leaves the pc, closes every configured receive endpoint and discards what it holds, and the last packet that leaves is a REPORT
with the exit code; no register and no byte of memory of the core and no other core is changed, and of the device's registers only WARD_STEP_GATE.  With work
outstanding it waits. -/
def Obligations.HaltEndsTheProgram : Prop :=
  ∀ (s : State) (c : CoreId) (f : BitVec 26) (w : Nat),
    let k := s.dev.core c
    Ready s c 0x3F f → fld f 16 10 = 0 →
      (k.tmm = [] → k.mov = [] → k.stores = [] →
        ∃ t ps p, exec (.halt c f w) s = .next t ∧ t.pending = s.pending
          ∧ (t.dev.core c).run = .halted ∧ (t.dev.core c).exit.toNat = fld f 0 16 ∧ (t.dev.core c).instret = k.instret + 1
          ∧ (t.dev.core c).pc = k.pc ∧ (t.dev.core c).wait = none ∧ (t.dev.core c).g = k.g ∧ (t.dev.core c).d = k.d
          ∧ (t.dev.core c).c = k.c ∧ (t.dev.core c).rank = k.rank ∧ (t.dev.core c).mem = k.mem
          ∧ (∀ n < 32, k.isRecv n = true → (t.dev.core c).get (CORE_EP_closed n) = 1 ∧ (t.dev.core c).get (CORE_EP_held n) = 0)
          ∧ t.dev.flight = s.dev.flight ++ ps ++ [p] ∧ ps = k.closeReceipts c 4
          ∧ p.type = 0x07 ∧ p.dstUnit = 1 ∧ p.srcX = c.x ∧ p.srcY = c.y ∧ p.payload = [BitVec.ofNat 128 (1 + fld f 0 16 * 2 ^ 16)]
          ∧ (∀ x, x ≠ c → t.dev.core x = s.dev.core x)
          ∧ (∀ x, x ≠ WARD_STEP_GATE_running.key → t.dev.reg x = s.dev.reg x)
          ∧ { t.dev with cores := s.dev.cores, flight := s.dev.flight, regs := s.dev.regs } = s.dev)
      ∧ (k.tmm ≠ [] ∨ k.mov ≠ [] ∨ k.stores ≠ [] →
        ∃ t, exec (.halt c f w) s = .next t ∧ OnlyCore s t c ∧ (t.dev.core c).pc = k.pc ∧ (t.dev.core c).instret = k.instret
          ∧ (t.dev.core c).wait.isSome = true ∧ (t.dev.core c).still = k.still)

/-- A SLOTNEXT, or a CRD with a zero reserved field, taken at index 4,095 has its effect and counts, and the core then stops with PC_FAULT: pc
4,095 and info 4,096. -/
def Obligations.NoFetchPast4095 : Prop :=
  ∀ (s : State) (c : CoreId) (f : BitVec 26), (s.dev.core c).pc = 4095 →
    let k := s.dev.core c
    let stopped := fun (k' : Core) => k'.run = .faulted ∧ k'.fault = ⟨0x08, 4095, 4096⟩ ∧ k'.instret = k.instret + 1
    (Ready s c 0x3B f → f = 0 → ∃ t p, exec (.slotnext c f) s = .next t ∧ OnlyCoreAndPacket s t c p ∧ p.type = 0x07 ∧ stopped (t.dev.core c)
      ∧ (t.dev.core c).rank = BitVec.ofNat 16 ((k.rank.toNat / 256 + 1) % 256 * 256))
    ∧ (Ready s c 0x37 f → fld f 0 15 = 0 → ∃ t p, exec (.crd c f) s = .next t ∧ OnlyCoreAndPacket s t c p ∧ p.type = 0x07
      ∧ stopped (t.dev.core c)
      ∧ ∀ r, (t.dev.core c).gr r = if r = fld f 15 5 ∧ fld f 15 5 ≠ 0 then (k.cr (fld f 20 6)).setWidth 64 else k.gr r)

/-- R42: the tensor instructions: instruction, major opcode, unit, whether the word is legal, and the fault its descriptors raise. -/
def tensorTable (c : CoreId) (f : BitVec 26) (w : Nat) (k : Core) : List (Instr × Nat × TensorKind × Bool × Option CoreFault) :=
  [(.tmm c f w, 0x20, .tmm, fld f 0 1 == 0 && decide (fld f 5 3 < 5) && fld f 3 2 != 3,
      k.tmmFault (fld f 22 4) (fld f 18 4) (fld f 14 4) (fld f 5 3) (fld f 3 2) (fld f 1 1 == 1)),
   (.tcvt c f w, 0x21, .tcvt, fld f 0 8 == 0 && fld f 14 4 == 0, k.tcvtFault (fld f 22 4) (fld f 18 4)),
   (.tscat c f w, 0x22, .tscat, fld f 0 8 == 0, k.tscatFault (fld f 22 4) (fld f 18 4) (fld f 14 4))]

/-- On a core whose sequencer takes it, a legal tensor instruction whose descriptors raise a fault stops the core with it; one whose unit holds
fewer than four operations and whose footprints do not conflict with the other unit's retires in its issue: the operation, with its counter, its
descriptors and the actual row counts as they stand, is the youngest of the matrix engine (TMM) or of the mover (TCVT, TSCAT).  No register, no
counter and no byte of memory is changed, and of the rest of the device only the arcade's account of TMMs. -/
def Obligations.TensorIssues : Prop :=
  ∀ (s : State) (c : CoreId) (f : BitVec 26) (w : Nat),
    let k := s.dev.core c
    ∀ p ∈ tensorTable c f w k, Ready s c p.2.1 f → p.2.2.2.1 = true → k.pc < 4095 →
      (∀ e, p.2.2.2.2 = some e → ∃ t, exec p.1 s = .next t ∧ StopsWith s t c e.1.code e.2)
      ∧ (p.2.2.2.2 = none → (if p.2.2.1 = .tmm then k.tmm else k.mov).length < 4 →
        unitConflict (k.tensorOp p.2.2.1 f) (if p.2.2.1 = .tmm then k.mov else k.tmm) = false →
        ∃ t o, exec p.1 s = .next t ∧ t.pending = s.pending ∧ (∀ x, x ≠ c → t.dev.core x = s.dev.core x)
          ∧ { t.dev with cores := s.dev.cores, arcades := s.dev.arcades } = s.dev
          ∧ (∀ n, n ≠ arcadeNo c → t.dev.arcade n = s.dev.arcade n)
          ∧ { o with booked := 0 } = k.tensorOp p.2.2.1 f
          ∧ Retired k (t.dev.core c) (k.pc + 1)
          ∧ (t.dev.core c).tmm = (if p.2.2.1 = .tmm then k.tmm ++ [o] else k.tmm)
          ∧ (t.dev.core c).mov = (if p.2.2.1 = .tmm then k.mov else k.mov ++ [o])
          ∧ { (t.dev.core c).still with tmm := k.tmm, mov := k.mov, tmmFree := k.tmmFree, movFree := k.movFree, lfsr := k.lfsr } = k.still)

/-- What the completion of a tensor operation of a core leaves alone: memory with its poison, the units, the counters and the account. -/
def unitStill (k : Core) : Core :=
  { k with mem := [], poison := [], tmm := [], mov := [], scat := Scatter.idle, c := [], cSrc := [], lastUnit := (0, 0), acct := Acct.zero, fflags := 0 }

/-- On a live device: TMM_COMPLETE of the head of the matrix engine (not on the check engine, no spot check) and TCVT_COMPLETE of a TCVT at the
head of the mover whose dD starts in no tier outside the mask write their rows and take the operation off its unit; TSCAT_COMPLETE takes off a TSCAT whose row adds have all ended and writes
no memory.  The operation's counter gains 1 and no other counter changes; every byte of memory outside the footprint of dD reads as before;
nothing else of the core or the device changes but the account.  A TCVT whose dD lies in a tier outside the mask changes no memory, and each row
it writes is counted and reported. -/
def Obligations.TensorCompletes : Prop :=
  ∀ (s : State) (c : CoreId) (o : TensorOp) (rest : List TensorOp),
    let k := s.dev.core c
    let dD := Desc.ofBits o.dD
    (Live s → s.dev.logical c = true →
      ∀ p ∈ [(Instr.tmmComplete c, k.tmm, o.done == false && o.onCheck == false && o.spot == none, (k.tmmWrite o o.written.1).mem),
             (.tcvtComplete c, k.mov, o.kind == .tcvt && decide (o.rowsD ≤ dD.rows) && !(k.addrOff dD.base), (k.tcvtWrite o o.rowsD).mem),
             (.tscatComplete c, k.mov, o.kind == .tscat && (o.rowsA == 0 || (k.scat.active && k.scat.drained)), k.mem)],
        p.2.1 = o :: rest → p.2.2.1 = true →
          ∃ t, exec p.1 s = .next t ∧ OnlyCore s t c ∧ (t.dev.core c).mem = p.2.2.2
            ∧ (t.dev.core c).tmm = (if p.1 = .tmmComplete c then rest else k.tmm)
            ∧ (t.dev.core c).mov = (if p.1 = .tmmComplete c then k.mov else rest)
            ∧ (∀ n, (t.dev.core c).cr n = if n = o.ctr.toNat then k.cr n + 1 else k.cr n)
            ∧ (∀ a, ¬inSpans dD.spans a → (t.dev.core c).mem.read a = k.mem.read a)
            ∧ unitStill (t.dev.core c) = unitStill k ∧ (t.dev.core c).fflags = k.fflags)
    ∧ (Live s → s.dev.logical c = true → k.mov = o :: rest → o.kind = .tcvt → o.rowsD ≤ dD.rows → k.addrOff dD.base = true →
      (∀ a, inSpans dD.spans a → k.addrOff a = true) → WritesOffMask s (.tcvtComplete c) c (dD.rowAddrs o.rowsD).length)

/-- On a live device SCATTER_ROW_ADD answers a next state that changes no other core.  With no TSCAT at the head of the mover it changes nothing.
While one runs, the path's ck advances, and every byte outside the rows whose adds stand in the last ck of their service reads as before. -/
def Obligations.ScatterAddsRows : Prop :=
  ∀ (s : State) (c : CoreId) (portFree : Bool), Live s → s.dev.logical c = true →
    let k := s.dev.core c
    (k.scat.active = true → ∃ t, exec (.scatterRowAdd c portFree) s = .next t ∧ OnlyCore s t c
      ∧ (t.dev.core c).scat.ck = k.scat.ck + 1 ∧ (t.dev.core c).scat.active = true
      ∧ (∀ a, (∀ b < 16, ∀ x, k.scat.bank b = some x → x.left ≤ 1 → ∀ r, x.add.target = some r →
            a < 0x80000 + r * 64 ∨ 0x80000 + r * 64 + 64 ≤ a) → (t.dev.core c).mem.read a = k.mem.read a)
      ∧ unitStill (t.dev.core c) = unitStill k ∧ (t.dev.core c).c = k.c ∧ (t.dev.core c).tmm = k.tmm ∧ (t.dev.core c).mov = k.mov)
    ∧ (k.scat.active = false → ∀ o rest, k.mov = o :: rest → o.kind = .tscat →
      ∃ t, exec (.scatterRowAdd c portFree) s = .next t ∧ OnlyCore s t c ∧ (t.dev.core c).mem = k.mem
        ∧ (t.dev.core c).scat.active = true ∧ (t.dev.core c).scat.ck = 1 ∧ (t.dev.core c).mov = k.mov
        ∧ (t.dev.core c).get CORE_SCAT_STAT_oob = sat CORE_SCAT_STAT_oob.w (k.get CORE_SCAT_STAT_oob + k.scatSkipped o))
    ∧ (k.scat.active = false → (∀ o rest, k.mov = o :: rest → o.kind ≠ .tscat) →
      ∃ t, exec (.scatterRowAdd c portFree) s = .next t ∧ OnlyCore s t c ∧ t.dev.core c = k)

/-- On a core whose sequencer takes it, VOP with a reserved function or a reserved field stops with ILLEGAL, one whose descriptors raise a fault
stops with it, and one with no held footprint starts: its fields and row counts are taken, the sequencer waits, and no register and no byte of
memory changes.  VOP_COMPLETE writes the result rows of a dD that starts in no tier outside the mask, retires the VOP, and leaves every byte outside the footprint
of dD and everything else of the core but CSR_FFLAGS and the account; a dD in a tier outside the mask takes no row, and each is counted and
reported. -/
def Obligations.VopRunsThenRetires : Prop :=
  ∀ (s : State) (c : CoreId) (f : BitVec 26) (w : Nat),
    let k := s.dev.core c
    let vf := fld f 8 6
    let rD := fld f 22 4
    let rA := fld f 18 4
    let rB := fld f 14 4
    let bin := vopBinary vf
    let legal := vopValid vf && fld f 0 7 == 0 && (bin || (rB == 0 && fld f 7 1 == 0))
    (Ready s c 0x28 f → legal = false → ∃ t, exec (.vop c f w) s = .next t ∧ StopsWith s t c 0x01 (0x28 * 2 ^ 26 + f.toNat))
    ∧ (Ready s c 0x28 f → legal = true → ∀ e, k.vopFault rD rA rB vf (fld f 7 1 == 1) = some e →
      ∃ t, exec (.vop c f w) s = .next t ∧ StopsWith s t c e.1.code e.2)
    ∧ (Ready s c 0x28 f → legal = true → k.vopFault rD rA rB vf (fld f 7 1 == 1) = none →
      k.holds ((k.desc rD).spans ++ (k.desc rA).spans ++ (if bin then (k.desc rB).spans else [])) = false →
      ∃ t o x, exec (.vop c f w) s = .next t ∧ OnlyCore s t c ∧ (t.dev.core c).vop = some o ∧ o.vfunc = vf
        ∧ o.dD = k.dr rD ∧ o.dA = k.dr rA ∧ o.dB = k.dr rB ∧ o.rowsD = k.actualRows (k.desc rD) ∧ o.rowsA = k.actualRows (k.desc rA)
        ∧ o.frm = k.frm ∧ o.lfsr = k.lfsr
        ∧ (t.dev.core c).wait = some x ∧ x.kind = .vop ∧ (t.dev.core c).pc = k.pc ∧ (t.dev.core c).instret = k.instret
        ∧ { (t.dev.core c).still with vop := k.vop, lfsr := k.lfsr } = k.still)
    ∧ (Live s → s.dev.logical c = true → k.pc < 4095 → ∀ o, k.vop = some o → o.rowsD ≤ (Desc.ofBits o.dD).rows →
      0 < (Desc.ofBits o.dD).cols → k.addrOff (Desc.ofBits o.dD).base = false →
      ∃ t, exec (.vopComplete c) s = .next t ∧ OnlyCore s t c ∧ Retired k (t.dev.core c) (k.pc + 1) ∧ (t.dev.core c).vop = none
        ∧ (t.dev.core c).mem = (k.vopWrite o o.rowsD).mem
        ∧ (∀ a, ¬inSpans (Desc.ofBits o.dD).spans a → (t.dev.core c).mem.read a = k.mem.read a)
        ∧ { (t.dev.core c).still with vop := k.vop, mem := k.mem, poison := k.poison, fflags := k.fflags } = k.still)
    ∧ (Live s → s.dev.logical c = true → k.pc < 4095 → ∀ o, k.vop = some o → o.rowsD ≤ (Desc.ofBits o.dD).rows →
      0 < (Desc.ofBits o.dD).cols → k.addrOff (Desc.ofBits o.dD).base = true →
      (∀ a, inSpans (Desc.ofBits o.dD).spans a → k.addrOff a = true) →
      WritesOffMask s (.vopComplete c) c ((Desc.ofBits o.dD).rowAddrs o.rowsD).length)


/-! Rows, tally queues and packets at a core. -/

/-- What a row at a network interface leaves alone of its core: all but memory with its poison marks, the remote queues, the groups, the
endpoints and tally queues with their window registers, the counters and the account. -/
def arrivalStill (k : Core) : Core :=
  { k with mem := [], poison := [], remote := [], groups := [], ep := [], tq := [], win := [], c := [], cSrc := [], cPoison := [], acct := Acct.zero }

/-- Memory holds the 64 bytes of a row at `a` and is otherwise what it was. -/
def rowWritten (m m' : Memory) (a : Nat) (v : RowData) : Prop :=
  (∀ i < 64, m'.read (a + i) = BitVec.ofNat 8 (v.toNat / 256 ^ i)) ∧ ∀ x, x < a ∨ a + 64 ≤ x → m'.read x = m.read x

/-- On a live device, a data row of an open Porter group, or of a message whose entry has room, for a row of no stock tier outside the mask: with
its remote queue empty and the port free it writes its 64 bytes, with the queue shorter than 16 rows it joins the queue and writes nothing, and
in neither case is another byte of memory changed.  REMOTE_QUEUE_RETIRE with a write at the head writes its 64 bytes, with a read at the head and
room in the injection buffer hands the row to its stream, and takes the entry off.  No other core and nothing else of the device changes. -/
def Obligations.RowsReachMemory : Prop :=
  ∀ (s : State) (c : CoreId), Live s → s.dev.logical c = true →
    let k := s.dev.core c
    (∀ (r : Row) (portFree : Bool) (g : Group) (a : Nat), r.tag ≠ 0xFF → r.head = false → k.group r.tag = some g →
      ((g.kind = .porter ∧ a = porterAddr g.header g.seen)
        ∨ ∃ n e, g.kind = .message n e ∧ g.seen < k.get (CORE_EP_entry_rows n) ∧ a = k.entryBase n e + g.seen * 64) →
      k.addrOff a = false → (k.queue (addrPort a)).length < 16 →
      ∃ t, exec (.rowArrival c r portFree) s = .next t ∧ t.pending = s.pending
        ∧ { t.dev with cores := s.dev.cores, delivered := s.dev.delivered } = s.dev ∧ t.dev.delivered = s.dev.delivered.erase (c, r)
        ∧ (∀ x, x ≠ c → t.dev.core x = s.dev.core x) ∧ arrivalStill (t.dev.core c) = arrivalStill k
        ∧ (if k.queue (addrPort a) = [] ∧ portFree = true then
            rowWritten k.mem (t.dev.core c).mem a r.data ∧ (t.dev.core c).remote = k.remote
              ∧ (t.dev.core c).rowPoisoned a = (r.poison || g.poison)
          else (t.dev.core c).mem = k.mem
            ∧ (t.dev.core c).queue (addrPort a) = k.queue (addrPort a) ++ [.write a r.data (r.poison || g.poison) r.tag]))
    ∧ (∀ (m : BitVec 2) (a : Nat) (v : RowData) (p : Bool) (tag : BitVec 8) (rest : List RemoteOp),
      k.queue m.toNat = .write a v p tag :: rest → k.addrOff a = false →
      ∃ t, exec (.remoteQueueRetire c m) s = .next t ∧ OnlyCore s t c ∧ rowWritten k.mem (t.dev.core c).mem a v
        ∧ (t.dev.core c).queue m.toNat = rest ∧ arrivalStill (t.dev.core c) = arrivalStill k)
    ∧ (∀ (m : BitVec 2) (a n : Nat) (l : Bool) (dtag : BitVec 8) (x : Option (BitVec 6 × BitVec 8)) (rest : List RemoteOp),
      k.queue m.toNat = .read a n l dtag x :: rest → k.inj.length < 64 →
      ∃ t, exec (.remoteQueueRetire c m) s = .next t ∧ OnlyCore s t c ∧ (t.dev.core c).mem = k.mem
        ∧ (t.dev.core c).inj = k.inj ++ [⟨n, ⟨BitVec.ofNat 512 (k.load a 64), false, l, k.rowPoisoned a, dtag⟩⟩]
        ∧ (t.dev.core c).queue m.toNat = rest ∧ arrivalStill { t.dev.core c with inj := k.inj } = arrivalStill k)

/-- On a live device, a header row of a channel message with a free tag: for an open receive endpoint of its generation, with the remote queue
empty and the port free, the row is written at the base of the entry being filled, and the endpoint fills the next entry; for a closed endpoint no
memory changes, CORE_CHAN_STAT.absorbed and the step's count go up, and a RECEIPT with the reason goes to the source the header names. -/
def Obligations.MessagesOpenAndClose : Prop :=
  ∀ (s : State) (c : CoreId) (r : Row) (portFree : Bool), Live s → s.dev.logical c = true → r.tag ≠ 0xFF → r.head = true →
    let k := s.dev.core c
    let n := rowBytes r.data 1 1 % 32
    let a := k.entryBase n (k.epRun n).fill
    k.group r.tag = none → rowBytes r.data 0 1 = 0x01 → k.isRecv n = true →
      (k.shut = false → k.get (CORE_EP_closed n) = 0 → k.get (CORE_EP_tally n) = 0 → rowBytes r.data 2 1 = k.get (CORE_EP_gen n) →
        k.addrOff a = false → k.queue (addrPort a) = [] → portFree = true →
        ∃ t, exec (.rowArrival c r portFree) s = .next t ∧ t.pending = s.pending
          ∧ { t.dev with cores := s.dev.cores, delivered := s.dev.delivered } = s.dev
          ∧ (∀ x, x ≠ c → t.dev.core x = s.dev.core x) ∧ rowWritten k.mem (t.dev.core c).mem a r.data
          ∧ ((t.dev.core c).epRun n).fill = ((k.epRun n).fill + 1) % (k.get (CORE_EP_qdepth n) + 1)
          ∧ (t.dev.core c).get (CORE_EP_held n) = (if r.last then (k.get (CORE_EP_held n) + 1) % 2 ^ (CORE_EP_held n).w else k.get (CORE_EP_held n))
          ∧ arrivalStill (t.dev.core c) = arrivalStill k)
      ∧ (k.shut = false → k.get (CORE_EP_closed n) = 1 →
        ∃ t, exec (.rowArrival c r portFree) s = .next t ∧ t.pending = s.pending
          ∧ { t.dev with cores := s.dev.cores, delivered := s.dev.delivered, flight := s.dev.flight, counts := s.dev.counts } = s.dev
          ∧ t.dev.flight = s.dev.flight ++ [k.receipt c (rowBytes r.data 4 1) (rowBytes r.data 5 1) (rowBytes r.data 6 1 % 32)
              (k.get (CORE_EP_rx_index n)) (rowBytes r.data 2 1) 2 false]
          ∧ t.dev.counts = { s.dev.counts with absorbed := s.dev.counts.absorbed + 1 }
          ∧ (t.dev.core c).get CORE_CHAN_STAT_absorbed = sat CORE_CHAN_STAT_absorbed.w (k.get CORE_CHAN_STAT_absorbed + 1)
          ∧ (t.dev.core c).mem = k.mem ∧ (∀ x, x ≠ c → t.dev.core x = s.dev.core x) ∧ arrivalStill (t.dev.core c) = arrivalStill k)

/-- On a live device, for a queue with no release running: TALLY_HEADER_CLASSIFY takes the oldest held header; one of the current slot of an open
queue counts, one of up to 63 slots before is folded where late_fold is set and dropped otherwise, each counted, and no byte of memory changes.
TALLY_DEADLINE closes the queue when its count reaches expect, or after the deadline with a quorum, and not otherwise.  TALLY_ROW_ADD adds one
row of a classified contribution into the accumulators and leaves every byte outside their PM row. -/
def Obligations.TallyClassifiesAndAdds : Prop :=
  ∀ (s : State) (c : CoreId) (q : BitVec 3) (ck : Nat), Live s → s.dev.logical c = true →
    let k := s.dev.core c
    let n := q.toNat
    let x := k.tqRun n
    let count := k.get (CORE_TQ_count n)
    x.releasing = false →
      (∀ h rest, x.held = h :: rest → rowBytes h.header 2 1 = k.get (CORE_TQ_gen n) →
        let gap := (k.get (CORE_TQ_slot n) + 256 - rowBytes h.header 3 1) % 256
        gap ≤ 63 → ∃ t, exec (.tallyHeaderClassify c q ck) s = .next t ∧ t.pending = s.pending
          ∧ { t.dev with cores := s.dev.cores, counts := s.dev.counts } = s.dev ∧ (∀ x, x ≠ c → t.dev.core x = s.dev.core x)
          ∧ (t.dev.core c).mem = k.mem ∧ arrivalStill (t.dev.core c) = arrivalStill k ∧ ((t.dev.core c).tqRun n).held = rest
          ∧ (gap = 0 → k.get (CORE_TQ_closed n) = 0 → (t.dev.core c).get (CORE_TQ_count n) = sat 16 (count + 1) ∧ t.dev.counts = s.dev.counts)
          ∧ (0 < gap ∨ k.get (CORE_TQ_closed n) = 1 → (t.dev.core c).get (CORE_TQ_count n) = count
            ∧ t.dev.counts = if k.get (CORE_TQ_late_fold n) = 1 then { s.dev.counts with folds := s.dev.counts.folds + 1 }
                else { s.dev.counts with drops := s.dev.counts.drops + 1 }))
      ∧ (k.get (CORE_TQ_valid n) = 1 → k.get (CORE_TQ_closed n) = 0 →
        ∃ t, exec (.tallyDeadline c q ck) s = .next t ∧ OnlyCore s t c ∧ (t.dev.core c).mem = k.mem
          ∧ arrivalStill (t.dev.core c) = arrivalStill k
          ∧ ((t.dev.core c).get (CORE_TQ_closed n) = 1 ↔ k.get (CORE_TQ_expect n) ≤ count
            ∨ (k.get (CORE_TQ_armed n) = 1 ∧ x.tArm + k.get (CORE_TQ_deadline n) ≤ ck ∧ k.get (CORE_TQ_quorum n) ≤ count))
          ∧ ((t.dev.core c).get (CORE_TQ_closed n) = 1 → ((t.dev.core c).tqRun n).byDeadline = decide (count < k.get (CORE_TQ_expect n))))
      ∧ (∀ part data poison tag i rest g, k.queue 2 = .contrib n part data poison tag i :: rest → k.group tag = some g →
        k.unclassified n tag = false → i < (k.contribRows n g.header part).length →
        let row := 0x80000 + (k.get (CORE_TQ_pm_base n) + (k.contribElems n g.header part).1 / 2 + i) * 64
        ∃ t, exec (.tallyRowAdd c) s = .next t ∧ OnlyCore s t c ∧ (t.dev.core c).mem = (k.contribAdd n g.header part data i).mem
          ∧ (∀ a, a < row ∨ row + 64 ≤ a → (t.dev.core c).mem.read a = k.mem.read a)
          ∧ (t.dev.core c).queue 2 = (if i + 1 < (k.contribRows n g.header part).length then .contrib n part data poison tag (i + 1) :: rest else rest)
          ∧ arrivalStill (t.dev.core c) = arrivalStill k)

/-- On a live device, TALLY_RELEASE of a queue that has closed on its count, whose contributions are added and whose output endpoint has a free
entry, leaves every accumulator byte zero and every byte outside the accumulators and the entry as it was.  TALLY_RELEASE_END of a queue whose
release runs makes the message present unless its endpoint has closed, advances the slot, opens the queue with a count of 0 and sends one CREDIT to each core of the
contributor rectangle. -/
def Obligations.TallyReleases : Prop :=
  ∀ (s : State) (c : CoreId) (q : BitVec 3), Live s → s.dev.logical c = true →
    let k := s.dev.core c
    let n := q.toNat
    let e := k.get (CORE_TQ_out_ep n)
    let base := k.entryBase e (k.epRun e).fill
    let acc := k.accSpan n
    (k.get (CORE_TQ_closed n) = 1 → (k.tqRun n).releasing = false → (k.tqRun n).byDeadline = false → k.tallyQuiet n = true →
      k.get (CORE_EP_held e) ≤ k.get (CORE_EP_qdepth e) →
      ∃ t, exec (.tallyRelease c q) s = .next t ∧ OnlyCore s t c ∧ ((t.dev.core c).tqRun n).releasing = true
        ∧ (∀ a, acc.1 ≤ a → a < acc.1 + acc.2 → (t.dev.core c).mem.read a = 0)
        ∧ (∀ a, (a < acc.1 ∨ acc.1 + acc.2 ≤ a) → (a < base ∨ base + 64 + k.get (CORE_TQ_rows n) * k.relSpan n * 64 ≤ a) →
            (t.dev.core c).mem.read a = k.mem.read a)
        ∧ arrivalStill (t.dev.core c) = arrivalStill k)
    ∧ ((k.tqRun n).releasing = true →
      ∃ t, exec (.tallyReleaseEnd c q) s = .next t ∧ OnlyCorePackets s t c (k.relCredits c n) ∧ (t.dev.core c).mem = k.mem
        ∧ (t.dev.core c).get (CORE_EP_held e)
            = (if k.get (CORE_EP_closed e) = 1 then k.get (CORE_EP_held e) else (k.get (CORE_EP_held e) + 1) % 2 ^ (CORE_EP_held e).w)
        ∧ (k.get (CORE_EP_closed e) ≠ 1 → ((t.dev.core c).epRun e).fill = ((k.epRun e).fill + 1) % (k.get (CORE_EP_qdepth e) + 1))
        ∧ (t.dev.core c).get (CORE_TQ_slot n) = (k.get (CORE_TQ_slot n) + k.get (CORE_TQ_sstep n)) % 256
        ∧ (t.dev.core c).get (CORE_TQ_count n) = 0 ∧ (t.dev.core c).get (CORE_TQ_folded n) = 0 ∧ (t.dev.core c).get (CORE_TQ_armed n) = 0
        ∧ (t.dev.core c).get (CORE_TQ_closed n) = 0 ∧ ((t.dev.core c).tqRun n).releasing = false
        ∧ arrivalStill (t.dev.core c) = arrivalStill k)

/-- On a live device, a packet for a core that is not in RESET and works for the packet's job leaves the network, and: a data CREDIT for the send
endpoint it names adds one to the entries that receiver has returned and sets credits to depth − sent + the least returned; a tally CREDIT sets
credits of every matching endpoint to 1; a RECEIPT marks the receiver gone; an ERRINC adds its increment to its counter; a DONE changes nothing
else.  A packet of another job changes no endpoint and no counter and is counted as absorbed.  No other core changes. -/
def Obligations.PacketsReachTheCore : Prop :=
  ∀ (s : State) (p : Packet), Live s → p.dstUnit = 0 → s.dev.logical (packetCore p) = true →
    let c := packetCore p
    let k := s.dev.core c
    let v := p.inl.toNat
    let n := v % 2 ^ 5
    let rx := v / 2 ^ 5 % 2 ^ 3
    let gen := v / 2 ^ 8 % 2 ^ 8
    k.run ≠ .reset →
      (k.ofJob p = true →
        (p.type = 1 → bit v 16 = false → s.dev.relayTargets p false = [] → k.matching false n gen = [n] →
          ∃ t, exec (.creditArrival p) s = .next t ∧ t.pending = s.pending ∧ t.dev.flight = s.dev.flight.erase p
            ∧ { t.dev with cores := s.dev.cores, flight := s.dev.flight } = s.dev ∧ (∀ x, x ≠ c → t.dev.core x = s.dev.core x)
            ∧ Tab.get (fun _ => 0) ((t.dev.core c).epRun n).returned rx = Tab.get (fun _ => 0) (k.epRun n).returned rx + 1
            ∧ (t.dev.core c).get (CORE_EP_credits n)
                = (k.get (CORE_EP_depth n) + (t.dev.core c).leastReturned n - (k.epRun n).sent) % 2 ^ (CORE_EP_credits n).w
            ∧ { t.dev.core c with ep := k.ep, win := k.win } = k)
        ∧ (p.type = 1 → bit v 16 = true → s.dev.relayTargets p true = [] → k.matching true n gen ≠ [] →
          ∃ t, exec (.creditArrival p) s = .next t ∧ t.pending = s.pending ∧ t.dev.flight = s.dev.flight.erase p
            ∧ { t.dev with cores := s.dev.cores, flight := s.dev.flight } = s.dev ∧ (∀ x, x ≠ c → t.dev.core x = s.dev.core x)
            ∧ (∀ e < 32, (t.dev.core c).get (CORE_EP_credits e) = if e ∈ k.matching true n gen then 1 else k.get (CORE_EP_credits e))
            ∧ { t.dev.core c with win := k.win } = k)
        ∧ (p.type = 2 → bit v 20 = false → s.dev.relayTargets p false = [] → k.matching false n gen = [n] → rx ≤ k.get (CORE_EP_fanout n) →
          ∃ t, exec (.receiptArrival p) s = .next t ∧ t.pending = s.pending ∧ t.dev.flight = s.dev.flight.erase p
            ∧ { t.dev with cores := s.dev.cores, flight := s.dev.flight } = s.dev ∧ (∀ x, x ≠ c → t.dev.core x = s.dev.core x)
            ∧ bit ((t.dev.core c).get (CORE_EP_rx_gone n)) rx = true
            ∧ (∀ i < 8, i ≠ rx → bit ((t.dev.core c).get (CORE_EP_rx_gone n)) i = bit (k.get (CORE_EP_rx_gone n)) i)
            ∧ ((∀ i ≤ k.get (CORE_EP_fanout n), bit ((t.dev.core c).get (CORE_EP_rx_gone n)) i = true) → (t.dev.core c).get (CORE_EP_gone n) = 1)
            ∧ { t.dev.core c with win := k.win } = k)
        ∧ (p.type = 3 → ∃ t, exec (.errincArrival p) s = .next t ∧ t.pending = s.pending ∧ t.dev.flight = s.dev.flight.erase p
            ∧ { t.dev with cores := s.dev.cores, flight := s.dev.flight } = s.dev ∧ (∀ x, x ≠ c → t.dev.core x = s.dev.core x)
            ∧ (∀ i, (t.dev.core c).cr i = if i = v % 2 ^ 6 then k.cr i + BitVec.ofNat 32 (v / 2 ^ 6 % 2 ^ 15) else k.cr i)
            ∧ { t.dev.core c with c := k.c, cSrc := k.cSrc } = k)
        ∧ (p.type = 0x0A → exec (.doneArrival p) s = .next ⟨s.pending, s.dev.eject p⟩))
      ∧ (k.ofJob p = false → s.dev.relayTargets p false = [] → s.dev.relayTargets p true = [] →
        ∀ i ∈ [(Instr.creditArrival p, 1), (.receiptArrival p, 2), (.errincArrival p, 3), (.doneArrival p, 0x0A)], p.type.toNat = i.2 →
          ∃ t, exec i.1 s = .next t ∧ t.pending = s.pending ∧ t.dev.flight = s.dev.flight.erase p
            ∧ { t.dev with cores := s.dev.cores, flight := s.dev.flight, regs := s.dev.regs, counts := s.dev.counts } = s.dev
            ∧ t.dev.get ERRAND_STAT_absorbed = sat ERRAND_STAT_absorbed.w (s.dev.get ERRAND_STAT_absorbed + 1)
            ∧ (∀ x, x ≠ c → t.dev.core x = s.dev.core x) ∧ { t.dev.core c with win := k.win } = k
            ∧ ∀ e < 32, (t.dev.core c).get (CORE_EP_credits e) = k.get (CORE_EP_credits e))

/-! Routers and epochs. -/

/-- Whether output `o` of a router sends the row of input `n` on under a slot word. -/
def names (d : Dev) (r : CoreId) (word n o : Nat) : Bool := d.source r word o == n

/-- On a live device, a clean slot of a router whose word names no H, O or stream and in which one link input holds a row: the row leaves that
input, appears one ck later at the far end of each of N, E, S and W that names the input, and on its way to the network interface where L names
it; at least one output names it.  No other link, no core and nothing else of the device changes but the ck and MESH_SLOT. -/
def Obligations.RowsCrossRouters : Prop :=
  ∀ (s : State) (r : CoreId) (ck n : Nat) (row : Row), Live s → s.dev.logical r = true → 1 ≤ n → n ≤ 4 →
    let d := s.dev
    let word := d.slotWord r ck
    let link := fun (d : Dev) (k : Nat) => Tab.get (fun _ => ([] : List LinkRow)) d.links k
    (∀ i < 4, (link d (linkKey r i)).find? (fun x => x.ck == ck) = if i + 1 = n then some ⟨ck, row⟩ else none) →
    (∀ o, 1 ≤ o → o ≤ 7 → d.source r word o < 6) → d.source r word 6 = 0 → d.source r word 7 = 0 → 36 ≤ bits word 21 6 →
    (∃ o, 1 ≤ o ∧ o ≤ 5 ∧ names d r word n o = true) →
      ∃ t, exec (.routerSlot r ck .clean) s = .next t ∧ t.pending = s.pending
        ∧ (∀ i < 4, link t.dev (linkKey r i) = if i + 1 = n then (link d (linkKey r i)).erase ⟨ck, row⟩ else link d (linkKey r i))
        ∧ (∀ o, 1 ≤ o → o ≤ 4 → let k := linkKey (neighbour r o).1 (neighbour r o).2
            link t.dev k = if names d r word n o then link d k ++ [⟨ck + 1, row⟩] else link d k)
        ∧ (∀ k, (∀ i < 4, k ≠ linkKey r i) → (∀ o, 1 ≤ o → o ≤ 4 → k ≠ linkKey (neighbour r o).1 (neighbour r o).2) → link t.dev k = link d k)
        ∧ t.dev.delivered = (if names d r word n 5 then d.delivered ++ [(r, row)] else d.delivered)
        ∧ t.dev.ck = max d.ck ck ∧ (∀ a, a ≠ MESH_SLOT_slot.key → t.dev.reg a = d.reg a)
        ∧ { t.dev with links := d.links, delivered := d.delivered, ck := d.ck, regs := d.regs } = d

/-- On a live device: an EPOCH_VOTE packet of the epoch owner leaves the network and adds its increment to the votes; with no turn pending, votes
that reach the current entry's count are taken off and fix T_turn at turn_lead ck later; a vote of another job is dropped and counted.  TURN at a
router of the owner that has not had it, in time for the drain, is noted and the router keeps its bank.  TURN_DRAIN_START stops injection.  None
of them changes a core. -/
def Obligations.EpochVotesAndTurn : Prop :=
  ∀ (s : State), Live s →
    let d := s.dev
    (∀ (p : Packet) (ck : Nat), p.type = 3 → p.dstX = 0 → p.dstY = 0 → p.dstUnit = 2 → p.dstSub = 1 →
      let n := d.get MESH_EPOCH_CTL_next
      let need := d.get (MESH_EPOCH_votes n)
      let v := sat 16 (d.get MESH_VOTES_votes + p.inl.toNat / 2 ^ 6 % 2 ^ 15)
      (d.ownsEpoch p.job p.jgen = true →
        ∃ t, exec (.epochVote p ck) s = .next t ∧ t.pending = s.pending ∧ t.dev.flight = d.flight.erase p
          ∧ (∀ a, a ≠ MESH_VOTES_votes.key → t.dev.reg a = d.reg a)
          ∧ { t.dev with flight := d.flight, regs := d.regs, turn := d.turn } = d
          ∧ (d.turn = none → need ≤ v → t.dev.get MESH_VOTES_votes = v - need
            ∧ t.dev.turn = some ⟨ck + d.get (MESH_EPOCH_turn_lead n), n, (d.get MESH_SLOT_epoch + 1) % 65536, [], [], false⟩)
          ∧ (d.turn ≠ none ∨ v < need → t.dev.get MESH_VOTES_votes = v ∧ t.dev.turn = d.turn))
      ∧ (d.ownsEpoch p.job p.jgen = false →
        ∃ t, exec (.epochVote p ck) s = .next t ∧ t.pending = s.pending ∧ t.dev.flight = d.flight.erase p ∧ t.dev.turn = d.turn
          ∧ t.dev.get ERRAND_STAT_absorbed = sat ERRAND_STAT_absorbed.w (d.get ERRAND_STAT_absorbed + 1)
          ∧ (∀ a, a ≠ ERRAND_STAT_absorbed.key → t.dev.reg a = d.reg a)
          ∧ { t.dev with flight := d.flight, regs := d.regs } = d))
    ∧ (∀ (r : CoreId) (ck : Nat) (x : Turn), d.logical r = true → d.turn = some x → d.doneTurn = none → r.key ∉ x.got →
      (d.router r).on = true → d.ownsEpoch (d.router r).job (d.router r).jgen = true → ck ≤ x.tTurn - d.get (MESH_EPOCH_drain x.entry) →
      ∃ t, exec (.turn r ck) s = .next t ∧ t.pending = s.pending ∧ t.dev.turn = some { x with got := r.key :: x.got }
        ∧ (∀ a, a ≠ ERRAND_STAT_turn_lat_max.key → t.dev.reg a = d.reg a)
        ∧ { t.dev with turn := d.turn, regs := d.regs, ck := d.ck } = d)
    ∧ (∀ x, d.turn = some x → ∃ t, exec .turnDrainStart s = .next t ∧ t.pending = s.pending ∧ t.dev.turn = some { x with draining := true }
        ∧ { t.dev with turn := d.turn, ck := d.ck } = d)

/-- On a live device SCHEDULE_FILL with tag 0xFF, and ROW_ARRIVAL of such a row, writes the row's 16 words into slots 16 k to 16 k + 15 of the bank
that is not running, where k is the number of fill rows since the last turn and below 256, and counts the row; no other slot word, no core and
nothing else of the device changes.  With a turn pending for an entry, no row left on a link of the owner's routers and enough fill rows at each,
BANK_TURN ends the turn, flips MESH_SLOT.bank, advances the epoch number and the entry, and every router of the owner that has had TURN and has not
turned runs its other bank from T_turn under the entry's period; every other router keeps its schedule.  A core of another job than the owner's is
not changed. -/
def Obligations.SchedulesFillAndTurn : Prop :=
  (∀ (s : State) (c : CoreId) (r : Row) (portFree : Bool), Live s → s.dev.logical c = true → r.tag = 0xFF →
      let n := Tab.get (fun _ => 0) s.dev.schedFill c.key
      let first := schedKey c (1 - (s.dev.router c).bank) (16 * n)
      n < 256 → ∀ i ∈ [Instr.scheduleFill c r, .rowArrival c r portFree],
        ∃ t, exec i s = .next t ∧ t.pending = s.pending
          ∧ (∀ j < 16, Tab.get (fun _ => idleWord) t.dev.sched (first + j) = r.data.toNat / 2 ^ (32 * j) % 2 ^ 32)
          ∧ (∀ x, x < first ∨ first + 16 ≤ x → Tab.get (fun _ => idleWord) t.dev.sched x = Tab.get (fun _ => idleWord) s.dev.sched x)
          ∧ Tab.get (fun _ => 0) t.dev.schedFill c.key = n + 1
          ∧ (∀ x, x ≠ c.key → Tab.get (fun _ => 0) t.dev.schedFill x = Tab.get (fun _ => 0) s.dev.schedFill x)
          ∧ { t.dev with sched := s.dev.sched, schedFill := s.dev.schedFill, delivered := s.dev.delivered } = s.dev)
  ∧ (∀ (s : State) (x : Turn), Live s →
      let d := s.dev
      let mine := fun (r : CoreId) => d.logical r = true ∧ (d.router r).on = true ∧ d.ownsEpoch (d.router r).job (d.router r).jgen = true
      let period := d.get (MESH_EPOCH_period x.entry) + 1
      d.turn = some x →
      (∀ r, mine r → (∀ i < 4, Tab.get (fun _ => ([] : List LinkRow)) d.links (linkKey r i) = [])
        ∧ (period + 15) / 16 ≤ Tab.get (fun _ => 0) d.schedFill r.key) →
        ∃ t, exec .bankTurn s = .next t ∧ t.pending = s.pending
          ∧ t.dev.doneTurn = some x ∧ t.dev.get MESH_SLOT_bank = 1 - d.get MESH_SLOT_bank
          ∧ t.dev.get MESH_SLOT_epoch = (d.get MESH_SLOT_epoch + 1) % 65536
          ∧ t.dev.get MESH_EPOCH_CTL_next = (if x.entry = d.get MESH_EPOCH_CTL_entries then 0 else x.entry + 1) % 2 ^ MESH_EPOCH_CTL_next.w
          ∧ (∀ r : CoreId, d.logical r = true → t.dev.router r =
              if mine r ∧ x.got.contains r.key = true ∧ x.turned.contains r.key = false then
                { d.router r with bank := 1 - (d.router r).bank, start := x.tTurn, period := period, entry := x.entry }
              else d.router r)
          ∧ (∀ r : CoreId, d.ownsEpoch (d.core r).job (d.core r).jgen = false → t.dev.core r = d.core r)
          ∧ t.dev.flight = d.flight ∧ t.dev.hbm = d.hbm ∧ t.dev.jobs = d.jobs ∧ t.dev.sched = d.sched)

/-! Check engines and patrols. -/

/-- On a live device: SPOT_CHECK_SELECT with spot checks on, the count expired, a working check engine and no core of the arcade in recovery queues
one request and marks the last TMM; CHECK_ENGINE_REQUEST with a spot check at the head and no comparison waiting marks it recomputed;
SPOT_CHECK_COMPARE of the written TMM takes it off the unit, adds 1 to its counter and to WARD_SPOT_CHECKS, and on a match changes no other
register and leaves the matrix engine.  No byte of memory and no other core changes. -/
def Obligations.SpotChecksRun : Prop :=
  ∀ (s : State) (c : CoreId), Live s → s.dev.logical c = true →
    let d := s.dev
    let k := d.core c
    let n := arcadeNo c
    let a := d.arcade n
    (∀ o, d.get WARD_SPOT_CFG_en = 1 → a.working = true → a.countdown = 0 → d.arcadeRecovers n = false → k.tmm.getLast? = some o →
      o.spot = none → o.done = false → o.onCheck = false →
      ∃ t seg v, exec (.spotCheckSelect c) s = .next t ∧ t.pending = s.pending
        ∧ { t.dev with cores := d.cores, arcades := d.arcades, freeCtr := d.freeCtr } = d ∧ (∀ x, x ≠ c → t.dev.core x = d.core x)
        ∧ t.dev.core c = { k with tmm := k.tmm.dropLast ++ [{ o with spot := some seg }] } ∧ seg.col % 16 = 0
        ∧ (0 < o.rowsD → seg.row < o.rowsD)
        ∧ t.dev.arcade n = { a with countdown := v, queue := a.queue ++ [⟨c.key, true⟩] } ∧ 1 ≤ v ∧ v ≤ 2 ^ (d.get WARD_SPOT_CFG_period + 1)
        ∧ ∀ x, x ≠ n → t.dev.arcade x = d.arcade x)
    ∧ (∀ (m : BitVec 10) (r : CheckReq) (rest : List CheckReq), (d.arcade m.toNat).queue = r :: rest → r.spot = true →
      (d.arcade m.toNat).working = true → (d.arcade m.toNat).recomputed = false →
      exec (.checkEngineRequest m) s = .next ⟨s.pending, d.setArcade m.toNat { d.arcade m.toNat with recomputed := true }⟩)
    ∧ (∀ r rest o, a.queue = r :: rest → r.core = c.key → r.spot = true → a.recomputed = true →
      k.tmm.find? (fun o => o.spot.isSome && o.done) = some o →
      ∃ t, exec (.spotCheckCompare c true) s = .next t ∧ t.pending = s.pending
        ∧ { t.dev with cores := d.cores, arcades := d.arcades, regs := d.regs } = d ∧ (∀ x, x ≠ c → t.dev.core x = d.core x)
        ∧ (t.dev.core c).tmm = k.tmm.erase o ∧ (∀ i, (t.dev.core c).cr i = if i = o.ctr.toNat then k.cr i + 1 else k.cr i)
        ∧ unitStill (t.dev.core c) = unitStill k ∧ (t.dev.core c).mem = k.mem
        ∧ t.dev.arcade n = { a with queue := rest, recomputed := false }
        ∧ t.dev.get WARD_SPOT_CHECKS_count = (d.get WARD_SPOT_CHECKS_count + 1) % 2 ^ 32
        ∧ ∀ x, x ≠ WARD_SPOT_CHECKS_count.key → t.dev.reg x = d.reg x)

/-- On a live device a clean PATROL_READ of a row and a clean HBM_PATROL of a line change nothing.  A corrected read of a row of WM, AM, PM or of a
tier in the mask writes one record with SRAM_CE and its location and changes no byte and no mark; an uncorrectable one marks the row
poisoned, with the record of SRAM_UE; an uncorrectable read of a usable HBM line marks the line and retires the page, with its record. -/
def Obligations.PatrolsReport : Prop :=
  ∀ (s : State) (c : CoreId) (row : Nat), Live s → s.dev.logical c = true →
    let d := s.dev
    let k := d.core c
    let seq := (d.get ERR_STAT_seq + 1) % 2 ^ 32
    let record := fun (t : State) => t.dev.get (ERR_REC_record (seq % 256))
    (exec (.patrolRead c row .clean) s = .next s ∧ ∀ m line, exec (.hbmPatrol m line .clean) s = .next s)
    ∧ (∀ g lo size, regionOf (row * 64) = some (g, lo, size) → g ≠ 3 → k.offMask g = false →
      (∃ t, exec (.patrolRead c row .corrected) s = .next t ∧ record t % 2 ^ 16 = 0x0001 ∧ record t / 2 ^ 128 % 2 ^ 64 = row * 64 ∧ t.dev.cores = d.cores
        ∧ t.dev.hbm = d.hbm ∧ t.dev.get ERR_STAT_seq = seq)
      ∧ (∃ t, exec (.patrolRead c row .uncorrectable) s = .next t ∧ record t % 2 ^ 16 = 0x0002
        ∧ t.dev.core c = k.setPoison (row * 64) true ∧ (∀ x, x ≠ c → t.dev.core x = d.core x) ∧ t.dev.hbm = d.hbm))
    ∧ (∀ (m : BitVec 3) (line : Nat), line * 64 < 2 ^ 36 → d.usable (m.toNat * 2 ^ 36 + line * 64) = true →
      (m.toNat * 2 ^ 36 + line * 64) / 2 ^ 21 ∉ d.badPages →
      ∃ t, exec (.hbmPatrol m line .uncorrectable) s = .next t ∧ record t % 2 ^ 16 = 0x0011 ∧ t.dev.hbm = d.hbm ∧ t.dev.cores = d.cores
        ∧ t.dev.linePoisoned (m.toNat * 2 ^ 36 + line * 64) = true
        ∧ t.dev.badPages = d.badPages ++ [(m.toNat * 2 ^ 36 + line * 64) / 2 ^ 21])

/-! Porters. -/

/-- On a live device, a PREQ packet at a Porter's port leaves the network, and: a LOAD, STORE of rows or FILL that passes the checks of R211 is the
Porter's youngest transfer, not started, with its pieces under the page table; a CREDIT descriptor, under both commands, adds its increment to
its pool, saturating at 65,535; one refused for a job that is being torn down changes nothing but the Porter's error register.  A packet of
another type changes nothing but the count of absorbed packets.  No memory, no core and no other Porter changes. -/
def Obligations.DescriptorsEnterPorters : Prop :=
  ∀ (s : State) (p : Packet) (n : Nat), Live s → s.dev.porterOf p = some n →
    let d := s.dev
    let ds := PDesc.ofBits (packetDesc p)
    (p.type = 4 →
      (∀ ctx, d.porterCheck n ds p.job p.jgen = .inr ctx →
        (ds.op ≠ 4 → (ds.op = 2 → ds.rows ≠ 0) → d.get (HBM_STAT_marked (n / 4)) = 0 →
          ∃ t x, exec (.descriptorAccept p) s = .next t ∧ OnlyPorter s t n ∧ t.dev.flight = d.flight.erase p
            ∧ (t.dev.porter n).transfers = (d.porter n).transfers ++ [x] ∧ (t.dev.porter n).issued = (d.porter n).issued
            ∧ x.desc = packetDesc p ∧ x.pkt = p ∧ x.ctx = ctx ∧ x.started = false
            ∧ x.pieces.map (fun y => (y.addr, y.rows)) = ds.pieces.map (fun y => (d.translate (d.ptBase n ctx) y.1, y.2))
            ∧ (∀ y ∈ x.pieces, y.phase = .free ∧ y.data = []))
        ∧ (ds.op = 4 → ∀ i ∈ [Instr.descriptorAccept p, .porterCredit p],
          ∃ t, exec i s = .next t ∧ OnlyPorter s t n ∧ t.dev.flight = d.flight.erase p ∧ t.dev.porter n = d.porter n
            ∧ t.dev.get (PORTER_POOL_credits n ctx (ds.pool % 16)) = min (d.get (PORTER_POOL_credits n ctx (ds.pool % 16)) + ds.inc) 65535))
      ∧ (∀ reason, d.porterCheck n ds p.job p.jgen = .inl reason → d.ending p.job = true →
          ∃ t, exec (.descriptorAccept p) s = .next t ∧ OnlyPorter s t n ∧ t.dev.flight = d.flight.erase p ∧ t.dev.porter n = d.porter n
            ∧ t.dev.get (PORTER_ERR_reason n) = reason % 16
            ∧ t.dev.get (PORTER_ERR_refused n) = min (d.get (PORTER_ERR_refused n) + 1) 255))
    ∧ (p.type ≠ 4 → ∃ t, exec (.descriptorAccept p) s = .next t ∧ t.pending = s.pending ∧ t.dev.flight = d.flight.erase p
        ∧ { t.dev with flight := d.flight, regs := d.regs } = d ∧ (∀ a, a ≠ ERRAND_STAT_absorbed.key → t.dev.reg a = d.reg a)
        ∧ t.dev.get ERRAND_STAT_absorbed = min (d.get ERRAND_STAT_absorbed + 1) (2 ^ ERRAND_STAT_absorbed.w - 1))

/-- On a live device: TRANSFER_START of a stream's first unstarted transfer whose fence is open and that no A2 limit and no remap hold back starts a LOAD or
a FILL with rows, starts a STORE that gets all its tags and sends its CMD, and marks one whose fence is closed.  TAG_GRANT with fewer than 1,024 tags out gives
the next stream in turn that wants one a tag; with all out, it gives none.  GATED_CREDIT_TAKE takes one credit of a pool that is not zero for the
LOAD that sends.  FENCE_POST_ARRIVAL stores the step of the stack's oldest post in its fence.  No memory and no core changes. -/
def Obligations.TransfersStartAndTag : Prop :=
  ∀ (s : State), Live s →
    let d := s.dev
    (∀ (p : BitVec 5) (st : BitVec 2) (i : Nat) (x : Transfer),
      let q := d.porter p.toNat
      let op := (PDesc.ofBits x.desc).op
      q.transfers.findIdx? (fun y => y.stream == st.toNat && !y.started) = some i → q.transfers[i]? = some x →
      (PDesc.ofBits x.desc).cores.any d.moving = false →
      (d.get (PORTER_CTX_a2 p.toNat x.ctx) = 1 → (q.transfers.filter (fun y => y.ctx == x.ctx && y.started)).length < 4) →
      (d.fenceOpen p.toNat x = true → op ≠ 2 → (op = 3 → (PDesc.ofBits x.desc).rows ≠ 0) → ∃ t, exec (.transferStart p st) s = .next t ∧ OnlyPorter s t p.toNat
        ∧ t.dev.porter p.toNat = { q with transfers := q.transfers.set i { x with started := true } } ∧ t.dev.flight = d.flight)
      ∧ (d.fenceOpen p.toNat x = true → op = 2 → q.tags + x.pieces.length ≤ 1024 →
        ∃ t, exec (.transferStart p st) s = .next t ∧ OnlyPorter s t p.toNat ∧ t.dev.flight = d.flight ++ [d.storeCmdPacket p.toNat x]
        ∧ t.dev.porter p.toNat = { q with transfers := q.transfers.set i { x with started := true, pieces := tagAll q.issued x.pieces }, issued := q.issued + x.pieces.length })
      ∧ (d.fenceOpen p.toNat x = false → ∃ t, exec (.transferStart p st) s = .next t ∧ OnlyPorter s t p.toNat
        ∧ t.dev.porter p.toNat = { q with transfers := q.transfers.set i { x with fenceWait := true } } ∧ t.dev.flight = d.flight))
    ∧ (∀ (p : BitVec 5),
      let q := d.porter p.toNat
      let wants := fun (st : Nat) (y : Transfer) => y.stream == st && d.wantsTag p.toNat y
      (∀ st i x, q.tags < 1024 → [q.next % 4, (q.next + 1) % 4, (q.next + 2) % 4, (q.next + 3) % 4].find? (fun st => q.transfers.any (wants st)) = some st →
        q.transfers.findIdx? (wants st) = some i → q.transfers[i]? = some x →
        ∃ t, exec (.tagGrant p) s = .next t ∧ OnlyPorter s t p.toNat ∧ t.dev.flight = d.flight
          ∧ t.dev.porter p.toNat = ⟨q.transfers.set i { x with pieces := tagFirst q.issued x.pieces }, (st + 1) % 4, q.issued + 1⟩)
      ∧ (1024 ≤ q.tags → ∃ t, exec (.tagGrant p) s = .next t ∧ OnlyPorter s t p.toNat ∧ t.dev.flight = d.flight
          ∧ (t.dev.porter p.toNat).issued = q.issued
          ∧ (t.dev.porter p.toNat).transfers.map (fun y => y.pieces) = q.transfers.map (fun y => y.pieces)))
    ∧ (∀ (p : BitVec 5) (st : BitVec 2) (i : Nat) (x : Transfer),
      let q := d.porter p.toNat
      let f := PORTER_POOL_credits p.toNat x.ctx ((PDesc.ofBits x.desc).pool % 16)
      q.sending st.toNat = some i → q.transfers[i]? = some x → (PDesc.ofBits x.desc).op = 1 → (PDesc.ofBits x.desc).gated = true →
      x.credit = false → x.ctx < 8 → d.get f ≠ 0 →
      ∃ t, exec (.gatedCreditTake p st) s = .next t ∧ OnlyPorter s t p.toNat ∧ t.dev.flight = d.flight ∧ t.dev.get f = d.get f - 1
        ∧ t.dev.porter p.toNat = { q with transfers := q.transfers.set i { x with credit := true } })
    ∧ (∀ (k : BitVec 3) (p : FencePost), d.posts.find? (fun p => p.stack == k.toNat) = some p →
      ∃ t, exec (.fencePostArrival k) s = .next t ∧ t.pending = s.pending ∧ t.dev.posts = d.posts.erase p
        ∧ (∀ ctx fence, ctx < 8 → fence < 4096 → p.ctx < 8 → t.dev.fence k.toNat ctx fence =
            if ctx = p.ctx ∧ fence = p.fence.toNat then p.step.toNat else d.fence k.toNat ctx fence)
        ∧ { t.dev with posts := d.posts, fences := d.fences } = d)

/-- On a live device, for a piece that no earlier access orders and that no directory guards: PIECE_RETURN without error gives a piece in READ the
lines at its address, poisoned when one is, and changes no byte; PIECE_TIMEOUT gives it zero rows, poisoned; a data row for a STORE joins its
first piece in FILL; PIECE_WRITE_ACK writes the lines of a piece in WRITE, every byte outside them reads as before, and the piece is done.
STORE_CMD at a core puts a header row of the group onto its stream and starts the reads, and writes no byte. -/
def Obligations.PiecesReadAndWrite : Prop :=
  ∀ (s : State), Live s →
    let d := s.dev
    (∀ (n : BitVec 5) (i j : Nat) (x : Transfer) (p : Piece), d.piece n.toNat i j = some (x, p) →
      let full : Piece := { p with phase := .full, data := (List.range p.rows).map (fun m => d.line (p.addr + m * 64)), poison := (List.range p.rows).any (fun m => d.linePoisoned (p.addr + m * 64)) }
      (p.phase = .read → p.coh = false → (d.porter n.toNat).orderedBefore p = false →
        ∃ t, exec (.pieceReturn n i j .clean) s = .next t ∧ OnlyPorter s t n.toNat ∧ t.dev.flight = d.flight
          ∧ t.dev.piece n.toNat i j = some ({ x with pieces := x.pieces.set j full }, full))
      ∧ (p.phase = .read →
        ∃ t y, exec (.pieceTimeout n i j) s = .next t ∧ t.pending = s.pending ∧ t.dev.hbm = d.hbm ∧ t.dev.cores = d.cores
          ∧ t.dev.piece n.toNat i j = some (y, { p with phase := .full, data := List.replicate p.rows 0, poison := true })
          ∧ t.dev.get (ERR_REC_record (t.dev.get ERR_STAT_seq % 256)) % 2 ^ 16 = 0x0012)
      ∧ (p.phase = .write → p.coh = false → p.addr % 64 = 0 → (d.porter n.toNat).orderedBefore p = false → (PDesc.ofBits x.desc).notify = false →
        ∃ t, exec (.pieceWriteAck n i j) s = .next t ∧ t.pending = s.pending ∧ t.dev.cores = d.cores ∧ t.dev.flight = d.flight
          ∧ (∀ m < p.rows, t.dev.line (p.addr + m * 64) = p.data.getD m 0 ∧ t.dev.linePoisoned (p.addr + m * 64) = p.poison)
          ∧ (∀ a, a < p.addr ∨ p.addr + p.rows * 64 ≤ a → t.dev.hbm.read a = d.hbm.read a)
          ∧ (∀ m, m ≠ n.toNat → t.dev.porter m = d.porter m)
          ∧ { t.dev with hbm := d.hbm, hbmPoison := d.hbmPoison, porters := d.porters, regs := d.regs } = d))
    ∧ (∀ (k : BitVec 3) (r : Row) (i : Nat) (x : Transfer), r.head = false → (d.porter (4 * k.toNat)).awaiting r.tag true = some i →
      (d.porter (4 * k.toNat)).transfers[i]? = some x →
      ∃ t, exec (.storeRowArrival k r) s = .next t ∧ t.pending = s.pending ∧ t.dev.hbm = d.hbm ∧ t.dev.cores = d.cores
        ∧ t.dev.edgeRows = d.edgeRows.erase (k.toNat, r) ∧ (∀ m, m ≠ 4 * k.toNat → t.dev.porter m = d.porter m)
        ∧ (t.dev.porter (4 * k.toNat)).transfers
            = (d.porter (4 * k.toNat)).transfers.set i { x with pieces := fillPiece r.data r.poison x.pieces })
    ∧ (∀ (p : Packet) (portFree : Bool), d.logical (packetCore p) = true → (d.core (packetCore p)).storeRun = none →
      (d.core (packetCore p)).run ≠ .reset → (d.core (packetCore p)).inj.length < 64 →
      let k := d.core (packetCore p)
      let ds := PDesc.ofBits (packetDesc p)
      ∃ t row, exec (.storeCmd p portFree) s = .next t ∧ OnlyCore s t (packetCore p)
        ∧ (t.dev.core (packetCore p)).inj = k.inj ++ [⟨32 + ds.stream, row⟩] ∧ row.head = true ∧ row.last = false ∧ row.poison = false
        ∧ row.tag.toNat = ds.dtag % 256 ∧ rowBytes row.data 0 1 = 0x11
        ∧ (t.dev.core (packetCore p)).storeRun = some ⟨p, ds.coreRows, 32 + ds.stream, BitVec.ofNat 8 ds.dtag, ds.counter⟩
        ∧ { t.dev.core (packetCore p) with inj := k.inj, storeRun := none } = k)

/-- On a live device without jobs, STACK_FAIL of a stack whose Porters hold no transfer sets the stack's state and mark, writes one record with
DEVICE_LOST and the stack, and changes no byte of HBM, no core and no Porter. -/
def Obligations.StacksFail : Prop :=
  ∀ (s : State) (k : BitVec 3), Live s → s.dev.jobs = [] → (∀ j < 4, (s.dev.porter (4 * k.toNat + j)).transfers = []) →
    ∃ t, exec (.stackFail k) s = .next t ∧ t.pending = s.pending ∧ t.dev.get (HBM_STAT_marked k.toNat) = 1 ∧ t.dev.get (HBM_STAT_state k.toNat) = 3
      ∧ t.dev.get ERR_STAT_seq = (s.dev.get ERR_STAT_seq + 1) % 2 ^ 32
      ∧ t.dev.get (ERR_REC_record (t.dev.get ERR_STAT_seq % 256)) % 2 ^ 16 = 0x0013
      ∧ t.dev.hbm = s.dev.hbm ∧ t.dev.cores = s.dev.cores ∧ t.dev.porters = s.dev.porters ∧ t.dev.flight = s.dev.flight

/-! Port relays and links. -/

/-- A live device and a port that it has. -/
def LivePort (s : State) (p : BitVec 7) : Prop := Live s ∧ s.dev.portOn p.toNat = true

/-- On a live device, for a port it has: EGRESS_TRANSMIT of a live flow with a message, a credit and an UP link takes the credit and moves the oldest
message to those in transmission; only flits leave.  EGRESS_MESSAGE_SENT of a message whose bytes have left frees its entry and sends one CREDIT
to the flow's sender.  INGRESS_MESSAGE of an open flow puts the rows of its oldest message on its O lane, head row rewritten, under the flow's
tag, advances the slot and takes an entry.  NULL_MESSAGE of a gone open flow with an entry presents one header row and counts it.  No core and no
memory changes. -/
def Obligations.RelaysPassMessages : Prop :=
  ∀ (s : State) (p : BitVec 7) (f : BitVec 6), LivePort s p →
    let d := s.dev
    let r := d.relay p.toNat
    let i := f.toNat
    let n := 64 + i
    let slot := (d.get (LINK_FLOW_slot p.toNat n) + d.get (LINK_FLOW_sstep p.toNat n)) % 256
    (∀ m ms, Tab.get (fun _ => []) r.queue i = m :: ms → d.get (LINK_FLOW_valid p.toNat i) = 1 → d.get (LINK_FLOW_gone p.toNat i) = 0 →
      d.get (LINK_FLOW_credits p.toNat i) ≠ 0 → d.linkState p.toNat = 5 →
      ∃ t fl, exec (.egressTransmit p f) s = .next t ∧ OnlyLink s t p.toNat ∧ t.dev.out = fl ++ d.out ∧ (∀ o ∈ fl, ∃ x, o = Out.flit p.toNat x)
        ∧ t.dev.get (LINK_FLOW_credits p.toNat i) = d.get (LINK_FLOW_credits p.toNat i) - 1
        ∧ t.dev.relay p.toNat = { r with queue := Tab.set (fun _ => []) r.queue i ms,
                                         sending := Tab.set (fun _ => []) r.sending i (Tab.get (fun _ => []) r.sending i ++ [m]) })
    ∧ (∀ m ms, Tab.get (fun _ => []) r.sending i = m :: ms → (d.port p.toNat).stillSending i = false → d.feeder p.toNat i = none →
      ∃ t, exec (.egressMessageSent p f) s = .next t ∧ t.pending = s.pending
        ∧ t.dev.relay p.toNat = { r with sending := Tab.set (fun _ => []) r.sending i ms }
        ∧ t.dev.flight = d.flight ++ [d.relayPacket p.toNat i 0x01 0] ∧ (∀ q, q ≠ p.toNat → t.dev.relay q = d.relay q)
        ∧ { t.dev with relays := d.relays, flight := d.flight } = d)
    ∧ (∀ m ms h rows, Tab.get (fun _ => []) r.ready i = m :: ms → Tab.get (fun _ => false) r.closed i = false →
      d.get (LINK_FLOW_pass p.toNat n) = 0 → m.rows = h :: rows →
      ∃ t rs, exec (.ingressMessage p f) s = .next t ∧ OnlyLink s t p.toNat ∧ t.dev.out = d.out
        ∧ Tab.get (fun _ => []) (t.dev.relay p.toNat).ready i = ms
        ∧ Tab.get (fun _ => []) (t.dev.relay p.toNat).lane (i / 32) = Tab.get (fun _ => []) r.lane (i / 32) ++ rs
        ∧ rs.map (fun (x : Row) => x.data) = relayHeader h (d.flowRouter p.toNat i) i :: rows
        ∧ (∀ x ∈ rs, x.tag.toNat = d.get (LINK_FLOW_ltag p.toNat n) ∧ x.poison = m.poison)
        ∧ (rs.map (fun x => x.head)) = true :: rows.map (fun _ => false) ∧ (rs.getLast?.map (fun x => x.last)) = some true
        ∧ t.dev.get (LINK_FLOW_slot p.toNat n) = slot
        ∧ t.dev.get (LINK_FLOW_credits p.toNat n) = d.get (LINK_FLOW_credits p.toNat n) - 1)
    ∧ (d.get (LINK_FLOW_valid p.toNat n) = 1 → d.get (LINK_FLOW_gone p.toNat n) = 1 → d.get (LINK_FLOW_credits p.toNat n) ≠ 0 →
      Tab.get (fun _ => false) r.closed i = false → d.get (LINK_FLOW_pass p.toNat n) = 0 →
      ∃ t x, exec (.nullMessage p f) s = .next t ∧ t.pending = s.pending ∧ t.dev.cores = d.cores ∧ t.dev.flight = d.flight ∧ t.dev.out = d.out
        ∧ Tab.get (fun _ => []) (t.dev.relay p.toNat).lane (i / 32) = Tab.get (fun _ => []) r.lane (i / 32) ++ [x]
        ∧ (x : Row).head = true ∧ x.last = true ∧ x.poison = false ∧ x.tag.toNat = d.get (LINK_FLOW_ltag p.toNat n) ∧ rowBytes x.data 8 4 = 0
        ∧ rowBytes x.data 3 1 = d.get (LINK_FLOW_slot p.toNat n) ∧ rowBytes x.data 2 1 = d.get (LINK_FLOW_gen p.toNat n)
        ∧ t.dev.get (LINK_FLOW_slot p.toNat n) = slot
        ∧ t.dev.get (LINK_FLOW_credits p.toNat n) = d.get (LINK_FLOW_credits p.toNat n) - 1
        ∧ t.dev.counts = { d.counts with nulls := d.counts.nulls + 1 } ∧ (∀ q, q ≠ p.toNat → t.dev.relay q = d.relay q)
        ∧ { t.dev with relays := d.relays, regs := d.regs, counts := d.counts, freeCtr := d.freeCtr } = d)

/-- R289: the symbols of a port: command and type. -/
def symbolTable (p : BitVec 7) (y : BitVec 40) (chk : BitVec 16) (cw : BitVec 32) : List (Instr × Nat) :=
  [(.nopSymbol p y chk, 0x00), (.ack p y chk, 0x01), (.nak p y chk, 0x02), (.laneCredit p y chk, 0x03), (.flowCredit p y chk, 0x04),
   (.epochTurn p y chk, 0x05), (.assay p y chk, 0x06), (.goingDown p y chk, 0x07), (.discover p y chk, 0x08), (.spareReq p y chk cw, 0x09),
   (.swap p y chk cw, 0x0A), (.align p y chk, 0x0B), (.train p y chk, 0x0C)]

/-- On a live device, for a port it has: in OFF and LOST no symbol changes anything; in another state a symbol whose check bytes are wrong adds 1 to
LINK_ERR.bad, saturating, and changes nothing else.  With right check bytes: NOP changes nothing; LANE_CREDIT gives its pool the difference, mod
65,536, of its total to the last one, and only flits leave; FLOW_CREDIT gives a service flow, or an egress flow of its generation, the difference
mod 256; EPOCH_TURN is stored; TRAIN in LOCK or TRAIN sets or clears its lane's bit; ALIGN restores framing. -/
def Obligations.SymbolsAreChecked : Prop :=
  ∀ (s : State) (p : BitVec 7) (y : BitVec 40) (chk : BitVec 16) (cw : BitVec 32), LivePort s p →
    let d := s.dev
    let n := p.toNat
    let v := y.toNat
    let x := d.port n
    let on := d.linkState n ≠ 0 ∧ d.linkState n ≠ 8
    (∀ i ∈ symbolTable p y chk cw,
      (¬on → exec i.1 s = .next s)
      ∧ (on → symbolGood i.2 y chk = false → ∃ t, exec i.1 s = .next t ∧ OnlyLink s t n ∧ t.dev.ports = d.ports ∧ t.dev.relays = d.relays
          ∧ t.dev.out = d.out ∧ t.dev.get (LINK_ERR_bad n) = min (d.get (LINK_ERR_bad n) + 1) 255
          ∧ ∀ a, a ≠ (LINK_ERR_bad n).key → t.dev.reg a = d.reg a))
    ∧ (symbolGood 0 y chk = true → exec (.nopSymbol p y chk) s = .next s)
    ∧ (on → symbolGood 3 y chk = true →
        let pool := if bit v 2 then 4 else v % 4
        let key := v % 4 * 2 + (bit v 2).toNat
        let total := v / 2 ^ 3 % 2 ^ 16
        let gain := (total + 65536 - Tab.get (fun _ => 0) x.last key) % 65536
        ∃ t fl, exec (.laneCredit p y chk) s = .next t ∧ OnlyLink s t n ∧ t.dev.relays = d.relays ∧ t.dev.regs = d.regs
          ∧ t.dev.out = fl ++ d.out ∧ (∀ o ∈ fl, ∃ z, o = Out.flit n z)
          ∧ Tab.get (fun _ => 0) (t.dev.port n).last key = total
          ∧ (t.dev.port n).credit pool ≤ x.credit pool + gain ∧ (fl = [] → (t.dev.port n).credit pool = x.credit pool + gain))
    ∧ (on → symbolGood 4 y chk = true →
        let f := v % 2 ^ 6
        let total := v / 2 ^ 16 % 2 ^ 8
        (bit v 6 = true → ∃ t, exec (.flowCredit p y chk) s = .next t ∧ OnlyLink s t n ∧ t.dev.relays = d.relays ∧ t.dev.regs = d.regs ∧ t.dev.out = d.out
          ∧ Tab.get (fun _ => 0) (t.dev.port n).svcCredits f = Tab.get (fun _ => 0) x.svcCredits f + (total + 256 - Tab.get (fun _ => 0) x.svcLast f) % 256
          ∧ Tab.get (fun _ => 0) (t.dev.port n).svcLast f = total)
        ∧ (bit v 6 = false → bit v 7 = false → d.get (LINK_FLOW_valid n f) = 1 → v / 2 ^ 8 % 2 ^ 8 = d.get (LINK_FLOW_gen n f) →
            let gain := (total + 256 - Tab.get (fun _ => 0) (d.relay n).last f) % 256
            let old := d.get (LINK_FLOW_credits n f)
            ∃ t, exec (.flowCredit p y chk) s = .next t ∧ OnlyLink s t n ∧ t.dev.ports = d.ports ∧ t.dev.out = d.out
              ∧ t.dev.get (LINK_FLOW_credits n f) = (if gain = 0 then old else if d.get (LINK_FLOW_tally n f) = 1 then 1 else min (old + gain) 255)
              ∧ Tab.get (fun _ => 0) (t.dev.relay n).last f = total ∧ ∀ a, a ≠ (LINK_FLOW_credits n f).key → t.dev.reg a = d.reg a))
    ∧ (on → symbolGood 5 y chk = true → ∃ t, exec (.epochTurn p y chk) s = .next t ∧ OnlyLink s t n ∧ t.dev.ports = d.ports ∧ t.dev.relays = d.relays
        ∧ t.dev.out = d.out ∧ t.dev.get (LINK_PEER_EPOCH_epoch n) = v % 2 ^ 16 ∧ t.dev.get (LINK_PEER_EPOCH_step n) = v / 2 ^ 16 % 2 ^ 16
        ∧ ∀ a, a ≠ (LINK_PEER_EPOCH_epoch n).key → t.dev.reg a = d.reg a)
    ∧ (d.linkState n = 1 ∨ d.linkState n = 2 → symbolGood 0x0C y chk = true →
        ∃ t, exec (.train p y chk) s = .next t ∧ OnlyLink s t n ∧ t.dev.relays = d.relays ∧ t.dev.regs = d.regs ∧ t.dev.out = d.out
          ∧ (∀ i < 16, (t.dev.port n).peerReady.getLsbD i = if i = v % 16 then bit v 4 else x.peerReady.getLsbD i)
          ∧ { t.dev.port n with peerReady := x.peerReady } = x)
    ∧ (on → symbolGood 0x0B y chk = true → ∃ t, exec (.align p y chk) s = .next t ∧ OnlyLink s t n ∧ t.dev.relays = d.relays ∧ t.dev.regs = d.regs
        ∧ t.dev.out = d.out ∧ (t.dev.port n).framed = true ∧ { t.dev.port n with framed := x.framed, rxSpare := x.rxSpare } = x)

/-- On a live device, for a port in UP or FENCED: a framed flit with a good CRC and the expected sequence, on a lane the port's state accepts, joins
its lane and the next one is expected; another flit changes no lane, and the first of a run sends NAK.  ACK frees the flits before its sequence;
NAK of a sequence in the window, below the limit, sends the flits from it again, oldest first.  LINK_MESSAGE gives a whole job message at the
front of a lane to its open ingress flow.  ACK_TIMER, NAK_REPEAT, CREDIT_REFRESH, ASSAY_REPEAT and DISCOVER_REPEAT send their symbols and change no
credit, register or buffer. -/
def Obligations.FlitsAreRetried : Prop :=
  ∀ (s : State) (p : BitVec 7), LivePort s p → s.dev.carries p.toNat = true →
    let d := s.dev
    let n := p.toNat
    let x := d.port n
    (∀ (z : BitVec 2048), x.framed = true →
      let vl := z.toNat / 2 ^ 13 % 4
      let good := crc32c (toBytes 252 z.toNat) = z.toNat / 2 ^ 2016 ∧ z.toNat % 2 ^ 13 = x.expected ∧ (d.linkState n = 6 → 2 ≤ vl)
      (good → ∃ t, exec (.flitReceive p z .clean) s = .next t ∧ OnlyLink s t n ∧ t.dev.regs = d.regs ∧ t.dev.relays = d.relays
          ∧ (t.dev.port n).expected = (x.expected + 1) % 8192 ∧ (t.dev.port n).discarding = false
          ∧ Tab.get (fun _ => []) (t.dev.port n).rx vl = Tab.get (fun _ => []) x.rx vl ++ [⟨bit z.toNat 15, toBytes 250 (z.toNat / 2 ^ 16)⟩]
          ∧ (∀ l, l ≠ vl → Tab.get (fun _ => []) (t.dev.port n).rx l = Tab.get (fun _ => []) x.rx l))
      ∧ (¬good → ∃ t, exec (.flitReceive p z .clean) s = .next t ∧ OnlyLink s t n ∧ t.dev.relays = d.relays
          ∧ t.dev.port n = { x with discarding := true }
          ∧ t.dev.out = (if x.discarding then d.out else Out.symbol n 0x02 (BitVec.ofNat 40 x.expected) :: d.out)))
    ∧ (∀ (y : BitVec 40) (chk : BitVec 16) (i : Nat) (z : BitVec 2048), symbolGood 1 y chk = true → x.replay[i]? = some (y.toNat % 2 ^ 13, z) →
      (∀ j < i, ∀ w, x.replay[j]? = some w → w.1 ≠ y.toNat % 2 ^ 13) → y.toNat % 2 ^ 13 ≠ x.seq →
      ∃ t fl new, exec (.ack p y chk) s = .next t ∧ OnlyLink s t n ∧ t.dev.relays = d.relays ∧ t.dev.regs = d.regs
        ∧ (t.dev.port n).replay = x.replay.drop i ++ new ∧ t.dev.out = fl ++ d.out ∧ ∀ o ∈ fl, ∃ w, o = Out.flit n w)
    ∧ (∀ (y : BitVec 40) (chk : BitVec 16) (i : Nat) (z : BitVec 2048), symbolGood 2 y chk = true → x.replay[i]? = some (y.toNat % 2 ^ 13, z) →
      (∀ j < i, ∀ w, x.replay[j]? = some w → w.1 ≠ y.toNat % 2 ^ 13) →
      (if x.replayOf = y.toNat % 2 ^ 13 then x.replays + 1 else 1) < d.get LINK_CFG_replay_max → x.tx = [] →
      ∃ t, exec (.nak p y chk) s = .next t ∧ OnlyLink s t n ∧ t.dev.relays = d.relays ∧ (t.dev.port n).replay = x.replay
        ∧ (t.dev.port n).replayOf = y.toNat % 2 ^ 13
        ∧ t.dev.out = ((x.replay.drop i).map (fun w => Out.flit n w.2)).reverse ++ d.out
        ∧ t.dev.get (LINK_RETRY_replays n) = min (d.get (LINK_RETRY_replays n) + 1) 65535)
    ∧ (∀ (vl : BitVec 2) (q : List RxFlit) (f : RxFlit) (fs : List RxFlit),
      let bs := q.flatMap (fun g => g.rest)
      let h := ofBytes (bs.take 4)
      let rows := h / 2 ^ 16 % 2 ^ 16
      let flow := h % 2 ^ 6
      Tab.get (fun _ => []) x.rx vl.toNat = q → q = f :: fs → f.rest ≠ [] → f.rest.head? ≠ some 0xFF → vl.toNat < 2 → 4 ≤ bs.length → 0 < rows →
      4 + 64 * rows ≤ bs.length → h / 2 ^ 6 % 4 = 0 → d.get (LINK_FLOW_valid n (64 + flow)) = 1 → Tab.get (fun _ => false) (d.relay n).closed flow = false →
      ∃ t, exec (.linkMessage p vl) s = .next t ∧ OnlyLink s t n ∧ t.dev.regs = d.regs
        ∧ Tab.get (fun _ => []) (t.dev.relay n).ready flow = Tab.get (fun _ => []) (d.relay n).ready flow
            ++ [⟨(List.range rows).map (fun i => BitVec.ofNat 512 (ofBytes ((bs.drop (4 + 64 * i)).take 64))), bit h 8, vl.toNat⟩]
        ∧ (Tab.get (fun _ => []) (t.dev.port n).rx vl.toNat).flatMap (fun g => g.rest) = bs.drop (4 + 64 * rows))
    ∧ (∃ t, exec (.ackTimer p) s = .next t ∧ OnlyLink s t n ∧ t.dev.regs = d.regs ∧ t.dev.relays = d.relays ∧ t.dev.port n = { x with accepted := 0 }
        ∧ t.dev.out = .symbol n 0x01 (BitVec.ofNat 40 x.expected) :: d.out)
    ∧ (x.discarding = true → exec (.nakRepeat p) s = .next ⟨s.pending, d.emit (.symbol n 0x02 (BitVec.ofNat 40 x.expected))⟩)
    ∧ (exec (.discoverRepeat p) s = .next ⟨s.pending, d.emit (.symbol n 0x08 (BitVec.ofNat 40
        (d.devnum.toNat + n * 2 ^ 18 + d.get FUSE_GRADE_grade * 2 ^ 25 + d.get (LINK_PORT_CFG_valid n) * 2 ^ 33)))⟩)
    ∧ (∃ ys, exec (.creditRefresh p) s = .next ⟨s.pending, { d with out := ys ++ d.out }⟩ ∧ (∀ o ∈ ys, ∃ w, o = Out.symbol n 0x03 w ∨ o = Out.symbol n 0x04 w)
        ∧ 7 ≤ ys.length)
    ∧ (∃ ys, exec (.assayRepeat p) s = .next ⟨s.pending, { d with out := ys ++ d.out }⟩
        ∧ ys.reverse = (if d.get (LINK_PORT_CFG_valid n) = 1 then (List.range 4).map (fun i => Out.symbol n 0x06 (BitVec.ofNat 40
            (i + d.get WARD_STEP_NOW_step % 64 * 2 ^ 2 + d.get (LINK_ASSAY_bytes i) * 2 ^ 8))) else []))

/-- On a live device, for a port in UP or FENCED: LANE_SPARE_TRIGGER at the transmitter, SPARE_REQ, and RING_LOCK_LOSS of the wavelength of a lane,
with a spare free and the lane not yet being spared, mark the lowest spare and send SWAP with the smallest multiple of 256 at or past the
codeword counter plus 512; LANE_SPARE_TRIGGER at the receiver sends SPARE_REQ.  SWAP of a lane to another wavelength at a later codeword marks the
spare at the receiver; SWAP_AT_K moves a lane that has locked on it, and SPARE_OLD_STOP moves the transmitter's, the old wavelength failed. -/
def Obligations.LanesAreSpared : Prop :=
  ∀ (s : State) (p : BitVec 7), LivePort s p → s.dev.carries p.toNat = true →
    let d := s.dev
    let n := p.toNat
    let x := d.port n
    let tx := d.get (LINK_TXMAP_wstate n)
    let rx := d.get (LINK_RXMAP_wstate n)
    (∀ (lane : BitVec 4) (cw : BitVec 32) (w : Nat) (ws : List Nat), wavesIn tx 0 = w :: ws → (∀ q ∈ x.txSpare, q.lane ≠ lane.toNat) →
      let k := (cw.toNat + 512 + 255) / 256 * 256 % 2 ^ 32
      let old := d.get (LINK_TXMAP_lane n) / 2 ^ (5 * lane.toNat) % 2 ^ 5
      ∀ i, i = Instr.laneSpareTrigger p lane true cw
          ∨ (∃ y chk, symbolGood 9 y chk = true ∧ y.toNat % 16 = lane.toNat ∧ i = .spareReq p y chk cw)
          ∨ (∃ wl : BitVec 5, wl.toNat < 18 ∧ laneOfWave (d.get (LINK_TXMAP_lane n)) tx wl.toNat = some lane.toNat ∧ i = .ringLockLoss p true wl cw) →
        ∃ t, exec i s = .next t ∧ OnlyLink s t n ∧ t.dev.relays = d.relays
          ∧ t.dev.port n = { x with txSpare := x.txSpare ++ [⟨lane.toNat, old, w, k, true⟩] }
          ∧ t.dev.get (LINK_TXMAP_wstate n) = setBits tx (2 * w) 2 2 ∧ t.dev.get (LINK_TXMAP_lane n) = d.get (LINK_TXMAP_lane n)
          ∧ t.dev.out = .symbol n 0x0A (BitVec.ofNat 40 (lane.toNat + w * 2 ^ 4 + k / 2 ^ 8 * 2 ^ 9)) :: d.out)
    ∧ (∀ (lane : BitVec 4) (cw : BitVec 32), exec (.laneSpareTrigger p lane false cw) s = .next ⟨s.pending, d.emit (.symbol n 0x09 (BitVec.ofNat 40 lane.toNat))⟩)
    ∧ (∀ (y : BitVec 40) (chk : BitVec 16) (cw : BitVec 32), symbolGood 0xA y chk = true →
      let lane := y.toNat % 16
      let w := y.toNat / 2 ^ 4 % 2 ^ 5
      let k := y.toNat / 2 ^ 9 % 2 ^ 24 * 2 ^ 8
      let old := d.get (LINK_RXMAP_lane n) / 2 ^ (5 * lane) % 2 ^ 5
      (∀ q ∈ x.rxSpare, q.lane ≠ lane) → old ≠ w → cw.toNat < k → w < 18 →
        ∃ t, exec (.swap p y chk cw) s = .next t ∧ OnlyLink s t n ∧ t.dev.relays = d.relays ∧ t.dev.out = d.out
          ∧ t.dev.port n = { x with rxSpare := x.rxSpare ++ [⟨lane, old, w, k, false⟩] } ∧ t.dev.get (LINK_RXMAP_wstate n) = setBits rx (2 * w) 2 2)
    ∧ (∀ (lane : BitVec 4) (q : Sparing), q.spare < 18 → q.old < 18 → q.lane < 16 →
      (x.rxSpare.find? (fun q => q.lane == lane.toNat) = some q → q.locked = true →
        ∃ t, exec (.swapAtK p lane) s = .next t ∧ OnlyLink s t n ∧ t.dev.relays = d.relays ∧ t.dev.out = d.out
          ∧ t.dev.port n = { x with rxSpare := x.rxSpare.erase q }
          ∧ t.dev.get (LINK_RXMAP_lane n) = setBits (d.get (LINK_RXMAP_lane n)) (5 * q.lane) 5 q.spare
          ∧ t.dev.get (LINK_RXMAP_wstate n) = setBits (setBits rx (2 * q.spare) 2 1) (2 * q.old) 2 3)
      ∧ (x.rxSpare.find? (fun q => q.lane == lane.toNat) = some q → q.locked = false →
        ∃ t, exec (.swapAtK p lane) s = .next t ∧ OnlyLink s t n ∧ t.dev.linkState n = 7 ∧ (t.dev.port n).before = d.linkState n
          ∧ t.dev.get (LINK_RXMAP_lane n) = d.get (LINK_RXMAP_lane n))
      ∧ (x.txSpare.find? (fun q => q.lane == lane.toNat) = some q →
        ∃ t, exec (.spareOldStop p lane) s = .next t ∧ OnlyLink s t n ∧ t.dev.relays = d.relays ∧ t.dev.out = d.out
          ∧ t.dev.port n = { x with txSpare := x.txSpare.erase q }
          ∧ t.dev.get (LINK_TXMAP_lane n) = setBits (d.get (LINK_TXMAP_lane n)) (5 * q.lane) 5 q.spare
          ∧ t.dev.get (LINK_TXMAP_wstate n) = setBits (setBits tx (2 * q.spare) 2 1) (2 * q.old) 2 3))

/-- On a live device of no data group, for a port it has: LINK_STATE_DONE leads from LOCK to TRAIN, from TRAIN with 16 locked rings and all lanes
ready to ALIGN, to DISCOVER, and from there, a DISCOVER received, to UP where the port map matches and otherwise to FENCED with reason 1, and from
REALIGN back; LINK_STATE_TIMEOUT leads from LOCK, TRAIN, ALIGN and DISCOVER to LOST; LOST_RETRY with 16 lit inputs leads to LOCK.  DISCOVER is
recorded and fences an UP port it does not match, or ends a wiring fence it does.  GOING_DOWN is recorded.  The first parts of an ASSAY are kept,
and a complete one of the running step that matches leaves the port as it was. -/
def Obligations.LinkStatesFollow : Prop :=
  ∀ (s : State) (p : BitVec 7), LivePort s p → s.dev.get WARD_ROSTER_n = 0 →
    let d := s.dev
    let n := p.toNat
    let x := d.port n
    let st := d.linkState n
    let lit := ((List.range 18).filter (fun w => bit (d.get (OPT_LASER_STAT_ok (n / 12))) w)).length
    (∀ rings : BitVec 18,
      (st = 1 → ∃ t, exec (.linkStateDone p rings) s = .next t ∧ OnlyLink s t n ∧ t.dev.linkState n = 2 ∧ t.dev.get (LINK_PEER_seen n) = 0
        ∧ (t.dev.port n).peerReady = 0)
      ∧ (st = 2 → 16 ≤ (lockedWaves rings).length → x.peerReady = 0xFFFF → ∃ t, exec (.linkStateDone p rings) s = .next t ∧ OnlyLink s t n
          ∧ t.dev.linkState n = 3 ∧ t.dev.get (LINK_RXMAP_lane n) = mapLanes rings % 2 ^ 80)
      ∧ (st = 2 → (lockedWaves rings).length < 16 ∨ x.peerReady ≠ 0xFFFF → exec (.linkStateDone p rings) s = .next s)
      ∧ (st = 3 → ∃ t y, exec (.linkStateDone p rings) s = .next t ∧ OnlyLink s t n ∧ t.dev.linkState n = 4 ∧ t.dev.out = .symbol n 0x08 y :: d.out)
      ∧ (st = 4 → d.get (LINK_PEER_seen n) = 1 → ∃ t, exec (.linkStateDone p rings) s = .next t ∧ OnlyLink s t n
          ∧ t.dev.linkState n = (if d.peerMatches n then 5 else 6) ∧ t.dev.get (LINK_STATE_fence n) = (if d.peerMatches n then 0 else 1)
          ∧ t.dev.port n = { Port.reset with peerReady := x.peerReady, reloaded := x.reloaded })
      ∧ (st = 7 → x.before < 16 → ∃ t, exec (.linkStateDone p rings) s = .next t ∧ OnlyLink s t n ∧ t.dev.linkState n = x.before
          ∧ (t.dev.port n).framed = true ∧ t.dev.out = (x.replay.map (fun w => Out.flit n w.2)).reverse ++ d.out))
    ∧ (st = 1 ∨ st = 2 ∨ st = 3 ∨ st = 4 → ∃ t, exec (.linkStateTimeout p) s = .next t ∧ OnlyLink s t n ∧ t.dev.linkState n = 8
        ∧ t.dev.get (LINK_STATE_fence n) = 0 ∧ t.dev.ports = d.ports ∧ t.dev.out = d.out)
    ∧ (st = 8 → 16 ≤ lit → ∃ t, exec (.lostRetry p) s = .next t ∧ OnlyLink s t n ∧ t.dev.linkState n = 1 ∧ t.dev.ports = d.ports ∧ t.dev.out = d.out)
    ∧ (st ≠ 8 ∨ lit < 16 → exec (.lostRetry p) s = .next s)
    ∧ (∀ (y : BitVec 40) (chk : BitVec 16), symbolGood 8 y chk = true → st ≠ 0 → st ≠ 8 →
        let v := y.toNat
        let fits := d.get (LINK_PORT_CFG_valid n) = 1 ∧ v / 2 ^ 33 % 2 = 1 ∧ v % 2 ^ 18 = d.get (LINK_PORT_CFG_peer_dev n)
          ∧ v / 2 ^ 18 % 2 ^ 7 = d.get (LINK_PORT_CFG_peer_port n)
        (st ≠ 5 ∨ fits → ∃ t, exec (.discover p y chk) s = .next t ∧ OnlyLink s t n ∧ t.dev.ports = d.ports ∧ t.dev.out = d.out
          ∧ t.dev.get (LINK_PEER_devnum n) = v % 2 ^ 18 ∧ t.dev.get (LINK_PEER_port n) = v / 2 ^ 18 % 2 ^ 7
          ∧ t.dev.get (LINK_PEER_grade n) = v / 2 ^ 25 % 2 ^ 8 ∧ t.dev.get (LINK_PEER_valid n) = v / 2 ^ 33 % 2 ∧ t.dev.get (LINK_PEER_seen n) = 1
          ∧ t.dev.linkState n = if st = 6 ∧ d.get (LINK_STATE_fence n) = 1 ∧ fits then 5 else st)
        ∧ (st = 5 → ¬fits → ∃ t, exec (.discover p y chk) s = .next t ∧ t.pending = s.pending ∧ t.dev.linkState n = 6
          ∧ t.dev.get (LINK_STATE_fence n) = 1 ∧ t.dev.get (LINK_PEER_seen n) = 1
          ∧ ∀ f < 128, d.get (LINK_FLOW_valid n f) = 1 → t.dev.get (LINK_FLOW_gone n f) = 1))
    ∧ (∀ (y : BitVec 40) (chk : BitVec 16), symbolGood 7 y chk = true → st ≠ 0 → st ≠ 8 →
        ∃ t, exec (.goingDown p y chk) s = .next t ∧ t.pending = s.pending ∧ t.dev.get (LINK_STATE_down n) = y.toNat % 16
          ∧ (t.dev.port n).goingDown = true ∧ t.dev.linkState n = st ∧ ∀ f < 128, d.get (LINK_FLOW_valid n f) = 1 → t.dev.get (LINK_FLOW_gone n f) = 1)
    ∧ (∀ (y : BitVec 40) (chk : BitVec 16), symbolGood 6 y chk = true → st ≠ 0 → st ≠ 8 →
        let i := y.toNat % 4
        let tag := y.toNat / 2 ^ 2 % 2 ^ 6
        let part := BitVec.ofNat 32 (y.toNat / 2 ^ 8)
        (x.partTag ≠ tag → ∃ t, exec (.assay p y chk) s = .next t ∧ OnlyLink s t n ∧ t.dev.regs = d.regs ∧ t.dev.out = d.out
          ∧ t.dev.port n = { x with partTag := tag, parts := [(i, some part)] })
        ∧ (x.partTag = tag → st = 5 → d.get (LINK_PORT_CFG_valid n) = 1 → tag = d.get WARD_STEP_NOW_step % 64 →
          (∀ j < 4, j ≠ i → Tab.get (fun _ => none) x.parts j = some (BitVec.ofNat 32 (d.get (LINK_ASSAY_bytes j)))) →
          part.toNat = d.get (LINK_ASSAY_bytes i) →
          ∃ t, exec (.assay p y chk) s = .next t ∧ OnlyLink s t n ∧ t.dev.linkState n = 5 ∧ t.dev.get (LINK_ASSAY_ST_match n) = 1
            ∧ t.dev.get (LINK_ASSAY_ST_held n) = 0 ∧ t.dev.get (LINK_ASSAY_ST_tag n) = tag ∧ t.dev.port n = { x with parts := [] } ∧ t.dev.out = d.out))

/-! Clerks. -/

/-- On a live device: a PREQ packet at a Clerk's port with fewer than 64 requests queued and no reason to refuse it joins the queue; with 64 queued
nothing changes; one of a job that is being torn down is refused with reason 1 and no error; a packet of another type is absorbed.  CLERK_FAIL,
CLERK_WATCHDOG with a limit set and a request held, and a CLERK_SELF_CHECK that reports a fault mark a Clerk whose partner works failed, with one
record CLERK_FAIL, and show both states.  A self-check that passes marks a failed Clerk passed, and CLERK_TAKEBACK with nothing in service ends the
failure.  No memory and no core changes. -/
def Obligations.ClerksTakeRequestsAndFail : Prop :=
  ∀ (s : State), Live s →
    let d := s.dev
    (∀ (p : Packet) (k : Nat), d.clerkOf p = some k →
      (p.type = 4 → (d.clerk k).queue.length < 64 → d.reqReason k p = 0 →
        ∃ t, exec (.clerkRequest p) s = .next t ∧ t.pending = s.pending ∧ t.dev.clerk k = { d.clerk k with queue := (d.clerk k).queue ++ [p] }
          ∧ (∀ j, j ≠ k → t.dev.clerk j = d.clerk j) ∧ t.dev.flight = d.flight.erase p
          ∧ t.dev.get (CLERK_STAT_queued k) = (d.clerk k).queue.length + 1
          ∧ { t.dev with clerks := d.clerks, flight := d.flight, regs := d.regs } = d)
      ∧ (p.type = 4 → 64 ≤ (d.clerk k).queue.length → exec (.clerkRequest p) s = .next s)
      ∧ (p.type = 4 → (d.clerk k).queue.length < 64 → d.ending p.job = true →
        ∃ t, exec (.clerkRequest p) s = .next t ∧ t.pending = s.pending ∧ t.dev.get (CLERK_STAT_reason k) = 1
          ∧ t.dev.get (CLERK_STAT_refused k) = min (d.get (CLERK_STAT_refused k) + 1) 255 ∧ t.dev.flight = d.flight.erase p
          ∧ { t.dev with flight := d.flight, regs := d.regs } = d)
      ∧ (p.type ≠ 4 → ∃ t, exec (.clerkRequest p) s = .next t ∧ t.pending = s.pending ∧ t.dev.flight = d.flight.erase p
          ∧ t.dev.get ERRAND_STAT_absorbed = sat ERRAND_STAT_absorbed.w (d.get ERRAND_STAT_absorbed + 1)
          ∧ { t.dev with flight := d.flight, regs := d.regs } = d))
    ∧ (∀ (k : BitVec 4), let n := k.toNat
      ((d.clerk n).failed = false → (d.clerk (n ^^^ 1)).failed = false →
        ∀ i, (i = Instr.clerkFail k ∨ i = .clerkSelfCheck k false
            ∨ (i = .clerkWatchdog k ∧ d.get (CLERK_CFG_watchdog n) ≠ 0 ∧ (d.clerk n).queue ≠ [])) →
          ∃ t, exec i s = .next t ∧ t.pending = s.pending ∧ t.dev.clerk n = { d.clerk n with failed := true, passed := false }
            ∧ (∀ j, j ≠ n → t.dev.clerk j = d.clerk j) ∧ t.dev.get (CLERK_STAT_state n) = 2 ∧ t.dev.get (CLERK_STAT_state (n ^^^ 1)) = 3
            ∧ t.dev.get ERR_STAT_seq = (d.get ERR_STAT_seq + 1) % 2 ^ 32
            ∧ t.dev.get (ERR_REC_record (t.dev.get ERR_STAT_seq % 256)) % 2 ^ 16 = 0x0042
            ∧ (i = .clerkFail k → t.dev.get (CLERK_CFG_fail n) = 1) ∧ t.dev.hbm = d.hbm ∧ t.dev.cores = d.cores ∧ t.dev.flight = d.flight)
      ∧ ((d.clerk n).failed = true →
          ∃ t, exec (.clerkSelfCheck k true) s = .next t ∧ t.pending = s.pending ∧ t.dev.clerk n = { d.clerk n with passed := true }
            ∧ t.dev.get (CLERK_CFG_fail n) = 0 ∧ { t.dev with clerks := d.clerks, regs := d.regs } = d)
      ∧ ((d.clerk n).failed = true → (d.clerk n).passed = true → (d.clerk n).run = none →
          ∃ t, exec (.clerkTakeback k) s = .next t ∧ t.pending = s.pending ∧ t.dev.clerk n = { d.clerk n with failed := false, passed := false }
            ∧ (∀ j, j ≠ n → t.dev.clerk j = d.clerk j) ∧ { t.dev with clerks := d.clerks, regs := d.regs } = d))

/-- On a live device, for the head request of a served Clerk with nothing in service: one of a job being torn down leaves with reason 1; UPDATE that
passes its checks starts with row 0, or, skipped, posts its fence and writes nothing, or waits for the verdict; SCAN counts the elements that are
not finite and writes nothing; NORM writes its result bytes, and EXPORT its record, at eva in one page and nothing else.  CLERK_ROW_COMMIT of a row
without poison counts it, and the last one posts the fence and ends the request.  No core changes. -/
def Obligations.ClerksRunRequests : Prop :=
  ∀ (s : State) (k : BitVec 4) (p : Packet), Live s →
    let d := s.dev
    let n := k.toNat
    let rest := (d.clerk n).queue.tail
    let fence := fun (ctx : Nat) (e : BitVec 1024) => (⟨n / 2, ctx, BitVec.ofNat 12 (Shard.ofBits e).fence, (reqStep p).truncate 16⟩ : FencePost)
    (∀ i ∈ [(Instr.update k, 0x21), (.scan k, 0x22), (.norm k, 0x23), (.exportRecord k, 0x24)], d.clerkHead n i.2 = some p → d.ending p.job = true →
      ∃ t, exec i.1 s = .next t ∧ t.pending = s.pending ∧ t.dev.clerk n = { d.clerk n with queue := rest }
        ∧ t.dev.get (CLERK_STAT_reason n) = 1 ∧ { t.dev with clerks := d.clerks, regs := d.regs } = d)
    ∧ (∀ ctx e, d.clerkCheck n p = .inr (ctx, e) →
      let base := d.clerkBase n ctx
      let sh := Shard.ofBits e
      (d.clerkHead n 0x21 = some p →
        (d.skipState p = .run → ∃ t r, exec (.update k) s = .next t ∧ t.pending = s.pending ∧ t.dev.clerk n = { d.clerk n with run := some r }
            ∧ r.ctx = ctx ∧ r.ent = e ∧ t.dev.get (CLERK_PROG_rows n) = 0 ∧ { t.dev with clerks := d.clerks, regs := d.regs } = d)
        ∧ (d.skipState p = .skip → ∃ t, exec (.update k) s = .next t ∧ t.pending = s.pending ∧ t.dev.clerk n = { d.clerk n with queue := rest }
            ∧ t.dev.posts = d.posts ++ [fence ctx e] ∧ t.dev.hbm = d.hbm ∧ t.dev.cores = d.cores)
        ∧ (d.skipState p = .wait → exec (.update k) s = .next s))
      ∧ (d.clerkHead n 0x22 = some p → d.cohReady base (streamSpans e 3) [] = true →
        let vs := (List.range sh.count).map (fun i => d.streamValue base e 3 i)
        (∀ v ∈ vs, v.2 = false) →
          ∃ t, exec (.scan k) s = .next t ∧ t.pending = s.pending ∧ (t.dev.clerk n).queue = rest ∧ t.dev.hbm = d.hbm ∧ t.dev.cores = d.cores
            ∧ t.dev.get (CLERK_CNT_nf_grad (d.serverOf n))
                = min (d.get (CLERK_CNT_nf_grad (d.serverOf n)) + (vs.filter (fun v => notFinite v.1)).length) 65535)
      ∧ (d.clerkHead n 0x23 = some p → d.cohReady base (d.reqSpans n ctx p e).1 (d.reqSpans n ctx p e).2 = true →
        let size := normLength sh (d.clerkProgram (reqSel p))
        reqEva p % 2 ^ 21 + size ≤ 2 ^ 21 →
          ∃ t bs, exec (.norm k) s = .next t ∧ t.pending = s.pending ∧ (t.dev.clerk n).queue = rest ∧ bs.length = size
            ∧ t.dev.hbm = Memory.writeBytes d.hbm (d.translate base (reqEva p)) bs ∧ t.dev.cores = d.cores ∧ t.dev.posts = d.posts)
      ∧ (d.clerkHead n 0x24 = some p → d.cohReady base (d.reqSpans n ctx p e).1 (d.reqSpans n ctx p e).2 = true →
        let pay := d.exportPayload base e (reqSel p)
        let bs := d.exportRecord p e pay.1
        pay.2 = false → reqEva p % 2 ^ 21 + bs.length ≤ 2 ^ 21 →
          ∃ t, exec (.exportRecord k) s = .next t ∧ t.pending = s.pending ∧ (t.dev.clerk n).queue = rest
            ∧ t.dev.hbm = Memory.writeBytes d.hbm (d.translate base (reqEva p)) bs ∧ t.dev.cores = d.cores ∧ t.dev.posts = d.posts))
    ∧ (∀ (r : ClerkRun), (d.clerk n).queue.head? = some p → (d.clerk n).run = some r → d.served n = true →
      let sh := Shard.ofBits r.ent
      let base := d.clerkBase n r.ctx
      let prog := d.clerkProgram sh.prog
      let b := programBody prog
      let row := d.get (CLERK_PROG_rows n)
      let e1 := min sh.count (16 * row + 16)
      let loads := progLoads b ++ (if b.any (fun w => opOf w == 0x13 || opOf w == 0x14) then [2] else [])
      d.cohReady base (rowSpans r.ent loads (16 * row) e1) (rowSpans r.ent (progStores b) (16 * row) e1) = true →
      (∀ i, i < e1 - 16 * row → let l := d.runLane base r.ent r.consts prog ⟨[], [], []⟩ (16 * row + i)
        l.gradPoison = false ∧ l.statePoison = false) →
        ∃ t, exec (.clerkRowCommit k) s = .next t ∧ t.pending = s.pending ∧ t.dev.get (CLERK_PROG_rows n) = (row + 1) % 2 ^ 32
          ∧ t.dev.cores = d.cores ∧ (∀ j, j ≠ n → t.dev.clerk j = d.clerk j)
          ∧ (t.dev.clerk n).queue = (if e1 = sh.count then rest else (d.clerk n).queue)
          ∧ ((t.dev.clerk n).run = none ↔ e1 = sh.count)
          ∧ t.dev.posts = (if e1 = sh.count then d.posts ++ [fence r.ctx r.ent] else d.posts))

/-! Broker complexes. -/

/-- On a live device, for a complex and a line that it may hold: RdS or RdO of a line without an entry, in a set with room, makes the complex its
sharer or owner; RdS of a shared line adds it; RdO of a line with other holders waits with a snoop to each of them under way.  A holder's eviction
goes into its buffer.  A snoop is answered from the eviction buffer while the line is there, else with an owner's dirty data.  When nothing waits
at home, an eviction or an answer that reaches it writes its data, unless the other came first, and takes the complex out of the entry (or makes
the owner a sharer).  WB_ACK that no snoop precedes frees the buffer entry. -/
def Obligations.CoherenceServesAndSnoops : Prop :=
  ∀ (s : State) (c : BitVec 2) (l : BitVec 34), Live s →
    let d := s.dev
    let n := c.toNat
    let line := l.toNat
    let quiet := d.coh.waits = [] ∧ d.windowed = []
    (d.brokerLine n line = true → d.evicting n line = none → d.crossing n line = false → d.snooping line = false →
      (∀ w ∈ d.coh.waits, ¬ (w.cpx = n ∧ w.line = line)) → ∀ i ∈ [(Instr.rdS c l, false), (.rdO c l, true)],
        (d.dirEntry line = none → (d.dirSet line).length < 16 →
          ∃ t, exec i.1 s = .next t ∧ t.pending = s.pending
            ∧ t.dev.dirEntry line = some ⟨if i.2 then some n else none, if i.2 then [] else [n], d.coh.allocs⟩
            ∧ (∀ x, x ≠ line → t.dev.dirEntry x = d.dirEntry x)
            ∧ { t.dev with coh := { t.dev.coh with dir := d.coh.dir, allocs := d.coh.allocs } } = d)
        ∧ (∀ e, d.dirEntry line = some e → e.owner = none → e.sharers.contains n = false → i.2 = false →
          ∃ t, exec i.1 s = .next t ∧ t.pending = s.pending ∧ t.dev.dirEntry line = some ⟨none, e.sharers ++ [n], e.stamp⟩
            ∧ (∀ x, x ≠ line → t.dev.dirEntry x = d.dirEntry x) ∧ { t.dev with coh := { t.dev.coh with dir := d.coh.dir } } = d)
        ∧ (i.2 = true → (d.holders line).filter (· != n) ≠ [] → (d.holders line).contains n = false →
          ∃ t, exec i.1 s = .next t ∧ t.pending = s.pending ∧ t.dev.coh.waits = d.coh.waits ++ [⟨line, n, true⟩]
            ∧ (∀ x ∈ d.holders line, x ≠ n → t.dev.crossing x line = true)
            ∧ { t.dev with coh := { t.dev.coh with waits := d.coh.waits, snoops := d.coh.snoops } } = d))
    ∧ (∀ (data : RowData), ∀ i ∈ [(Instr.evictC c l false, (none : Option RowData)), (.evictD c l data false, some data)],
      (d.holders line).contains n = true → d.evicting n line = none → (d.coh.buffer.filter (fun e => e.cpx == n)).length < 32 →
      (i.2.isSome → (d.dirEntry line).bind (fun e => e.owner) = some n) →
        ∃ t, exec i.1 s = .next t ∧ t.pending = s.pending ∧ t.dev.coh = { d.coh with buffer := d.coh.buffer ++ [⟨n, line, i.2, false, false⟩] }
          ∧ { t.dev with coh := d.coh, regs := d.regs } = d)
    ∧ (∀ (dirty : Option RowData), ∀ i ∈ [(Instr.snpS c l dirty, false), (.snpI c l dirty, true)],
      d.coh.snoops.contains ⟨line, n, i.2⟩ = true →
        let data := match d.evicting n line with
          | some e => e.data
          | none => if (d.dirEntry line).bind (fun e => e.owner) = some n then dirty else none
        exec i.1 s = .next { s with dev := { d with coh := { d.coh with
          snoops := d.coh.snoops.erase ⟨line, n, i.2⟩, replies := d.coh.replies ++ [⟨⟨line, n, i.2⟩, data⟩] } } })
    ∧ (∀ r, quiet → d.coh.replies.find? (fun r => r.snoop.cpx == n && r.snoop.line == line) = some r → d.coh.stale.contains r.snoop = false →
        ∃ t, exec (.snoopResponse c l) s = .next t ∧ t.pending = s.pending ∧ t.dev.coh.replies = d.coh.replies.erase r
          ∧ t.dev.hbm = (match r.data with | some v => Memory.writeN d.hbm (line * 64) 64 v.toNat | none => d.hbm)
          ∧ (r.snoop.inval = true → (t.dev.holders line).contains n = false)
          ∧ (r.snoop.inval = false → (d.dirEntry line).bind (fun e => e.owner) = some n → t.dev.holders line = [n])
          ∧ t.dev.cores = d.cores ∧ t.dev.regs = d.regs)
    ∧ (∀ r, d.coh.replies.find? (fun r => r.snoop.cpx == n && r.snoop.line == line) = some r → d.coh.stale.contains r.snoop = true →
        exec (.snoopResponse c l) s = .next { s with dev := { d with coh := { d.coh with
          replies := d.coh.replies.erase r, stale := d.coh.stale.erase r.snoop } } })
    ∧ (∀ e data, quiet → d.evicting n line = some e → e.home = false →
        ∀ i ∈ [(Instr.evictC c l true, false), (.evictD c l data true, true)], e.data.isSome = i.2 →
          ∃ t, exec i.1 s = .next t ∧ t.pending = s.pending
            ∧ t.dev.hbm = (match e.data with | some v => if e.used then d.hbm else Memory.writeN d.hbm (line * 64) 64 v.toNat | none => d.hbm)
            ∧ (t.dev.holders line).contains n = false ∧ t.dev.coh.acks = d.coh.acks ++ [(n, line)] ∧ t.dev.cores = d.cores)
    ∧ (d.coh.acks.contains (n, line) = true → d.coh.snoops.any (fun x => x.line == line && x.cpx == n) = false →
        ∃ t, exec (.wbAck c l) s = .next t ∧ t.pending = s.pending ∧ t.dev.evicting n line = none
          ∧ t.dev.coh.acks = d.coh.acks.erase (n, line) ∧ { t.dev with coh := d.coh, regs := d.regs } = d)

/-- On a live device: ERRAND_SEND sends a packet of a bound job with the complex's source fields, and sets dropped on any other.
INPUT_ENTRY_READY writes the entry into one page and counts up the counter of each core.  An orchestrator message that is not kept only leaves;
ABSENT makes a position absent from the smallest step heard of, and a second absence ends the job; REJOIN of the absent position fixes the
rejoin step; ACCEPT loads plan 0 for its step; NFSUM adds a child's value, and at the root the total decides; VERDICT decides the step.
TELEMETRY_COPY sends a latched account and releases it, or the last receipt. -/
def Obligations.BrokersSendAndCoordinate : Prop :=
  ∀ (s : State), Live s →
    let d := s.dev
    (∀ (h : BitVec 6),
      let p := packetOf (d.get (BRK_ESEND_head h.toNat))
        [BitVec.ofNat 128 (d.get (BRK_ESEND_pay0 h.toNat)), BitVec.ofNat 128 (d.get (BRK_ESEND_pay1 h.toNat))]
      let bad := (p.type ≠ 3 ∧ p.type ≠ 4) ∨ p.job = 0 ∨ (d.bound (h.toNat / 16)).contains p.job.toNat = false
        ∨ (p.type = 4 ∧ p.dstUnit = 2 ∧ d.memoryPort p = false)
      let r := d.corner (h.toNat / 16)
      ∃ t, exec (.errandSend h) s = .next t ∧ t.pending = s.pending ∧ t.dev.get (BRK_ESEND_go h.toNat) = 0
        ∧ (bad → t.dev.get (BRK_ESEND_dropped h.toNat) = 1 ∧ t.dev.flight = d.flight)
        ∧ (¬ bad → t.dev.flight = d.flight ++ [{ p with srcX := BitVec.ofNat 8 r.1, srcY := BitVec.ofNat 8 r.2, srcUnit := 2,
                                                         srcSub := BitVec.ofNat 4 (2 + h.toNat / 4 % 4) }])
        ∧ { t.dev with flight := d.flight, regs := d.regs } = d)
    ∧ (∀ (x : InputEntry) (j : Job) (cpx : Nat), d.job x.job = some j → d.loaderOf x.job j.gen = some cpx →
      x.step.toNat ≤ d.get WARD_STEP_NOW_step + 1 → inputVa x % 2 ^ 21 + (entryBytes x).length ≤ 2 ^ 21 →
        let r := d.corner cpx
        ∃ t, exec (.inputEntryReady x) s = .next t ∧ t.pending = s.pending
          ∧ t.dev.hbm = Memory.writeBytes d.hbm (d.translate j.table (inputVa x)) (entryBytes x)
          ∧ t.dev.flight = d.flight ++ x.cores.map (fun c => servicePacket 0x03 r.1 r.2 2 2 c 0 x.job j.gen (x.ctr.toNat + 2 ^ 6) [])
          ∧ { t.dev with hbm := d.hbm, hbmPoison := d.hbmPoison, flight := d.flight } = d)
    ∧ (∀ i ∈ [(Instr.absent, 1), (.rejoin, 2), (.accept, 3), (.nfsum, 4), (.verdict, 5)], ∀ m r, d.orchMessage i.2 = some (m, r) →
        d.orchGood m r = false → exec i.1 s = .next { s with dev := { d with svc := d.svc.erase m } })
    ∧ (∀ m r, d.orchMessage 1 = some (m, r) → d.orchGood m r = true → rowAt r 11 1 < 64 →
      (d.get WARD_ROSTER_absent_valid = 0 ∨ d.get WARD_ROSTER_absent = rowAt r 11 1 →
        ∃ t, exec .absent s = .next t ∧ t.pending = s.pending ∧ t.dev.svc = d.svc.erase m ∧ t.dev.member (rowAt r 11 1) = 2
          ∧ t.dev.get WARD_ROSTER_absent_valid = 1 ∧ t.dev.get WARD_ROSTER_absent = rowAt r 11 1
          ∧ t.dev.get WARD_ROSTER_eff_step = (if d.get WARD_ROSTER_absent_valid = 1 then min (rowStep r).toNat (d.get WARD_ROSTER_eff_step)
              else (rowStep r).toNat)
          ∧ t.dev.hbm = d.hbm ∧ t.dev.jobs = d.jobs)
      ∧ (∀ j, d.get WARD_ROSTER_absent_valid = 1 → d.get WARD_ROSTER_absent ≠ rowAt r 11 1 → d.job (rowJob r) = some j → j.phase = .live →
        ∃ t j', exec .absent s = .next t ∧ t.pending = s.pending ∧ t.dev.svc = d.svc.erase m ∧ t.dev.job (rowJob r) = some j'
          ∧ j'.phase = .drain ∧ j'.hold = (d.get ERR_CFG_hold == 1)))
    ∧ (∀ m r j, d.orchMessage 2 = some (m, r) → d.orchGood m r = true → d.job (rowJob r) = some j → d.get WARD_ROSTER_absent_valid = 1 →
      d.get WARD_ROSTER_absent = rowAt r 2 1 →
        ∃ t, exec .rejoin s = .next t ∧ t.pending = s.pending ∧ t.dev.svc = d.svc.erase m ∧ t.dev.member (rowAt r 2 1) = 3
          ∧ t.dev.job (rowJob r) = some { j with rejoin := some (j.rejoinStep (rowStep r)) } ∧ t.dev.hbm = d.hbm ∧ t.dev.cores = d.cores)
    ∧ (∀ m r j, d.orchMessage 3 = some (m, r) → d.orchGood m r = true → d.job (rowJob r) = some j →
        ∃ t, exec .accept s = .next t ∧ t.pending = s.pending ∧ t.dev.svc = d.svc.erase m ∧ t.dev.hbm = d.hbm
          ∧ t.dev.job (rowJob r) = some { j with nextPlan := some (0, rowStep r), rejoin := some (rowStep r), pause := false })
    ∧ (∀ m r j im, d.orchMessage 4 = some (m, r) → d.orchGood m r = true → d.job (rowJob r) = some j → j.image = some im →
      (j.sum (rowStep r)).ports.contains m.port = false →
        let total := min ((j.sum (rowStep r)).total + rowAt r 12 8) (2 ^ 64 - 1)
        let last := (j.sum (rowStep r)).own = true ∧ im.children ≤ (j.sum (rowStep r)).ports.length + 1
        (¬ last → ∃ t, exec .nfsum s = .next t ∧ t.pending = s.pending
          ∧ t.dev.job (rowJob r) = some (j.setSum ⟨rowStep r, total, (j.sum (rowStep r)).ports ++ [m.port], (j.sum (rowStep r)).own⟩)
          ∧ { t.dev with svc := d.svc, jobs := d.jobs } = d)
        ∧ (last → im.parent = none → d.verdictOf (rowStep r) = 0 →
          ∃ t, exec .nfsum s = .next t ∧ t.pending = s.pending ∧ t.dev.verdictOf (rowStep r) = (if d.get CLERK_SKIP_threshold < total then 2 else 1)
            ∧ t.dev.hbm = d.hbm ∧ t.dev.cores = d.cores))
    ∧ (∀ m r j, d.orchMessage 5 = some (m, r) → d.orchGood m r = true → d.job (rowJob r) = some j → rowAt r 12 8 = 1 ∨ rowAt r 12 8 = 2 →
        ∃ t, exec .verdict s = .next t ∧ t.pending = s.pending
          ∧ t.dev.verdictOf (rowStep r) = (if d.verdictOf (rowStep r) = 0 then rowAt r 12 8 else d.verdictOf (rowStep r))
          ∧ t.dev.hbm = d.hbm ∧ t.dev.cores = d.cores)
    ∧ (∀ c, d.logical c = true → (d.core c).get CORE_ACCT_HDR_valid = 1 →
        ∃ t, exec (.telemetryCopy (some c)) s = .next t ∧ t.pending = s.pending
          ∧ t.dev.out = .datagram (some c.key) 164 (d.core c).account :: d.out ∧ (t.dev.core c).get CORE_ACCT_HDR_valid = 0
          ∧ (∀ x, x ≠ c → t.dev.core x = d.core x) ∧ { t.dev with cores := d.cores, out := d.out } = d)
    ∧ (∀ j, d.job d.gateJob = some j → d.get WARD_RCPT_HEAD_count ≠ 0 → d.get WARD_RCPT_CFG_en = 1 →
        exec (.telemetryCopy none) s = .next { s with dev := d.emit (.datagram none 512 (d.virtRead j.table
          (d.get WARD_RCPT_BASE_va * 512 + (d.get WARD_RCPT_HEAD_count - 1) % 2 ^ d.get WARD_RCPT_CFG_log2n * 512) 512).1) })

/-! Command queues. -/

/-- On a live device.  COMMAND_FETCH takes the next command of a host ring: one whose checks pass joins the pending commands, one that fails them
or finds its queue at the limit has its reply, and a JOB_KILL ends the generation of its job.  COMMAND_START of a command that may start sets its
work going, hands it to a free service slot, or, without its resources, makes it wait or replies NO_RESOURCE; RESOURCE_GRANT starts the first
waiting command whose resources are free; COMMAND_TIMEOUT replies TIMEOUT; DELEGATE_RESULT replies and frees the slot.  WARDEN_HEARTBEAT counts a
millisecond and shows the active Warden alive; WARDEN_TAKEOVER makes the lowest live standby active and ends the started commands. -/
def Obligations.CommandsAreFetchedAndStarted : Prop :=
  ∀ (s : State), Live s →
    let d := s.dev
    (∀ (x : BitVec 512) (q : Nat), d.naenoRuns = true → d.nextQueue = some q → HostRing d q →
      let v := x.toNat
      let c : Cmd := ⟨d.fetched, BitVec.ofNat 6 q, BitVec.ofNat 512 (bits v 0 (8 * (16 + 4 * min (bits v 24 8) 12))), .fetched, none, 0⟩
      let head := (d.get (WARD_Q_head q) + 1) % 2 ^ d.get (WARD_Q_log2n q)
      let full := max 1 (d.get (WARD_Q_limit q)) ≤ d.get (WARD_Q_pending q)
      (¬ full → d.headerCheck c = none → c.opcode ≠ 0x0304 →
        ∃ t, exec (.commandFetch x) s = .next t ∧ t.pending = s.pending ∧ t.dev.cmds = d.cmds ++ [c] ∧ t.dev.fetched = d.fetched + 1
          ∧ t.dev.get (WARD_Q_head q) = head ∧ t.dev.get (WARD_Q_pending q) = d.get (WARD_Q_pending q) + 1
          ∧ { t.dev with cmds := d.cmds, fetched := d.fetched, regs := d.regs, out := d.out, lastServed := d.lastServed } = d)
      ∧ (∀ j, ¬ full → d.headerCheck c = none → c.opcode = 0x0304 → d.job c.job = some j →
        ∃ t j', exec (.commandFetch x) s = .next t ∧ t.pending = s.pending ∧ t.dev.cmd d.fetched ≠ none ∧ t.dev.job c.job = some j'
          ∧ j'.phase = .stop ∧ j'.killer = some d.fetched ∧ t.dev.get WARD_KILL_STAT_phase = 1
          ∧ ∀ y ∈ t.dev.cmds, y.job = c.job → y.n ≠ d.fetched → y.phase ≠ .fetched ∧ y.phase ≠ .waiting ∧ y.phase ≠ .launched)
      ∧ (∀ bad, (full ∧ bad = (1, 1)) ∨ (¬ full ∧ d.headerCheck c = some bad) →
        ∃ t e, exec (.commandFetch x) s = .next t ∧ Replied s t e c bad.1 bad.2 0 ∧ e.cmds = d.cmds ∧ e.get (WARD_Q_head q) = head
          ∧ { e with regs := d.regs, out := d.out, fetched := d.fetched, lastServed := d.lastServed } = d))
    ∧ (∀ (c : Cmd), d.cmd c.n = some c → c.phase = .fetched → d.mayStart c = true → d.get (WARD_Q_loc c.queue.toNat) ≠ 2 →
      (d.lacks c = none → d.delegable c = false →
        exec (.commandStart c.n) s = .next { s with dev := d.setPhase c.n .started })
      ∧ (d.lacks c = none → d.delegable c = true → d.delegateSlots ≠ [] →
        ∃ t i, exec (.commandStart c.n) s = .next t ∧ t.pending = s.pending ∧ i ∈ d.delegateSlots
          ∧ t.dev.cmds = (d.setPhase c.n (.delegated i)).cmds
          ∧ Tab.get (fun _ => Slot.reset) t.dev.slots i = { Slot.reset with use := some (.command c.n), mail := [.command c.raw] }
          ∧ { t.dev with cmds := d.cmds, slots := d.slots, regs := d.regs, freeCtr := d.freeCtr } = d)
      ∧ (∀ cls, d.lacks c = some cls → c.flag 1 = true →
        ∃ t, exec (.commandStart c.n) s = .next t ∧ t.pending = s.pending ∧ t.dev.cmds = (d.setPhase c.n .waiting).cmds
          ∧ t.dev.waiters = (if d.waiters.contains c.n then d.waiters else d.waiters ++ [c.n])
          ∧ { t.dev with cmds := d.cmds, waiters := d.waiters } = d)
      ∧ (∀ cls, d.lacks c = some cls → c.flag 1 = false → HostRing d c.queue.toNat →
        ∃ t, exec (.commandStart c.n) s = .next t ∧ Replied s t d c 4 cls 0))
    ∧ (∀ c, d.waiters.findSome? (fun n => (d.cmd n).bind (fun c => if (d.lacks c).isNone then some c else none)) = some c →
      d.delegable c = false → exec .resourceGrant s = .next { s with dev :=
        { d.setPhase c.n .started with waiters := d.waiters.filter (· != c.n) } })
    ∧ (∀ (c : Cmd), d.cmd c.n = some c → HostRing d c.queue.toNat →
      (c.timeout ≠ 0 → c.phase = .fetched ∨ c.phase = .waiting →
        ∃ t, exec (.commandTimeout c.n) s = .next t ∧ Replied s t d c 0xB c.timeout 0)
      ∧ (∀ j, c.timeout ≠ 0 → c.phase = .launched → d.job c.job = some j →
        ∃ t e, exec (.commandTimeout c.n) s = .next t ∧ Replied s t e c 0xB c.timeout 0 ∧ e.job c.job = some { j with launch := none }
          ∧ (d.gateJob = c.job → e.get WARD_STEP_GATE_pending = 0) ∧ { e with jobs := d.jobs, regs := d.regs } = d)
      ∧ (∀ i status detail result, c.phase = .delegated i → c.opcode ≠ 0x0601 → c.opcode ≠ 0x0304 → d.killing c.job = false →
        ∃ t, exec (.delegateResult c.n status detail result) s = .next t
          ∧ Replied s t (d.setSlot i none) c status.toNat detail.toNat result.toNat
          ∧ (Tab.get (fun _ => Slot.reset) t.dev.slots i).use = none))
    ∧ (d.naenoRuns = true →
      (∃ t, exec .wardenHeartbeat s = .next t ∧ t.pending = s.pending ∧ t.dev.ms = d.ms + 1
        ∧ bit (t.dev.get WARD_ACTIVE_alive) (d.get WARD_ACTIVE_die) = true
        ∧ t.dev.get WARD_LOAD_busy = Config.freeValue d.freeCtr % 2 ^ 10 ∧ t.dev.hbm = d.hbm ∧ t.dev.cores = d.cores
        ∧ ((d.ms + 1) % 1000 ≠ 0 → { t.dev with ms := d.ms, freeCtr := d.freeCtr, regs := d.regs } = d))
      ∧ (∀ die, (List.range 4).find? (bit (setBits (d.get WARD_ACTIVE_alive) (d.get WARD_ACTIVE_die) 1 0)) = some die →
        ∃ t, exec .wardenTakeover s = .next t ∧ t.pending = s.pending ∧ t.dev.get WARD_ACTIVE_die = die
          ∧ t.dev.get WARD_ACTIVE_takeovers = min (d.get WARD_ACTIVE_takeovers + 1) 255 ∧ t.dev.alert = d.alert ||| 8
          ∧ (∀ c ∈ t.dev.cmds, c.phase ≠ .started) ∧ t.dev.get ERR_STAT_seq = (d.get ERR_STAT_seq + 1) % 2 ^ 32))

/-- For a command of a host queue that Naeno works on: NOP, DEV_INFO, SET_DEVNUM, QUOTA_SET and WIN_SET change what R336 names and are answered;
WARM_RESET is BUSY while a job exists and it is not forced, else answers and leaves no job, command or core state; MEM_ALLOC maps the granted
pages in the page table and writes nothing else; MEM_FREE unmaps the mapped pages of the range, which read as zero; MEM_FILL and MEM_COPY, on
spans of one mapped page, write the pattern and the source's bytes, and nothing else. -/
def Obligations.DeviceAndMemoryCommands : Prop :=
  ∀ (s : State) (c : Cmd),
    let d := s.dev
    (Working s c 0x0000 → ∃ t, exec (.nop c.n) s = .next t ∧ Replied s t d c 0 0 0)
    ∧ (Working s c 0x0001 → ∃ t, exec (.devInfo c.n) s = .next t ∧ Replied s t (d.put WARD_ACTIVE_takeovers 0) c 0 0
        (d.reg FUSE_GRADE_grade.key % 2 ^ 32 + d.devnum.toNat * 2 ^ 32 + d.firmware.toNat * 2 ^ 64 + d.reg WARD_ACTIVE_die.key % 2 ^ 32 * 2 ^ 128))
    ∧ (Working s c 0x0002 →
        (d.jobIds = [] → ∃ t, exec (.setDevnum c.n) s = .next t ∧ Replied s t { d with devnum := BitVec.ofNat 18 (c.par 0 4) } c 0 0 0)
        ∧ (d.jobIds ≠ [] → ∃ t, exec (.setDevnum c.n) s = .next t ∧ Replied s t d c 1 3 0))
    ∧ (Working s c 0x0003 →
        (d.jobIds ≠ [] → bit (c.par 0 4) 1 = false → ∃ t, exec (.warmReset c.n) s = .next t ∧ Replied s t d c 1 3 0)
        ∧ (d.jobIds = [] ∨ bit (c.par 0 4) 1 = true →
          ∃ t, exec (.warmReset c.n) s = .next t ∧ t.pending = s.pending ∧ t.dev.naenoRuns = false ∧ t.dev.jobs = [] ∧ t.dev.cores = []
            ∧ t.dev.cmds = [] ∧ t.dev.fuse = d.fuse ∧ t.dev.flash = d.flash ∧ t.dev.alert = d.alert ∧ t.dev.pcie = d.pcie
            ∧ (bit (c.par 0 4) 0 = false → t.dev.hbm = [])
            ∧ Out.hostWrite (d.get (WARD_Q_func c.queue.toNat)) ((d.get (WARD_Q_rbase c.queue.toNat) + d.get (WARD_Q_rindex c.queue.toNat) * 32)
                % 2 ^ 64) 32 (replyBytes c.tag 0 0 0) ∈ t.dev.out))
    ∧ (∀ j, d.job c.job = some j →
        let first := c.par 0 4
        let pages := d.freePages (c.par 8 1) (c.par 4 4)
        (Working s c 0x0101 → ∀ p ps, d.lacks c = none → d.allocError c j = none → pages = p :: ps →
          d.allOn ((List.range 8).map (· + 80) |>.filter (fun n => pages.any (fun p => d.stackDomain p == n))) = true →
          ∃ t e, exec (.memAlloc c.n) s = .next t ∧ Replied s t e c 0 0 p ∧ e.job c.job = some { j with pages := j.pages ++ pages }
            ∧ (∀ i n, pages[i]? = some n → Memory.readN e.hbm (j.table + 8 * (first + i)) 8
                = pteWord c.job (bit (c.par 8 4) 8) (bit (c.par 8 4) 9) (bit (c.par 8 4) 10) (n / d.usablePages) (n % d.usablePages))
            ∧ (∀ a, a < j.table + 8 * first ∨ j.table + 8 * (first + pages.length) ≤ a → Memory.read e.hbm a = Memory.read d.hbm a)
            ∧ { e with hbm := d.hbm, hbmPoison := d.hbmPoison, jobs := d.jobs } = d)
        ∧ (Working s c 0x0101 → ∀ x, d.lacks c = none → d.allocError c j = some x →
          ∃ t, exec (.memAlloc c.n) s = .next t ∧ Replied s t d c x.1 x.2 0)
        ∧ (Working s c 0x0102 →
          let vs := (List.range (min (first + c.par 4 4) (2 ^ 19) - first)).map (· + first) |>.filter (fun v => (d.pte j.table v).valid)
          let freed := vs.map (fun v => (d.pte j.table v).stack * d.usablePages + (d.pte j.table v).page)
          ∃ t e, exec (.memFree c.n) s = .next t ∧ Replied s t e c 0 0 0
            ∧ e.job c.job = some { j with pages := j.pages.filter (fun p => !(freed.contains p)) }
            ∧ (∀ v ∈ vs, Memory.readN e.hbm (j.table + 8 * v) 8 = 0)
            ∧ (∀ p ∈ freed, ∀ i, i < 2 ^ 21 → Memory.read e.hbm (d.pageAddr p + i) = 0) ∧ e.cores = d.cores)
        ∧ (Working s c 0x0103 → d.mapped c.job j (c.par 0 8) (c.par 8 8) = true → c.par 0 8 % 2 ^ 21 + c.par 8 8 ≤ 2 ^ 21 → c.par 8 8 ≠ 0 →
          ∃ t e, exec (.memFill c.n) s = .next t ∧ Replied s t e c 0 0 0
            ∧ e.hbm = Memory.writeBytes d.hbm (d.translate j.table (c.par 0 8))
                ((List.range (c.par 8 8)).map (fun i => BitVec.ofNat 8 (bits (c.par 16 8) (8 * (i % 8)) 8)))
            ∧ { e with hbm := d.hbm, hbmPoison := d.hbmPoison } = d)
        ∧ (Working s c 0x0104 → d.mapped c.job j (c.par 0 8) (c.par 16 8) = true → d.mapped c.job j (c.par 8 8) (c.par 16 8) = true →
          c.par 0 8 % 2 ^ 21 + c.par 16 8 ≤ 2 ^ 21 → c.par 8 8 % 2 ^ 21 + c.par 16 8 ≤ 2 ^ 21 → c.par 16 8 ≠ 0 →
          ∃ t e, exec (.memCopy c.n) s = .next t ∧ Replied s t e c 0 0 0
            ∧ e.hbm = Memory.writeBytes d.hbm (d.translate j.table (c.par 8 8)) (Memory.bytes d.hbm (d.translate j.table (c.par 0 8)) (c.par 16 8))
            ∧ { e with hbm := d.hbm, hbmPoison := d.hbmPoison } = d)
        ∧ (Working s c 0x0106 → ∃ t, exec (.quotaSet c.n) s = .next t
            ∧ Replied s t (d.setJob c.job (some { j with quota := c.par 0 4 })) c 0 0 j.pages.length))
    ∧ (Working s c 0x0105 → c.par 0 4 < 16 → c.par 8 4 < 2 ^ 16 →
        (∀ i, i < c.par 8 4 → (d.functionPages (c.par 0 4)).contains (c.par 4 4 + i) = true) →
          ∃ t, exec (.winSet c.n) s = .next t
            ∧ Replied s t ((d.put (PCIE_WIN_start (c.par 0 4)) (c.par 4 4)).put (PCIE_WIN_pages (c.par 0 4)) (c.par 8 4)) c 0 0 0)

/-- For a command of a host queue that Naeno works on: JOB_CREATE makes the job of WARD_JOB_NEXT and answers its ID and generation; IMAGE_LOAD of an
image that passes the checks loads it on its cores; JOB_START and STEP_LAUNCH that pass theirs leave the launch pending and unanswered, and are BUSY
while one is pending; STEP_VERDICT decides a step that has no verdict; JOB_KILL stops every core of the job; JOB_RELEASE of a held job begins its
scrub; JOB_STATUS reports the step, or the RANK_FAULT; CORE_RESET of an idle core resets it; PLAN_LOAD sets the next plan. -/
def Obligations.JobCommands : Prop :=
  ∀ (s : State) (c : Cmd),
    let d := s.dev
    (Working s c 0x0201 → d.lacks c = none → (∀ n ∈ d.tablePlaces, d.allOn [d.stackDomain n] = true) →
      let id : BitVec 16 := BitVec.ofNat 16 (d.get WARD_JOB_NEXT_id)
      let gen := d.get WARD_JOB_NEXT_gen
      let halls : BitVec 16 := BitVec.ofNat 16 (c.par 4 2)
      ∃ t e page, exec (.jobCreate c.n) s = .next t ∧ Replied s t e c 0 0 (id.toNat + gen * 2 ^ 16) ∧ page ∈ d.tablePlaces
        ∧ e.job id = some (Job.create (BitVec.ofNat 8 gen) c.queue (d.get (WARD_Q_a2 c.queue.toNat) == 1) (c.par 0 4) halls
            (d.pageAddr page) (d.hallPower halls.toNat))
        ∧ (∀ x, x ≠ id → e.job x = d.job x) ∧ e.hbm = d.hbm ∧ e.cores = d.cores)
    ∧ (∀ j, d.job c.job = some j →
      (∀ img, Working s c 0x0202 → c.img = none →
        let manifest := (d.virtBytes j.table (c.par 16 8) (c.par 24 4)).1
        (∀ x, d.imageError c.job j img manifest = some x →
          ∃ t, exec (.imageLoad c.n img) s = .next t ∧ Replied s t d c x.1 x.2 0)
        ∧ (d.imageError c.job j img manifest = none → d.lacks { c with img := some img } = none → d.allOn (imageDomains img) = true →
          d.inFlight c.job j.gen = false →
            ∃ t e j', exec (.imageLoad c.n img) s = .next t ∧ Replied s t e c 0 0 (ofBytes ((sha256 img.bytes).take 16))
              ∧ e.job c.job = some j' ∧ j'.image = some img ∧ j'.variant = 0 ∧ j'.plan = 0 ∧ j'.fresh = true
              ∧ j'.digest = BitVec.ofNat 256 (ofBytes (sha256 manifest))
              ∧ (∀ x, j'.ctx = some x → j.ctx = some x ∨ x ∈ d.freeCtxs c.job) ∧ j'.ctx ≠ none
              ∧ (∀ l, img.sets.find? (fun l => l.variant == 0 && l.plan == 0) = some l →
                  ∀ x ∈ l.cores, (e.core x.core).image.present = true ∧ (e.core x.core).job = c.job)))
      ∧ (∀ first im, j.image = some im →
        let i := if first then Instr.jobStart c.n else .stepLaunch c.n
        let off := if first then 8 else 4
        let step : BitVec 32 := BitVec.ofNat 32 (c.par (if first then 4 else 0) 4)
        let dyn := (List.range 7).map (fun i => c.par (off + 2 * i) 2)
        Working s c (if first then 0x0301 else 0x0302) →
          (j.launch.isSome → ∃ t, exec i s = .next t ∧ Replied s t (d.bump WARD_STEP_REFUSED_count 1) c 1 2 0)
          ∧ (j.launch = none → first = false → step ≠ j.step + 1 → ∃ t, exec i s = .next t ∧ Replied s t d c 3 16 0)
          ∧ (∀ v, j.launch = none → (first = false → step = j.step + 1) → selectVariant im dyn (16 + off) = .inr v →
            (d.planMissing j step = true → ∃ t, exec i s = .next t ∧ Replied s t (d.bump WARD_STEP_REFUSED_count 1) c 1 3 0)
            ∧ (d.planMissing j step = false →
              ∃ t, exec i s = .next t ∧ t.pending = s.pending ∧ t.dev.job c.job = some { j with
                  launch := some ⟨c.n, first, step, dyn.map (BitVec.ofNat 16), v⟩,
                  seed := if first then BitVec.ofNat 32 (c.par 0 4) else j.seed, starts := if first then 0 else j.starts }
                ∧ t.dev.cmds = (d.setPhase c.n .launched).cmds ∧ t.dev.get WARD_STEP_GATE_pending = 1 ∧ t.dev.gateJob = c.job
                ∧ { t.dev with jobs := d.jobs, cmds := d.cmds, regs := d.regs, slots := d.slots, gateJob := d.gateJob } = d)))
      ∧ (Working s c 0x0304 → j.phase = .live ∨ j.phase = .stop →
          ∃ t j', exec (.jobKill c.n) s = .next t ∧ t.pending = s.pending ∧ t.dev.job c.job = some j' ∧ j'.phase = .drain
            ∧ j'.hold = bit (c.par 0 4) 0 ∧ j'.killer = some c.n ∧ j'.launch = none
            ∧ t.dev.get WARD_KILL_STAT_phase = 2 ∧ ∀ x ∈ d.jobCores c.job, (t.dev.core x).run = .reset)
      ∧ (Working s c 0x0305 →
        (j.phase = .held → ∃ t, exec (.jobRelease c.n) s = .next t ∧ t.pending = s.pending
            ∧ t.dev.job c.job = some { j with phase := .sram, killer := some c.n } ∧ { t.dev with jobs := d.jobs, regs := d.regs } = d)
        ∧ (j.phase ≠ .held → ∃ t, exec (.jobRelease c.n) s = .next t ∧ Replied s t d c 3 6 0))
      ∧ (Working s c 0x0306 →
        (∀ x, j.firstFault = some (x, 6) → ∃ t, exec (.jobStatus c.n) s = .next t ∧ Replied s t d c 0xD (x.x.toNat + 256 * x.y.toNat) 0)
        ∧ ((∀ x, j.firstFault ≠ some (x, 6)) → ∃ t r, exec (.jobStatus c.n) s = .next t ∧ Replied s t d c 0 0 r ∧ r % 2 ^ 32 = j.step.toNat
            ∧ (j.firstFault = none → r < 2 ^ 96)))
      ∧ (Working s c 0x0307 →
        let x : CoreId := ⟨BitVec.ofNat 8 (c.par 1 1), BitVec.ofNat 8 (c.par 2 1)⟩
        c.par 0 1 = 0 → (d.jobCores c.job).contains x = true → c.stage = 0 → (d.core x).inj = [] → (d.core x).send = none → j.running = false →
          ∃ t e, exec (.coreReset c.n) s = .next t ∧ Replied s t e c 0 0 0 ∧ (e.core x).run = .reset ∧ (e.core x).pc = (d.core x).pc
            ∧ (∀ y, y ≠ x → e.core y = d.core y) ∧ e.jobs = d.jobs ∧ e.hbm = d.hbm)
      ∧ (Working s c 0x0308 →
        let known := j.image.any (fun im => im.sets.any (fun l => l.plan.toNat == c.par 0 1))
        (known = false → ∃ t, exec (.planLoad c.n) s = .next t ∧ Replied s t d c 3 16 0)
        ∧ (known = true → ∃ t, exec (.planLoad c.n) s = .next t
            ∧ Replied s t (d.setJob c.job (some { j with nextPlan := some (c.par 0 1, BitVec.ofNat 32 (c.par 4 4)) })) c 0 0 0)))
    ∧ (Working s c 0x0303 →
        (d.get CLERK_SKIP_ext = 0 → ∃ t, exec (.stepVerdict c.n) s = .next t ∧ Replied s t d c 3 16 0)
        ∧ (d.get CLERK_SKIP_ext = 1 → c.par 4 4 = 1 ∨ c.par 4 4 = 2 →
          let step : BitVec 32 := BitVec.ofNat 32 (c.par 0 4)
          ∃ t e, exec (.stepVerdict c.n) s = .next t ∧ Replied s t e c 0 0 0
            ∧ e.verdictOf step = (if d.verdictOf step = 0 then c.par 4 4 else d.verdictOf step)
            ∧ { e with verdicts := d.verdicts, regs := d.regs } = d))

/-- For a command of a host queue that Naeno works on: LINK_UP takes the masked enabled ports in OFF of engines that are ON to LOCK and no other;
LINK_DOWN is BUSY while a masked port is configured, else takes the masked ports to OFF; FLOW_LOAD loads the flows of a port; LINK_STATUS and
PWR_STATUS answer what they read; TEL_SNAPSHOT writes its bytes at its address and nothing else; TEL_ERRORS counts the open errors, or replies
STALE_GEN; PWR_CAP clamps the cap; PWR_DOMAIN refuses a domain, a state or a holder, else begins the change and replies at its end. -/
def Obligations.LinkTelemetryAndPowerCommands : Prop :=
  ∀ (s : State) (c : Cmd),
    let d := s.dev
    (Working s c 0x0401 → ∃ t e, exec (.linkUp c.n) s = .next t ∧ Replied s t e c 0 0 0
        ∧ (∀ p, p < 96 → e.linkState p = (if bit (c.par 0 12) p = true ∧ d.portOn p = true ∧ d.linkState p = 0 ∧ d.dom (88 + p / 12) = 0 then 1
            else d.linkState p)) ∧ { e with regs := d.regs } = d)
    ∧ (Working s c 0x0402 →
        let masked := fun p => p < 96 ∧ bit (c.par 0 12) p = true ∧ d.portOn p = true
        ((∃ p, masked p ∧ d.get (LINK_PORT_CFG_valid p) = 1) → ∃ t, exec (.linkDown c.n) s = .next t ∧ Replied s t d c 1 3 0)
        ∧ ((∀ p, masked p → d.get (LINK_PORT_CFG_valid p) = 0) →
          ∃ t, exec (.linkDown c.n) s = .next t ∧ t.pending = s.pending ∧ t.dev.cmd c.n = none ∧ (∀ p, masked p → t.dev.linkState p = 0)
            ∧ ((∀ p, masked p → d.carries p = false ∧ d.linkState p ≠ 7) →
              ∃ e, Replied s t e c 0 0 0 ∧ (∀ p, p < 96 → ¬ masked p → e.linkState p = d.linkState p) ∧ { e with regs := d.regs } = d)))
    ∧ (∀ j l, d.job c.job = some j → j.set = some l → Working s c 0x0403 → d.portOn (c.par 0 1) = true →
        (∃ x ∈ l.flows, x.port.toNat = c.par 0 1) →
          ∃ t e, exec (.flowLoad c.n) s = .next t ∧ Replied s t e c 0 0 0
            ∧ (∀ x ∈ l.flows, x.port.toNat = c.par 0 1 → e.get (LINK_FLOW_gone (c.par 0 1) x.flow.toNat) = 0)
            ∧ { e with regs := d.regs, relays := d.relays, ports := d.ports } = d)
    ∧ (Working s c 0x0404 →
        (96 ≤ c.par 0 1 → ∃ t, exec (.linkStatus c.n) s = .next t ∧ Replied s t d c 3 16 0)
        ∧ (c.par 0 1 < 96 → ∃ t e r, exec (.linkStatus c.n) s = .next t ∧ Replied s t e c 0 0 r
            ∧ bits r (LINK_STATE_state (c.par 0 1)).lo (LINK_STATE_state (c.par 0 1)).w = d.linkState (c.par 0 1)
            ∧ { e with regs := d.regs } = d))
    ∧ (Working s c 0x0501 →
        (bits (c.par 8 4) 20 11 ≠ 0 → ∃ t, exec (.telSnapshot c.n) s = .next t ∧ Replied s t d c 3 24 0)
        ∧ (bits (c.par 8 4) 20 11 = 0 →
          let bs := d.snapshotBytes (c.par 8 4)
          (d.physOk (c.par 0 8) bs.length = false → ∃ t, exec (.telSnapshot c.n) s = .next t ∧ Replied s t d c 3 16 0)
          ∧ (d.physOk (c.par 0 8) bs.length = true → ∃ t e, exec (.telSnapshot c.n) s = .next t ∧ Replied s t e c 0 0 bs.length
              ∧ e.hbm = Memory.writeBytes d.hbm (c.par 0 8) bs ∧ { e with hbm := d.hbm, hbmPoison := d.hbmPoison } = d)))
    ∧ (Working s c 0x0502 →
        (d.staleSum ≠ 0 → ∃ t, exec (.telErrors c.n) s = .next t ∧ Replied s t d.clearStale c 8 d.staleSum 0)
        ∧ (d.staleSum = 0 → ∃ t r, exec (.telErrors c.n) s = .next t ∧ Replied s t d c 0 0 r ∧ bits r 0 16 = d.get ERR_OPEN_corrected
            ∧ bits r 16 16 = d.get ERR_OPEN_deferred ∧ bits r 32 16 = d.get ERR_OPEN_step_lost ∧ bits r 48 16 = d.get ERR_OPEN_job_lost
            ∧ bits r 64 16 = d.get ERR_STAT_device_lost ∧ bits r 80 16 = d.lastError))
    ∧ (Working s c 0x0801 →
        let cap := max (d.get PWR_CAP_CFG_min) (min (c.par 0 2) 3600)
        ∃ t, exec (.pwrCap c.n) s = .next t ∧ Replied s t (d.put PWR_CAP_CFG_cap cap) c 0 0 cap)
    ∧ (Working s c 0x0802 →
        let n := c.par 0 1
        let st := c.par 1 1
        (101 < n → ∃ t, exec (.pwrDomain c.n) s = .next t ∧ Replied s t d c 3 16 0)
        ∧ (n ≤ 101 → 3 < st ∨ domSupports n st = false → ∃ t, exec (.pwrDomain c.n) s = .next t ∧ Replied s t d c 3 17 0)
        ∧ (n ≤ 101 → st ≤ 3 → domSupports n st = true →
          (d.domHeld n = true → ∃ t, exec (.pwrDomain c.n) s = .next t ∧ Replied s t d c 1 3 0)
          ∧ (d.domHeld n = false → (∀ m ∈ d.movesOf n, m.2 ≠ some c.n) →
            ∃ t, exec (.pwrDomain c.n) s = .next t ∧ t.pending = s.pending ∧ t.dev.movesOf n = d.movesOf n ++ [(st, some c.n)]
              ∧ t.dev.get (PWR_DOM_busy n) = 1 ∧ t.dev.dom n = d.dom n ∧ { t.dev with moves := d.moves, regs := d.regs } = d)))
    ∧ (Working s c 0x0803 → ∃ t r, exec (.pwrStatus c.n) s = .next t ∧ Replied s t d c 0 0 r ∧ bits r 0 16 = d.get PWR_STAT_power
        ∧ bits r 16 16 = d.get PWR_CAP_CFG_cap ∧ bits r 32 16 = d.get PWR_THERM_hottest)

/-- For a command of a host queue that Naeno works on: FLASH_WRITE, OVERLAY_LOAD, OWNER_KEY_SET and BROKER_IMAGE refuse an object that is no usable
memory or fails its check, and else store it (a Broker image runs in each complex of the mask, or leaves it in reset when there is no room);
DBG_CHALLENGE answers a free value and keeps it; DBG_RESPONSE unlocks its job or is refused, and the challenge is used up; DBG_READ and DBG_WRITE copy
between a space and the job's memory, or are refused; CKPT_EXPORT closes the gate, sends its EXPORTs, and stores the records and opens the gate;
STATE_IMPORT is BUSY in a running step, refuses a bad record, and writes a good one. -/
def Obligations.SecurityDebugAndStateCommands : Prop :=
  ∀ (s : State) (c : Cmd),
    let d := s.dev
    (∀ i ∈ [(Instr.overlayLoad c.n, 0x0902), (.ownerKeySet c.n, 0x0904)], d.object c = none → Working s c i.2 →
        ∃ t, exec i.1 s = .next t ∧ Replied s t d c 3 16 0)
    ∧ (Working s c 0x0901 →
        (c.par 12 1 = 0 ∨ 7 < c.par 12 1 → ∃ t, exec (.flashWrite c.n) s = .next t ∧ Replied s t d c 3 28 0)
        ∧ (∀ bs, 0 < c.par 12 1 → c.par 12 1 ≤ 7 → d.object c = some bs →
          (∀ x, d.regionCheck (c.par 12 1) bs = some x → ∃ t, exec (.flashWrite c.n) s = .next t ∧ Replied s t d c 0xA x 0)
          ∧ (d.regionCheck (c.par 12 1) bs = none → ∃ t e, exec (.flashWrite c.n) s = .next t ∧ Replied s t e c 0 0 0
              ∧ e.region (c.par 12 1) = bs ∧ (∀ r, r ≠ c.par 12 1 → e.region r = d.region r) ∧ { e with flash := d.flash, regs := d.regs } = d)))
    ∧ (∀ bs, d.object c = some bs →
        (Working s c 0x0902 →
          (∀ x, d.overlayCheck bs = some x → ∃ t, exec (.overlayLoad c.n) s = .next t
            ∧ Replied s t d c (if x.1 < 4 then 0xA else 3) (if x.1 < 4 then 3 else x.2) 0)
          ∧ (d.overlayCheck bs = none → ∃ t e, exec (.overlayLoad c.n) s = .next t ∧ Replied s t e c 0 0 0 ∧ e.region 4 = bs
              ∧ e.overlay = d.overlay ∧ { e with flash := d.flash, regs := d.regs } = d))
        ∧ (Working s c 0x0904 →
          (∀ x, d.certificateCheck bs = some x → ∃ t, exec (.ownerKeySet c.n) s = .next t ∧ Replied s t d c 0xA x 0)
          ∧ (d.certificateCheck bs = none → ∃ t e, exec (.ownerKeySet c.n) s = .next t ∧ Replied s t e c 0 0 0 ∧ e.region 5 = bs
              ∧ e.get SEC_ARB_owner = max (d.get SEC_ARB_owner) (at_ bs 8 4) ∧ { e with flash := d.flash, regs := d.regs } = d))
        ∧ (Working s c 0x0903 → c.par 12 1 < 16 →
          (∀ x, d.brokerCheck bs = some x → ∃ t, exec (.brokerImage c.n) s = .next t ∧ Replied s t d c 0xA x 0)
          ∧ (d.brokerCheck bs = none → (∃ x, x < 4 ∧ bit (c.par 12 1) x = true ∧ d.jobSlot x = true) →
              ∃ t, exec (.brokerImage c.n) s = .next t ∧ Replied s t d c 1 3 0)
          ∧ (d.brokerCheck bs = none → (∀ x, x < 4 → bit (c.par 12 1) x = true → d.jobSlot x = false ∧ d.allOn [96 + x] = true) →
              (∀ y ∈ d.cmds, ∀ i, y.phase ≠ .delegated i) →
              ∃ t e, exec (.brokerImage c.n) s = .next t ∧ Replied s t e c 0 0 0 ∧ e.cores = d.cores ∧ e.jobs = d.jobs
                ∧ ∀ x, x < 4 → bit (c.par 12 1) x = true → e.get (BRK_CPX_STAT_state x) = 0
                    ∨ (e.get (BRK_CPX_STAT_state x) = 1 ∧ e.get (BRK_CPX_STAT_svn x) = at_ bs 8 4)))
        ∧ (Working s c 0x0704 →
          let used := d.challenge.filter (fun x => x.queue != c.queue)
          (∀ x, d.responseCheck c.queue bs = some x →
            ∃ t, exec (.dbgResponse c.n) s = .next t ∧ Replied s t { d with challenge := used } c x.1 x.2 0)
          ∧ (∀ j, d.responseCheck c.queue bs = none → d.job (BitVec.ofNat 16 (at_ bs 6 2)) = some j →
            ∃ t e, exec (.dbgResponse c.n) s = .next t ∧ Replied s t e c 0 0 0 ∧ e.challenge = used
              ∧ e.job (BitVec.ofNat 16 (at_ bs 6 2)) = some { j with unlock := some (at_ bs 4 1, at_ bs 12 4) }
              ∧ { e with jobs := d.jobs, challenge := d.challenge, regs := d.regs } = d)))
    ∧ (Working s c 0x0703 →
        let bytes : BitVec 128 := BitVec.ofNat 128 (Config.freeValue d.freeCtr)
        ∃ t e, exec (.dbgChallenge c.n) s = .next t ∧ Replied s t e c 0 0 bytes.toNat
          ∧ e.challenge = some ⟨bytes, if bit (c.par 0 4) 0 then 1 else 2, c.queue⟩
          ∧ { e with challenge := d.challenge, freeCtr := d.freeCtr } = d)
    ∧ (∀ j, d.job c.job = some j →
      (∀ i ∈ [(Instr.dbgRead c.n, 0x0701, false), (.dbgWrite c.n, 0x0702, true)], Working s c i.2.1 →
        (∀ x, d.dbgError c j i.2.2 = some x → ∃ t, exec i.1 s = .next t ∧ Replied s t d c x.1 x.2 0)
        ∧ (d.dbgError c j i.2.2 = none → ∃ t, exec i.1 s = .next t ∧ t.pending = s.pending ∧ t.dev.cmd c.n = none))
      ∧ (let x := dbgCore (c.par 4 8)
        let lo := bits (c.par 4 8) 0 24
        let here := d.translate j.table (c.par 16 8)
        c.par 0 1 = 0 → c.par 16 8 % 2 ^ 21 + c.par 12 4 ≤ 2 ^ 21 →
          (Working s c 0x0701 → d.dbgError c j false = none → ∃ t e, exec (.dbgRead c.n) s = .next t
            ∧ Replied s t e c 0 0 (ofBytes ((Memory.bytes (d.core x).mem lo (c.par 12 4)).take 16))
            ∧ e.hbm = Memory.writeBytes d.hbm here (Memory.bytes (d.core x).mem lo (c.par 12 4))
            ∧ { e with hbm := d.hbm, hbmPoison := d.hbmPoison } = d)
          ∧ (Working s c 0x0702 → d.dbgError c j true = none → ∃ t e, exec (.dbgWrite c.n) s = .next t ∧ Replied s t e c 0 0 0
            ∧ (e.core x).mem = Memory.writeBytes (d.core x).mem lo (Memory.bytes d.hbm here (c.par 12 4))
            ∧ (∀ y, y ≠ x → e.core y = d.core y) ∧ { e with cores := d.cores } = d))
      ∧ (∀ staging, Working s c 0x0601 →
        let xs := shardList (c.par 0 2) (c.par 2 2) staging
        let sel := bits (c.par 4 4) 0 2
        (c.stage = 0 → d.allHalted c.job = true → xs.length = c.par 2 2 → (∀ x ∈ xs, d.stages c.job j sel x = true) →
          ∃ t, exec (.ckptExport c.n staging none) s = .next t ∧ t.pending = s.pending ∧ t.dev.job c.job = some { j with shut := true }
            ∧ t.dev.flight = d.flight ++ xs.map (d.exportPacket c.job j sel) ∧ t.dev.hbm = d.hbm
            ∧ t.dev.cmds = (d.setStage c.n 1).cmds)
        ∧ (c.stage = 1 → d.exporting c.job = false →
          ∃ t, exec (.ckptExport c.n staging none) s = .next t ∧ t.pending = s.pending ∧ t.dev.job c.job = some { j with shut := false }
            ∧ t.dev.cmd c.n = none ∧ t.dev.hbm = d.hbm ∧ t.dev.flight = d.flight
            ∧ ∀ x ∈ xs, Out.stored (c.par 8 8) x.1
                (d.virtBytes j.table x.2.2.toNat (recordLength (d.shardEntry j x.2.1 x.1) sel)).1 ∈ t.dev.out))
      ∧ (∀ records, Working s c 0x0602 →
        (j.running = true → d.allHalted c.job = false → ∃ t, exec (.stateImport c.n records) s = .next t ∧ Replied s t d c 1 3 0)
        ∧ (∀ k bs, j.running = false → c.par 10 2 = 1 → records = [(k, bs)] →
          let e := d.shardEntry j k.toNat (c.par 8 2)
          (recordError e bs = some 4 → ∃ t, exec (.stateImport c.n records) s = .next t ∧ Replied s t d c 0xC (4 + c.par 8 2 * 2 ^ 16) 0)
          ∧ (recordError e bs = some 16 → ∃ t, exec (.stateImport c.n records) s = .next t ∧ Replied s t d c 3 16 0)
          ∧ (recordError e bs = none → ∃ t, exec (.stateImport c.n records) s = .next t
              ∧ Replied s t (d.importArray j.table e (at_ bs 7 1) ((bs.drop 128).take (at_ bs 76 8))) c 0 0 1))))

/-! Steps, kills, faults and remaps. -/

/-- On a live device, for a job: STEP_START does nothing while the gate is closed, and else starts every core of the job at index 0 with the step, a
zero rank stage offset, clear flags and registers g0 to g31 zero, shows the step, and answers the launch with the variant; before the first step the
fences of the job's context hold the step before it.  VARIANT_LOAD of a drained
job loads the set that the launch needs and starts nothing.  STEP_RESOLVE of a reset step whose Clerks, fences and turns are done ends the launch and
leaves no core counted.  STEP_RECEIPT of a step whose fences have posted writes 512 bytes in the ring and counts.  REJOIN_PAUSE at the last step
before the rejoin pauses the job. -/
def Obligations.StepsStartAndResolve : Prop :=
  ∀ (s : State) (id : BitVec 16) (j : Job), Live s → s.dev.job id = some j →
    let d := s.dev
    (∀ l set ck, j.launch = some l → j.set = some set →
      (d.gateOpen id j l = false → exec (.stepStart id ck) s = .next s)
      ∧ (∀ c, d.gateOpen id j l = true → d.cmd l.cmd = some c → c.opcode ≠ 0x0601 → HostRing d c.queue.toNat →
        (∀ x ∈ d.jobCores id, (d.core x).meFaulty = false) → (∀ p, p < 96 → d.get (LINK_ASSAY_ST_held p) = 0) →
          ∃ t j', exec (.stepStart id ck) s = .next t ∧ t.pending = s.pending ∧ t.dev.job id = some j' ∧ j'.step = l.step ∧ j'.running = true
            ∧ j'.launch = none ∧ j'.starts = j.starts + 1 ∧ t.dev.get WARD_STEP_NOW_step = l.step.toNat ∧ t.dev.gateJob = id
            ∧ t.dev.get WARD_STEP_GATE_pending = 0 ∧ t.dev.cmd c.n = none ∧ t.dev.hbm = d.hbm
            ∧ (∀ k x f, k < 8 → x < 8 → f < 4096 → j.ctx.getD 0 < 8 → t.dev.fence k x f =
                if l.first = true ∧ j.ctx.getD 0 = x then (l.step - 1).toNat % 2 ^ 16 else d.fence k x f)
            ∧ Out.hostWrite (d.get (WARD_Q_func c.queue.toNat)) ((d.get (WARD_Q_rbase c.queue.toNat)
                + d.get (WARD_Q_rindex c.queue.toNat) * 32) % 2 ^ 64) 32 (replyBytes c.tag 0 0 l.variant) ∈ t.dev.out
            ∧ (∀ x ∈ d.jobCores id, let k := t.dev.core x
                k.run = .run ∧ k.pc = 0 ∧ k.step = l.step ∧ k.wait = none ∧ k.fflags = 0 ∧ k.frm = 0
                ∧ (∀ r, k.gr r = 0) ∧ k.d = (d.core x).image.desc ∧ k.lfsr = coreSeed j.seed l.step x
                ∧ k.rank.toNat % 256 = (d.core x).image.rank.toNat % 256
                ∧ (l.first = false → (d.core x).run ≠ .reset → k.mem = (d.core x).mem ∧ k.c = (d.core x).c)
                ∧ (l.first = true → k.c = [] ∧ k.mem = onlyIm (d.core x).mem))
            ∧ ∀ x, x ∉ d.jobCores id → t.dev.core x = d.core x)
      ∧ (∀ im set2, j.image = some im → j.wasReset = false → j.loaded l = false → d.allHalted id = true → d.transferring id = false →
        im.sets.find? (fun x => x.variant.toNat == l.variant && x.plan.toNat == j.planFor l.step) = some set2 →
          ∃ t, exec (.variantLoad id) s = .next t ∧ t.pending = s.pending
            ∧ t.dev.job id = some { j with variant := l.variant, plan := j.planFor l.step, fresh := true }
            ∧ (∀ x ∈ set2.cores, (t.dev.core x.core).image.present = true ∧ (t.dev.core x.core).job = id)
            ∧ t.dev.get WARD_BUCKET_STAT_variant = l.variant % 16 ∧ t.dev.hbm = d.hbm ∧ t.dev.cmds = d.cmds))
    ∧ (j.wasReset = true → (∀ x ∈ d.jobCores id, (d.core x).run ≠ .faulted) → (∀ k, k < 16 → ∀ p ∈ (d.clerk k).queue, p.job ≠ id) →
        (∀ f ∈ j.fences, d.posted (j.ctx.getD 0) j.step f = true) → d.turnsDone j = true → j.launch = none →
          ∃ t, exec (.stepResolve id) s = .next t ∧ t.pending = s.pending
            ∧ t.dev.job id = some { j with launch := none, wasReset := false } ∧ t.dev.posts = d.posts ∧ t.dev.hbm = d.hbm
            ∧ ∀ x ∈ d.jobCores id, (t.dev.core x).counts = false)
    ∧ (∀ r, d.receipts.find? (fun r => r.job == id) = some r → r.jgen = j.gen →
        (∀ f ∈ r.fences, d.posted (j.ctx.getD 0) r.step f = true) → d.get WARD_ROSTER_n = 0 →
          let n := d.get WARD_RCPT_HEAD_count
          let va := d.get WARD_RCPT_BASE_va * 512 + n % 2 ^ d.get WARD_RCPT_CFG_log2n * 512
          ∃ t bs, exec (.stepReceipt id) s = .next t ∧ t.pending = s.pending ∧ bs.length = 512
            ∧ bs.take 4 = (toBytes 512 r.bytes.toNat).take 4 ∧ t.dev.hbm = Memory.writeBytes d.hbm (d.translate j.table va) bs
            ∧ t.dev.get WARD_RCPT_HEAD_count = (n + 1) % 2 ^ 32 ∧ t.dev.receipts = d.receipts.erase r ∧ t.dev.cores = d.cores)
    ∧ (∀ sends into r, j.rejoin = some r → j.step + 1 = r → d.allHalted id = true →
        (∀ f ∈ j.fences, d.posted (j.ctx.getD 0) j.step f = true) →
        ¬ (d.get WARD_ROSTER_absent_valid = 1 ∧ d.get WARD_ROSTER_absent = d.get WARD_ROSTER_pos) →
          ∃ t, exec (.rejoinPause id sends into) s = .next t ∧ t.pending = s.pending ∧ t.dev.job id = some { j with pause := true }
            ∧ t.dev.hbm = d.hbm ∧ t.dev.regs = d.regs)

/-- On a live device: KILL_DRAIN_END holds a drained job that is to be held, and else begins the SRAM scrub, after which WM, AM, PM and the job's tiers
read as zero, and the HBM scrub, after which its pages read as zero, the job is gone and its ID is quiet until QUIET_END.  A QUOTA_SET
that runs while its job is killed keeps its reply back.  CORE_FAULT_REPORT of a
faulted core takes the packet, records CORE_FAULT, makes the step lost when step skip is off, and under auto = 1 resets the core and records CORE_RESET.  REMAP of a core with
a faulty engine and a spare begins a remap, without a spare it records NO_SPARE, and REMAP_END hides the core's column, shows the spare's and clears
the fault. -/
def Obligations.KillsFaultsAndRemaps : Prop :=
  ∀ (s : State), Live s →
    let d := s.dev
    (∀ (id : BitVec 16) (j : Job), d.job id = some j →
      (j.phase = .drain → d.killDrained id j = true → (∀ y ∈ d.cmds, y.job = id → ∀ a b e, y.phase ≠ .done a b e) →
        (j.hold = true → j.killer = none → ∃ t, exec (.killDrainEnd id) s = .next t ∧ t.pending = s.pending
          ∧ t.dev.job id = some { j with phase := .held, killer := none } ∧ { t.dev with jobs := d.jobs, regs := d.regs } = d)
        ∧ (j.hold = false → ∃ t, exec (.killDrainEnd id) s = .next t ∧ t.pending = s.pending ∧ t.dev.job id = some { j with phase := .sram }
          ∧ { t.dev with jobs := d.jobs, regs := d.regs } = d))
      ∧ (j.phase = .sram → ∃ t, exec (.sramScrubEnd id) s = .next t ∧ t.pending = s.pending ∧ t.dev.job id = some { j with phase := .hbm }
          ∧ (∀ c ∈ d.jobCores id, ∀ r ∈ regions, r.1 ≠ 3 → (d.core c).offMask r.1 = false → ∀ a, r.2.1 ≤ a → a < r.2.1 + r.2.2 →
              Memory.read (t.dev.core c).mem a = 0)
          ∧ (∀ c, c ∉ d.jobCores id → t.dev.core c = d.core c) ∧ t.dev.hbm = d.hbm)
      ∧ (j.phase = .hbm → j.killer = none → ∃ t, exec (.hbmScrubEnd id) s = .next t ∧ t.pending = s.pending ∧ t.dev.job id = none
          ∧ (∀ x, x ≠ id → t.dev.job x = d.job x) ∧ t.dev.quiet = d.quiet ++ [id] ∧ t.dev.jobCores id = []
          ∧ ∀ p ∈ d.pageOf j.table :: (d.pageOf j.table + 1) :: j.pages, ∀ i, i < 2 ^ 21 → Memory.read t.dev.hbm (d.pageAddr p + i) = 0))
    ∧ (∀ (c : Cmd) (j : Job), d.cmd c.n = some c → c.opcode = 0x0106 → c.phase = .started → d.job c.job = some j → d.killing c.job = true →
        ∃ t, exec (.quotaSet c.n) s = .next t ∧ t.pending = s.pending ∧ t.dev.job c.job = some { j with quota := c.par 0 4 }
          ∧ t.dev.cmds = (d.setPhase c.n (.done 0 0 (BitVec.ofNat 192 j.pages.length))).cmds ∧ { t.dev with jobs := d.jobs, cmds := d.cmds } = d)
    ∧ (∀ id, exec (.quietEnd id) s = .next { s with dev := { d with quiet := d.quiet.filter (· != id) } })
    ∧ (∀ (p : Packet), p.type = 7 →
      let c : CoreId := ⟨p.srcX, p.srcY⟩
      let k := d.core c
      (k.run ≠ .faulted → exec (.coreFaultReport p) s = .next { s with dev := { d with flight := d.flight.erase p } })
      ∧ (d.logical c = true → k.run = .faulted → d.get CLERK_SKIP_en = 0 →
        let q := (d.get ERR_STAT_seq + 1) % 2 ^ 32
        let auto := d.get WARD_RESET_CFG_auto = 1
        ∃ t, exec (.coreFaultReport p) s = .next t ∧ t.pending = s.pending
          ∧ t.dev.get ERR_STAT_seq = (if auto then (q + 1) % 2 ^ 32 else q)
          ∧ t.dev.get (ERR_REC_record (q % 256)) % 2 ^ 24 = 0x30 + 3 * 2 ^ 16
          ∧ (auto → (t.dev.core c).run = .reset ∧ t.dev.get (ERR_REC_record ((q + 1) % 2 ^ 32 % 256)) % 2 ^ 24 = 0x31 + 3 * 2 ^ 16)
          ∧ (d.get WARD_RESET_CFG_auto = 0 → t.dev.cores = d.cores ∧ t.dev.flight = d.flight.erase p)
          ∧ (∀ j, d.job k.job = some j → k.job ≠ 0 → ∃ j', t.dev.job k.job = some j' ∧ j'.lost = (if auto then [k.step, k.step] else [k.step]) ++ j.lost
              ∧ j'.firstFault ≠ none ∧ (auto → j'.wasReset = true))))
    ∧ (∀ (c : CoreId), d.logical c = true → (d.core c).meFaulty = true → (d.core c).image.present = true →
      d.allHalted (d.core c).job = true → (∀ r ∈ d.remaps, r.core ≠ c) →
        let p := d.physOf c
        (∀ x, d.spareFor p.1 p.2 = some x → (∀ y ∈ d.movers c p.2 x, (d.core y).image.present = false ∨ (d.core y).job = (d.core c).job) →
          d.targeted (d.movers c p.2 x) = false →
            exec (.remap c) s = .next { s with dev := { d with remaps := d.remaps ++ [⟨p.1, p.2, x, c⟩] } })
        ∧ (d.spareFor p.1 p.2 = none → ∃ t, exec (.remap c) s = .next t ∧ t.pending = s.pending
            ∧ t.dev.get ERR_STAT_seq = (d.get ERR_STAT_seq + 1) % 2 ^ 32
            ∧ t.dev.get (ERR_REC_record (t.dev.get ERR_STAT_seq % 256)) % 2 ^ 16 = 0x34 ∧ { t.dev with regs := d.regs } = d))
    ∧ (∀ (row : BitVec 8) (r : Remap), row.toNat < 192 → d.remaps.filter (fun r => r.row == row.toNat) = [r] → r.bad < 50 → r.spare < 50 →
      r.bad ≠ r.spare →
        ∃ t, exec (.remapEnd row) s = .next t ∧ t.pending = s.pending ∧ bit (t.dev.get (MESH_ROWMAP_hidden r.row)) r.bad = true
          ∧ bit (t.dev.get (MESH_ROWMAP_hidden r.row)) r.spare = false ∧ bit (t.dev.get (MESH_ROWMAP_faulty r.row)) r.bad = true
          ∧ (t.dev.core r.core).meFaulty = false ∧ (∀ c, c ≠ r.core → t.dev.core c = d.core c)
          ∧ t.dev.remaps = d.remaps.filter (fun r => r.row != row.toNat) ∧ t.dev.hbm = d.hbm)

/-! Registers, boot and power. -/

/-- Outside reset: a write of PF0 to CLK_CORE changes target alone, one of a hart changes no register; a read of LINK_RETRY answers its counts and
clears them; a misaligned access of PF0 is an Unsupported Request that counts; ACCOUNT_RELEASE clears the account of the selected core; QUEUE_ENABLE
with good fields enables the queue and fills its PCIE_QMAP, and with class 3 or a bad size sets err and leaves it disabled; QUEUE_TAIL_WRITE of a
running hart writes the tail of a Broker queue; ERR_ACK closes every record up to its number; SCHEDULE_WINDOW_WRITE writes one slot word of a bank
that does not run, and nothing of one that does. -/
def Obligations.RegistersAnswerAndTake : Prop :=
  ∀ (s : State), Awake s →
    let d := s.dev
    let host := fun (a : Nat) => d.pcie.up = true ∧ d.bar0Serves a = true
    (∀ (v : BitVec 64), host 0x1030000 → ∃ t, exec (.registerWrite .pf0 0x1030000 false v) s = .next t ∧ t.pending = s.pending
        ∧ t.dev.get CLK_CORE_target = v.toNat % 2 ^ 12 ∧ t.dev.get CLK_CORE_current = d.get CLK_CORE_current
        ∧ t.dev.get CLK_CORE_floor = d.get CLK_CORE_floor ∧ (∀ a, a ≠ 0x1030000 → t.dev.reg a = d.reg a) ∧ { t.dev with regs := d.regs } = d)
    ∧ (∀ (h : BitVec 6) (v : BitVec 64), d.hartRuns h.toNat = true →
        ∃ t, exec (.registerWrite (.hart h) 0x1030000 false v) s = .next t ∧ t.pending = s.pending ∧ (∀ a, t.dev.reg a = d.reg a)
          ∧ { t.dev with regs := d.regs } = d)
    ∧ (∀ (a : BitVec 26) (p : Nat), p < 96 → a.toNat = 0x1100048 + p * 4096 →
        ∃ t v, exec (.rcRead .naeno a false) s = .next t ∧ t.pending = s.pending ∧ t.dev.out = .completion (some v) false :: d.out
          ∧ bits v 0 16 = d.get (LINK_RETRY_replays p) ∧ bits v 16 8 = d.get (LINK_RETRY_realigns p) ∧ t.dev.get (LINK_RETRY_replays p) = 0
          ∧ t.dev.get (LINK_RETRY_realigns p) = 0 ∧ t.dev.get (LINK_RETRY_tx_spares p) = d.get (LINK_RETRY_tx_spares p)
          ∧ { t.dev with regs := d.regs, out := d.out } = d)
    ∧ (∀ (a : BitVec 26) (wide : Bool) (v : BitVec 64), d.pcie.up = true → a.toNat % accessBytes wide ≠ 0 →
        ∀ i ∈ [Instr.registerWrite .pf0 a wide v, .rcRead .pf0 a wide],
          ∃ t, exec i s = .next t ∧ t.pending = s.pending ∧ t.dev.get PCIE_ERR_bad_acc = min (d.get PCIE_ERR_bad_acc + 1) 255
            ∧ t.dev.out = .completion none false :: d.out ∧ { t.dev with regs := d.regs, out := d.out } = d)
    ∧ (d.selValid 0 (d.selection .naeno 0) = true →
        let c := selCore (d.selection .naeno 0)
        ∃ t, exec (.accountRelease .naeno) s = .next t ∧ t.pending = s.pending ∧ (t.dev.core c).get CORE_ACCT_HDR_valid = 0
          ∧ (t.dev.core c).get CORE_ACCT_HDR_ovr = (d.core c).get CORE_ACCT_HDR_ovr
          ∧ (∀ x, x ≠ c → t.dev.core x = d.core x) ∧ { t.dev with cores := d.cores } = d)
    ∧ (∀ (q : BitVec 6) (v : BitVec 64), let n := q.toNat
        host (WARD_Q_en n).key → n < 48 → d.get (WARD_Q_en n) = 0 → bits v.toNat 0 1 = 1 → d.get (WARD_Q_cbase n) % 64 = 0 →
        d.get (WARD_Q_rbase n) % 64 = 0 → bits v.toNat 1 2 = 0 →
          ∃ t, exec (.queueEnable .pf0 q v) s = .next t ∧ t.pending = s.pending ∧ { t.dev with regs := d.regs } = d
            ∧ (bits v.toNat 3 2 = 3 → t.dev.get (WARD_Q_en n) = 0 ∧ t.dev.get (WARD_Q_err n) = 1)
            ∧ (bits v.toNat 3 2 ≠ 3 → bits v.toNat 6 4 < 4 ∨ 12 < bits v.toNat 6 4 → t.dev.get (WARD_Q_en n) = 0 ∧ t.dev.get (WARD_Q_err n) = 2)
            ∧ (bits v.toNat 3 2 ≠ 3 → 4 ≤ bits v.toNat 6 4 → bits v.toNat 6 4 ≤ 12 → t.dev.get (WARD_Q_en n) = 1
                ∧ t.dev.get (WARD_Q_err n) = 0 ∧ t.dev.get (WARD_Q_log2n n) = bits v.toNat 6 4 ∧ t.dev.get (PCIE_QMAP_valid n) = 1
                ∧ t.dev.get (PCIE_QMAP_func n) = bits v.toNat 10 4 ∧ t.dev.get (PCIE_QMAP_vector n) = bits v.toNat 14 6))
    ∧ (∀ (h q : BitVec 6) (tail : BitVec 16), d.hartRuns h.toNat = true → q.toNat < 48 → d.get (WARD_Q_loc q.toNat) = 1 →
        ∃ t, exec (.queueTailWrite h q tail) s = .next t ∧ t.pending = s.pending ∧ t.dev.get (WARD_Q_tail q.toNat) = tail.toNat
          ∧ t.dev.get (WARD_Q_head q.toNat) = d.get (WARD_Q_head q.toNat) ∧ (∀ a, a ≠ (WARD_Q_en q.toNat).key → t.dev.reg a = d.reg a)
          ∧ { t.dev with regs := d.regs } = d)
    ∧ (∀ (v : BitVec 32), ∃ t, exec (.errAck .naeno v) s = .next t ∧ t.pending = s.pending ∧ { t.dev with regs := d.regs } = d
        ∧ ∀ n, n < 256 → bit (t.dev.get (ERR_REC_record n)) 72
            = (bit (d.get (ERR_REC_record n)) 72 && !(decide (bits (d.get (ERR_REC_record n)) 192 32 ≤ v.toNat))))
    ∧ (∀ (a : BitVec 26) (o : Nat) (v : BitVec 64), o < 4096 → a.toNat = 0x1044000 + 4 * o → d.selValid 1 (d.selection .naeno 1) = true →
        let r := selCore (d.selection .naeno 1)
        let bank := bits (d.selection .naeno 1) 16 1
        ((d.router r).on = true ∧ (d.router r).bank = bank → exec (.scheduleWindowWrite a false v) s = .next s)
        ∧ (¬ ((d.router r).on = true ∧ (d.router r).bank = bank) →
          ∃ t, exec (.scheduleWindowWrite a false v) s = .next t ∧ t.pending = s.pending ∧ { t.dev with sched := d.sched } = d
            ∧ ∀ x, Tab.get (fun _ => idleWord) t.dev.sched x = if x = schedKey r bank o then v.toNat % 2 ^ 32
                else Tab.get (fun _ => idleWord) d.sched x))

/-- Outside reset and with no trip, at the stage before it, a stage of the flash boot takes its number and: BOOT_ROM starts Naeno from a copy that
verifies, or fails with cause 1; BOOT_CLOCKS takes the halls ON and the row map from the fuses; BOOT_SRAM clears the cores and turns the tiers off;
BOOT_HBM makes the stacks READY; BOOT_LINKS starts the enabled ports; BOOT_READY sets READY; a failed PLL, memory, stack or Warden ends boot with
its cause, a timeout with cause 8.  The host's steps end with status 2 in the same work; BOOT_STAGE_WRITE fills the window.  COLD_RESET low leaves the
device in reset with its fuses and flash, and high takes the straps. -/
def Obligations.BootGoesStageByStage : Prop :=
  ∀ (s : State), Calm s →
    let d := s.dev
    (d.inReset = false → d.trip = none →
      let copyGood := (∀ n, d.flash.size = some n → 2 ^ 25 ≤ n) ∧ d.flash.size ≠ none ∧ d.naenoCheck (d.region 1) = none ∧ d.region 1 ≠ []
        ∧ d.region 2 = []
      let stages := fun (before : Nat) => d.get BOOT_STRAP_boot_src = 0 ∧ d.get BOOT_STAT_stage = before
      let step := fun (n : Nat) => d.get BOOT_STEP_status = 1 ∧ d.get BOOT_STEP_step = n
      let failed := fun (i : Instr) (cause detail : Nat) => ∃ t, exec i s = .next t ∧ t.pending = s.pending ∧ t.dev.get BOOT_STAT_stage = 15
        ∧ t.dev.get BOOT_STAT_cause = cause ∧ t.dev.get BOOT_STAT_detail = detail % 256 ∧ { t.dev with regs := d.regs } = d
      let passed := fun (n : Nat) (ms : BitVec 32) (t : State) => t.dev.get BOOT_STEP_status = 2 ∧ t.dev.get BOOT_STEP_go = 0
        ∧ t.dev.get BOOT_STEP_elapsed = min ms.toNat 65535 ∧ t.dev.bootStep = n
      (∀ x, d.get BOOT_STRAP_boot_src = 1 → d.get BOOT_STAT_stage = 0 → ∃ t, exec (.bootRom x) s = .next t ∧ t.pending = s.pending
          ∧ t.dev.get BOOT_STAT_stage = 1 ∧ { t.dev with regs := d.regs } = d)
      ∧ (∀ x, stages 0 → copyGood → ∃ t, exec (.bootRom x) s = .next t ∧ t.pending = s.pending ∧ t.dev.get BOOT_STAT_stage = 1
          ∧ t.dev.naenoRuns = true ∧ t.dev.get BOOT_STAT_copy = 0 ∧ t.dev.get WARD_ACTIVE_alive = 15 ∧ t.dev.get WARD_ACTIVE_die = 0
          ∧ t.dev.firmware = BitVec.ofNat 64 (Config.freeValue d.freeCtr) ∧ t.dev.get (WARD_Q_en 63) = 1 ∧ t.dev.get (WARD_Q_loc 63) = 3
          ∧ t.dev.flash = d.flash ∧ t.dev.hbm = d.hbm ∧ t.dev.cores = d.cores)
      ∧ (∀ x n, stages 0 → d.flash.size = some n → n < 2 ^ 25 → failed (.bootRom x) 1 0)
      ∧ (∀ (ms : BitVec 32), ∀ i ∈ [(Instr.bootClocks none, true), (.bootStepClocks ms none, false)],
          (if i.2 then stages 1 else step 2) → d.loggedCores = [] → d.region 4 = [] →
            ∃ t, exec i.1 s = .next t ∧ t.pending = s.pending ∧ (∀ n, n < 16 → t.dev.dom n = 0)
              ∧ (∀ n, n < 192 → t.dev.get (MESH_ROWMAP_hidden n) = d.get (FUSE_ROW_hidden n) ∧ t.dev.get (MESH_ROWMAP_faulty n) = 0)
              ∧ (if i.2 then t.dev.get BOOT_STAT_stage = 2 else passed 2 ms t) ∧ t.dev.hbm = d.hbm)
      ∧ (∀ n, stages 1 → failed (.bootClocks (some n)) 4 n.toNat)
      ∧ (∀ (ms : BitVec 32), (stages 2 → ∃ t, exec (.bootSram none) s = .next t ∧ t.pending = s.pending ∧ t.dev.get BOOT_STAT_stage = 3
            ∧ t.dev.cores = [] ∧ (∀ n, 16 ≤ n → n < 80 → t.dev.dom n = 3) ∧ t.dev.hbm = d.hbm)
          ∧ (step 3 → ∃ t, exec (.bootStepSram ms none) s = .next t ∧ t.pending = s.pending ∧ passed 3 ms t
            ∧ t.dev.cores = [] ∧ (∀ n, 16 ≤ n → n < 80 → t.dev.dom n = 3) ∧ t.dev.hbm = d.hbm)
          ∧ (stages 3 → ∃ t, exec (.bootHbm none) s = .next t ∧ t.pending = s.pending ∧ t.dev.get BOOT_STAT_stage = 4
            ∧ (∀ k, k < 8 → t.dev.get (HBM_STAT_state k) = 1) ∧ t.dev.cores = d.cores)
          ∧ (step 4 → ∃ t, exec (.bootStepHbm ms none) s = .next t ∧ t.pending = s.pending ∧ passed 4 ms t
            ∧ (∀ k, k < 8 → t.dev.get (HBM_STAT_state k) = 1) ∧ t.dev.cores = d.cores)
          ∧ (d.get BOOT_STRAP_link_auto = 1 →
            (stages 4 → ∃ t, exec .bootLinks s = .next t ∧ t.pending = s.pending ∧ t.dev.get BOOT_STAT_stage = 5
              ∧ (∀ p, d.portOn p = true → t.dev.linkState p = 1) ∧ { t.dev with regs := d.regs } = d)
            ∧ (step 5 → ∃ t, exec (.bootStepLinks ms) s = .next t ∧ t.pending = s.pending ∧ passed 5 ms t
              ∧ (∀ p, d.portOn p = true → t.dev.linkState p = 1) ∧ { t.dev with regs := d.regs, bootStep := d.bootStep } = d))
          ∧ (stages 5 → d.region 3 = [] → ∃ t, exec (.bootCores [] [] none) s = .next t ∧ t.pending = s.pending
            ∧ t.dev.get BOOT_STAT_stage = 6 ∧ (∀ c, c < 4 → t.dev.get (BRK_CPX_STAT_state c) = 0) ∧ { t.dev with regs := d.regs } = d)
          ∧ (step 6 → ∃ t, exec (.bootStepCores ms [] []) s = .next t ∧ t.pending = s.pending ∧ passed 6 ms t
            ∧ { t.dev with regs := d.regs, bootStep := d.bootStep } = d)
          ∧ (step 7 → d.get BOOT_STEP_arg = 0 → copyGood → d.region 3 = [] → ∀ x, ∃ t, exec (.bootStepWarden ms x) s = .next t
            ∧ t.pending = s.pending ∧ passed 7 ms t ∧ t.dev.naenoRuns = true ∧ t.dev.get PCIE_STAT_ready = 1 ∧ t.dev.get BOOT_STAT_stage = 8)
          ∧ (stages 6 → ∃ t, exec .bootReady s = .next t ∧ t.pending = s.pending ∧ t.dev.get BOOT_STAT_stage = 8
            ∧ t.dev.get PCIE_STAT_ready = 1 ∧ { t.dev with regs := d.regs } = d))
      ∧ (∀ b, stages 2 → failed (.bootSram (some b)) 5 b.toNat)
      ∧ (∀ k, stages 3 → failed (.bootHbm (some k)) 6 k.toNat)
      ∧ (∀ w, stages 5 → failed (.bootCores [] [] (some w)) 7 w.toNat)
      ∧ (∀ n, n < 6 → stages n → d.get BOOT_STEP_status ≠ 1 → failed .bootStageTimeout 8 (n + 1))
      ∧ (∀ (o : BitVec 23) (bs : List Byte), d.pcie.up = true → d.get BOOT_STRAP_boot_src = 1 → d.naenoRuns = false →
          exec (.bootStageWrite o bs) s = .next { s with dev := { d with
            stage := Memory.writeBytes d.stage o.toNat (bs.take (2 ^ 23 - o.toNat)) } }))
    ∧ (∃ t, exec (.coldReset none) s = .next t ∧ t.pending = s.pending ∧ t.dev.inReset = true ∧ t.dev.naenoRuns = false ∧ t.dev.fuse = d.fuse
        ∧ t.dev.flash = d.flash ∧ t.dev.faultLog = d.faultLog ∧ t.dev.jobs = [] ∧ t.dev.cores = [] ∧ t.dev.cmds = [] ∧ t.dev.hbm = []
        ∧ t.dev.trip = none ∧ t.dev.get SEC_ARB_naeno = d.get SEC_ARB_naeno ∧ t.dev.get SEC_STAT_revoked = d.get SEC_STAT_revoked)
    ∧ (∀ x, d.inReset = true → ∃ t, exec (.coldReset (some x)) s = .next t ∧ t.pending = s.pending ∧ t.dev.inReset = false
        ∧ t.dev.get BOOT_STRAP_boot_src = x.1.toNat ∧ t.dev.get BOOT_STRAP_link_auto = x.2.toNat
        ∧ { t.dev with inReset := d.inReset, jtag := d.jtag, regs := d.regs } = d)

/-- A rail fault, or two samples of a sensor at 115.0 °C or more, latch a shutdown; TRIP_DOMAINS_OFF then turns every switched domain OFF, ends the
commands and sets ALERT[0].  On a live device: POWER_SAMPLE records its sample and lowers the cap limit above the cap, and at the floor sets over and
ALERT[1]; CAP_LIMIT_RAISE and THERMAL_LIMIT_STEP move their limit one step; CLOCK_STEP moves f_core one step toward its goal; VOLTAGE_UPDATE
asks for the highest voltage of the die's halls, falling by at most 5 mV; DROOP_TRIP counts; DOMAIN_TRANSITION_END completes the change
under way; BELL_FIRE freezes and kills its job; the expiries end an unlock and the challenge. -/
def Obligations.PowerAndClocksFollow : Prop :=
  ∀ (s : State), Calm s →
    let d := s.dev
    (d.inReset = false → d.trip = none →
      (∃ t, exec (.railFault false) s = .next t ∧ t.pending = s.pending ∧ t.dev.trip = some ⟨false, true, false⟩
        ∧ { t.dev with trip := d.trip, out := d.out, freeCtr := d.freeCtr } = d)
      ∧ (∃ t, exec (.railFault true) s = .next t ∧ t.pending = s.pending ∧ t.dev.inReset = true ∧ t.dev.fuse = d.fuse ∧ t.dev.flash = d.flash)
      ∧ (∀ n a b, (920 ≤ d.tripSample n.toNat a → 920 ≤ d.tripSample n.toNat b →
            ∃ t, exec (.thermalTrip n a b) s = .next t ∧ t.pending = s.pending ∧ t.dev.trip = some ⟨true, false, false⟩
              ∧ { t.dev with trip := d.trip, out := d.out, freeCtr := d.freeCtr } = d)
          ∧ (d.tripSample n.toNat a < 920 ∨ d.tripSample n.toNat b < 920 → exec (.thermalTrip n a b) s = .next s)))
    ∧ (∀ x, d.inReset = false → d.trip = some x → x.off = false →
        ∃ t, exec .tripDomainsOff s = .next t ∧ t.pending = s.pending ∧ t.dev.trip = some { x with off := true } ∧ t.dev.cmds = []
          ∧ t.dev.alert = d.alert ||| 1 ∧ (∀ n, n < 102 → n ≠ 100 → t.dev.dom n = 3)
          ∧ t.dev.faultLog = d.faultLog ++ [.shutdown x.thermal x.rail] ∧ t.dev.fuse = d.fuse ∧ t.dev.flash = d.flash)
    ∧ (d.dead = false →
      let f := d.get CLK_CORE_current
      let cap := d.get PWR_CAP_CFG_cap
      let goal := d.coreGoal.2
      (∀ (w : BitVec 12),
        (w.toNat ≤ cap → ∃ t, exec (.powerSample w) s = .next t ∧ t.pending = s.pending ∧ t.dev.get PWR_STAT_power = w.toNat
            ∧ t.dev.calm = (if w.toNat + d.get PWR_CAP_CFG_margin ≤ cap then d.calm + 1 else 0)
            ∧ { t.dev with regs := d.regs, calm := d.calm } = d)
        ∧ (cap < w.toNat → f = goal → d.get CLK_CORE_floor < f → ∃ t, exec (.powerSample w) s = .next t ∧ t.pending = s.pending
            ∧ t.dev.get PWR_STAT_power = w.toNat ∧ t.dev.capLimit = f * cap / w.toNat / 25 * 25
            ∧ { t.dev with regs := d.regs, calm := d.calm, capLimit := d.capLimit } = d)
        ∧ (cap < w.toNat → f ≤ d.get CLK_CORE_floor → ∃ t, exec (.powerSample w) s = .next t ∧ t.pending = s.pending
            ∧ t.dev.get PWR_STAT_over = 1 ∧ t.dev.alert = d.alert ||| 2
            ∧ (d.get PWR_STAT_over = 0 → t.dev.get ERR_STAT_seq = (d.get ERR_STAT_seq + 1) % 2 ^ 32)))
      ∧ (100 ≤ d.calm → exec .capLimitRaise s = .next { s with dev := { d with capLimit := min 1800 (d.capLimit + 25), calm := 0 } })
      ∧ (d.calm < 100 → exec .capLimitRaise s = .next s)
      ∧ (∀ raw slow, raw.length = 64 → ∃ t, exec (.thermalLimitStep raw slow) s = .next t ∧ t.pending = s.pending
          ∧ (∀ i x, raw[i]? = some x → t.dev.get (TEL_SENSOR_temp i) = wrap 16 (d.sensor i x))
          ∧ (let h := signed 16 (t.dev.get PWR_THERM_hottest)
             let limit : Int := 8 * d.get PWR_THERM_throttle
             t.dev.thermLimit = (if slow = true then (if h < limit - 24 then min 1800 (d.thermLimit + 25) else d.thermLimit)
               else if limit < h then d.thermLimit - 25 else d.thermLimit))
          ∧ { t.dev with regs := d.regs, thermLimit := d.thermLimit } = d)
      ∧ (∀ reached, ∃ t, exec (.clockStep reached) s = .next t ∧ t.pending = s.pending ∧ { t.dev with regs := d.regs } = d
          ∧ t.dev.get CLK_CORE_current = (if goal < f then max goal (f - 25) else if reached = true ∧ f < goal then min goal (f + 25) % 2 ^ 12 else f))
      ∧ (∀ (die : BitVec 2) want status, (∃ i, i < 4 ∧ d.dom (4 * die.toNat + i) = 0) → ∀ failed : BitVec 3, failed.toNat < 4 →
          ∃ t mv, exec (.voltageUpdate die want failed status) s = .next t ∧ t.pending = s.pending
            ∧ t.dev.out = .voltage die.toNat mv :: d.out ∧ t.dev.get (CLK_AVS_mv die.toNat) = mv % 2 ^ 12
            ∧ d.get (CLK_AVS_mv die.toNat) ≤ mv + 5
            ∧ (∀ i, i < 4 → d.dom (4 * die.toNat + i) = 0 →
                d.hallVoltage (4 * die.toNat + i) (((want.map BitVec.toNat)[i]?).getD 0) ≤ mv)
            ∧ bit (t.dev.get PWR_STAT_vr_fail) die.toNat = false ∧ { t.dev with regs := d.regs, out := d.out } = d)
      ∧ (∃ t, exec .droopTrip s = .next t ∧ t.pending = s.pending ∧ { t.dev with regs := d.regs } = d
          ∧ t.dev.get CLK_STAT_stretch = min (d.get CLK_STAT_stretch + 1) (2 ^ 24 - 1))
      ∧ (∀ (n : BitVec 7) st cmd rest, n.toNat < 102 → st < 4 → d.movesOf n.toNat = (st, cmd) :: rest →
          ¬ (16 ≤ n.toNat ∧ n.toNat < 80 ∧ d.dom n.toNat = 3 ∧ st ≠ 3 ∧ d.dom ((n.toNat - 16) / 4) ≠ 0) →
            ∃ t, exec (.domainTransitionEnd n) s = .next t ∧ t.pending = s.pending ∧ t.dev.dom n.toNat = st ∧ t.dev.movesOf n.toNat = rest
              ∧ (∀ m, m ≠ n.toNat → t.dev.movesOf m = d.movesOf m)
              ∧ (∀ c, cmd = some c → t.dev.cmd c = none))
      ∧ (∀ id j since, id ≠ 0 → d.job id = some j → d.bellArmed id j = true → j.phase = .live →
          ∃ t j', exec (.bellFire id since) s = .next t ∧ t.pending = s.pending ∧ t.dev.get WARD_BELL_STAT_job = id.toNat
            ∧ t.dev.get WARD_BELL_STAT_fired = 1 ∧ t.dev.job id = some j' ∧ j'.phase = .drain ∧ j'.frozen = true
            ∧ j'.hold = (d.get WARD_BELL_CFG_hold == 1) ∧ t.dev.faultLog = d.faultLog ++ [.bell id j.gen d.ms]
            ∧ (∀ x ∈ d.jobCores id, (t.dev.core x).run = .reset))
      ∧ (∀ id j, d.job id = some j → ∃ t, exec (.unlockExpire id) s = .next t ∧ t.pending = s.pending
          ∧ t.dev.job id = some { j with unlock := none } ∧ { t.dev with jobs := d.jobs, regs := d.regs } = d)
      ∧ exec .challengeExpire s = .next { s with dev := { d with challenge := none } })

/-! PCIe, Ethernet, board management. -/

/-- Outside reset: a configuration access is answered with a free value, and unmasking a pending vector sends it.  BAR0_ACCESS reads FUSE_GRADE
before READY too, and one of another size is an Unsupported Request.  BAR2_ACCESS reads or writes the window's bytes when the directory lets it, waits
when not, and is an Unsupported Request outside the window.  A DOORBELL of the owning function moves the tail, any other counts.  FLR of a VF closes
its window, disables and empties its queues and kills their jobs; a hot reset also clears PCIE_QMAP.  PCIE_LINK_UP shows rate, width and mode. -/
def Obligations.PcieAnswers : Prop :=
  ∀ (s : State), Awake s →
    let d := s.dev
    (d.pcie.up = true →
      (∀ f, ∃ t, exec (.pcieConfigRequest f .access) s = .next t ∧ t.pending = s.pending
          ∧ t.dev.out = .completion (some (Config.freeValue d.freeCtr % 2 ^ 32)) false :: d.out
          ∧ { t.dev with out := d.out, freeCtr := d.freeCtr } = d)
      ∧ (∀ (f : BitVec 4) (v : BitVec 6) masked, v.toNat < vectorsOf f.toNat →
          let i := f.toNat * 64 + v.toNat
          let fires := masked = false ∧ Tab.get (fun _ => false) d.msixPba i = true
          ∃ t, exec (.pcieConfigRequest f (.msixMask v masked)) s = .next t ∧ t.pending = s.pending
            ∧ Tab.get (fun _ => false) t.dev.msixMask i = masked
            ∧ (fires → t.dev.out = .msix f.toNat v.toNat :: d.out ∧ Tab.get (fun _ => false) t.dev.msixPba i = false)
            ∧ (¬ fires → t.dev.out = d.out ∧ t.dev.msixPba = d.msixPba)
            ∧ { t.dev with msixMask := d.msixMask, msixPba := d.msixPba, out := d.out } = d)
      ∧ (∃ t v, exec (.bar0Access 0x1000000 4 none) s = .next t ∧ t.pending = s.pending ∧ t.dev.out = .completion (some v) false :: d.out
          ∧ bits v FUSE_GRADE_rows.lo FUSE_GRADE_rows.w = d.rows ∧ { t.dev with out := d.out } = d)
      ∧ (∀ a n w, n ≠ 4 → n ≠ 8 → ∃ t, exec (.bar0Access a n w) s = .next t ∧ t.pending = s.pending
          ∧ t.dev.out = .completion none false :: d.out ∧ t.dev.get PCIE_ERR_bad_acc = min (d.get PCIE_ERR_bad_acc + 1) 255
          ∧ { t.dev with out := d.out, regs := d.regs } = d)
      ∧ (d.get PCIE_STAT_ready = 1 →
        (∀ (f : BitVec 4) (o : BitVec 36) (n : BitVec 13) w, d.windowAddr f.toNat o.toNat = none →
          ∃ t, exec (.bar2Access f o n w) s = .next t ∧ t.pending = s.pending ∧ t.dev.get PCIE_ERR_win_miss = min (d.get PCIE_ERR_win_miss + 1) 255
            ∧ t.dev.out = (if w.isNone then .completion none false :: d.out else d.out) ∧ { t.dev with out := d.out, regs := d.regs } = d)
        ∧ (∀ (f : BitVec 4) (o : BitVec 36) (n : BitVec 13) pa, d.windowAddr f.toNat o.toNat = some pa → d.dom (80 + stackOf pa) = 0 →
          d.windowed = [] →
          (o.toNat % 4096 + n.toNat ≤ 4096 → d.winReady ⟨f, pa, n.toNat, none⟩ = true →
            ∃ t, exec (.bar2Access f o n none) s = .next t ∧ t.pending = s.pending ∧ { t.dev with out := d.out } = d
              ∧ ∃ ep, t.dev.out = .completion (some (Memory.readN d.hbm pa n.toNat)) ep :: d.out)
          ∧ (∀ bs ep, o.toNat % 4096 + bs.length ≤ 4096 → d.winReady ⟨f, pa, bs.length, some (bs, ep)⟩ = true →
            ∃ t, exec (.bar2Access f o n (some (bs, ep))) s = .next t ∧ t.pending = s.pending
              ∧ t.dev.hbm = Memory.writeBytes d.hbm pa bs ∧ { t.dev with hbm := d.hbm, hbmPoison := d.hbmPoison } = d)
          ∧ (∀ bs ep, o.toNat % 4096 + bs.length ≤ 4096 → d.winReady ⟨f, pa, bs.length, some (bs, ep)⟩ = false →
            ∃ t, exec (.bar2Access f o n (some (bs, ep))) s = .next t ∧ t.pending = s.pending
              ∧ t.dev.windowed = [⟨f, pa, bs.length, some (bs, ep)⟩] ∧ { t.dev with windowed := [], coh := d.coh } = d))
        ∧ (∀ (f : BitVec 4) (q : BitVec 6) (v : BitVec 32),
          let foreign := d.get (PCIE_QMAP_valid q.toNat) = 0 ∨ d.get (PCIE_QMAP_func q.toNat) ≠ f.toNat
          let bad := 2 ^ d.get (WARD_Q_log2n q.toNat) ≤ v.toNat
          ∃ t, exec (.doorbell f q 0 v) s = .next t ∧ t.pending = s.pending ∧ { t.dev with regs := d.regs } = d
            ∧ (foreign → t.dev.get PCIE_ERR_db_foreign = min (d.get PCIE_ERR_db_foreign + 1) 255
                ∧ t.dev.get (WARD_Q_tail q.toNat) = d.get (WARD_Q_tail q.toNat))
            ∧ (¬ foreign → bad → t.dev.get PCIE_ERR_db_bad = min (d.get PCIE_ERR_db_bad + 1) 255
                ∧ t.dev.get (WARD_Q_tail q.toNat) = d.get (WARD_Q_tail q.toNat))
            ∧ (¬ foreign → ¬ bad → t.dev.get (WARD_Q_tail q.toNat) = v.toNat)))
      ∧ (∀ f : BitVec 4, f ≠ 0 → d.dead = false → ∃ t, exec (.flr f) s = .next t ∧ t.pending = s.pending
          ∧ t.dev.get (PCIE_WIN_pages f.toNat) = 0 ∧ (∀ a ∈ t.dev.windowed, a.func ≠ f) ∧ t.dev.pcie = d.pcie
          ∧ (∀ q ∈ d.queuesOf f.toNat, t.dev.get (WARD_Q_en q) = 0 ∧ t.dev.get (WARD_Q_tail q) = t.dev.get (WARD_Q_head q))
          ∧ (∀ id j, d.job id = some j → id ∈ d.jobIds → j.owner.toNat ∈ d.queuesOf f.toNat → j.phase = .live →
              ∃ j', t.dev.job id = some j' ∧ j'.phase = .drain))
      ∧ (∀ i ∈ [Instr.flr 0, .hotReset false], ∃ t, exec i s = .next t ∧ t.pending = s.pending ∧ t.dev.pcie = d.pcie ∧ t.dev.windowed = []
          ∧ (∀ q, q < 64 → t.dev.get (PCIE_QMAP_valid q) = 0) ∧ (∀ f, f < 16 → t.dev.get (PCIE_WIN_pages f) = 0)))
    ∧ (d.pcie.perst = true → ∀ rate width flit, ∃ t, exec (.pcieLinkUp rate width flit) s = .next t ∧ t.pending = s.pending
        ∧ t.dev.pcie = ⟨true, true⟩ ∧ t.dev.get PCIE_STAT_rate = rate.toNat ∧ t.dev.get PCIE_STAT_width = width.toNat
        ∧ t.dev.get PCIE_STAT_flit = flit.toNat ∧ t.dev.get PCIE_STAT_ready = d.get PCIE_STAT_ready
        ∧ { t.dev with pcie := d.pcie, regs := d.regs } = d)
    ∧ (exec (.perstN true) s = .next { s with dev := { d with pcie := ⟨true, d.pcie.up⟩ } })

/-- Outside reset, PERST_N low and a link-down leave the same state, but for the level of PERST_N itself: with the link up both leave it down, its
functions reset; with the link down PERST_N low changes nothing else. -/
def Obligations.PerstLowIsALinkDown : Prop :=
  ∀ (s : State), Awake s → ∃ t, exec (.hotReset true) s = .next t ∧ t.dev.pcie.up = false
    ∧ exec (.perstN false) s = .next { t with dev := { t.dev with pcie := ⟨false, false⟩ } }
    ∧ (s.dev.pcie.up = false → t = s)

/-- On a live device with a port that runs, for a frame of a length that the MAC accepts: one with a bad FCS counts; one whose ring has no descriptor
counts as dropped and changes no byte; any other is written into its buffer with a write-back of 16 bytes, and head advances.  The frame of the next
posted descriptor leaves the port, its descriptor's done byte is written, and head advances.  A write of a ring's first half that enables it takes its
fields, and of its second half its tail.  ETH_LINK shows the link. -/
def Obligations.FramesPass : Prop :=
  ∀ (s : State) (p : BitVec 1), Live s →
    let d := s.dev
    let n := p.toNat
    (d.ethRuns n = true →
      (∀ frame, frameFits frame.length = true →
        let v := Config.freeValue d.freeCtr
        let r := d.parseFrame n frame v
        let a := d.receiveAddr n r.ring
        let cut := r.bytes.take a.2.2
        (∃ t, exec (.ethFrameReceive p frame false) s = .next t ∧ t.pending = s.pending
          ∧ t.dev.get (ETH_STAT_rx_fcs n) = min (d.get (ETH_STAT_rx_fcs n) + 1) 65535 ∧ { t.dev with regs := d.regs } = d)
        ∧ (d.ethPosted n r.ring = 0 → ∃ t, exec (.ethFrameReceive p frame true) s = .next t ∧ t.pending = s.pending
          ∧ t.dev.get (ETH_STAT_rx_drop n) = min (d.get (ETH_STAT_rx_drop n) + 1) (2 ^ 32 - 1)
          ∧ { t.dev with regs := d.regs, out := d.out, paused := d.paused, freeCtr := d.freeCtr } = d)
        ∧ (d.ethPosted n r.ring ≠ 0 → d.ethReaches a.1 16 = true → d.ethReaches a.2.1 (min a.2.2 r.bytes.length) = true →
          ∃ t back, exec (.ethFrameReceive p frame true) s = .next t ∧ t.pending = s.pending ∧ back.length = 16
            ∧ at_ back 0 6 = a.2.1 ∧ at_ back 6 2 = cut.length ∧ at_ back 14 1 % 2 = 1
            ∧ t.dev.hbm = Memory.writeBytes (Memory.writeBytes d.hbm a.2.1 cut) a.1 back
            ∧ t.dev.get (ETH_RXR_head n r.ring) = (d.get (ETH_RXR_head n r.ring) + 1) % 2 ^ d.get (ETH_RXR_log2n n r.ring)
            ∧ { t.dev with regs := d.regs, out := d.out, paused := d.paused, freeCtr := d.freeCtr, hbm := d.hbm, hbmPoison := d.hbmPoison } = d))
      ∧ (∀ q : BitVec 4, let m := q.toNat
        d.get (ETH_TXR_en n m) = 1 → d.get (ETH_TXR_head n m) ≠ d.get (ETH_TXR_tail n m) →
          let desc := d.get (ETH_TXR_base n m) + 16 * d.get (ETH_TXR_head n m)
          let w := Memory.readN d.hbm desc 16
          let frame := transmitFrame (Memory.bytes d.hbm (bits w 0 48) (bits w 48 16)) (bits w 112 8) (bits w 96 16)
          d.ethReaches desc 16 = true → d.ethReaches (bits w 0 48) (bits w 48 16) = true → frameFits frame.length = true →
            ∃ t, exec (.ethFrameTransmit p q) s = .next t ∧ t.pending = s.pending ∧ t.dev.out = .frame n frame :: d.out
              ∧ t.dev.hbm = Memory.writeBytes d.hbm (desc + 14) [BitVec.ofNat 8 (setBits (bits w 112 8) 0 1 1)]
              ∧ t.dev.get (ETH_TXR_head n m) = (d.get (ETH_TXR_head n m) + 1) % 2 ^ d.get (ETH_TXR_log2n n m)
              ∧ { t.dev with regs := d.regs, out := d.out, hbm := d.hbm, hbmPoison := d.hbmPoison } = d))
    ∧ (∀ (tx : Bool) (q : BitVec 4) (v : BitVec 64),
        let m := q.toNat
        let en := fun (d : Dev) => d.get (if tx then ETH_TXR_en n m else ETH_RXR_en n m)
        let tail := fun (d : Dev) => d.get (if tx then ETH_TXR_tail n m else ETH_RXR_tail n m)
        let size := fun (d : Dev) => d.get (if tx then ETH_TXR_log2n n m else ETH_RXR_log2n n m)
        (en d = 0 → bits v.toNat 0 48 % 64 = 0 → 4 ≤ bits v.toNat 48 4 → bits v.toNat 48 4 ≤ 12 → bits v.toNat 52 1 = 1 →
          ∃ t, exec (.ethRingWrite .naeno p tx q false v) s = .next t ∧ t.pending = s.pending ∧ en t.dev = 1
            ∧ size t.dev = bits v.toNat 48 4 ∧ t.dev.get (if tx then ETH_TXR_base n m else ETH_RXR_base n m) = bits v.toNat 0 48
            ∧ { t.dev with regs := d.regs, out := d.out, paused := d.paused } = d)
        ∧ (en d = 1 → bits v.toNat 0 16 < 2 ^ size d →
          ∃ t, exec (.ethRingWrite .naeno p tx q true v) s = .next t ∧ t.pending = s.pending ∧ tail t.dev = bits v.toNat 0 16 ∧ en t.dev = 1
            ∧ { t.dev with regs := d.regs, out := d.out, paused := d.paused } = d))
    ∧ (d.dom 101 = 0 → ∀ up, ∃ t, exec (.ethLink p up) s = .next t ∧ t.pending = s.pending ∧ t.dev.get (ETH_STAT_link n) = up.toNat
        ∧ { t.dev with regs := d.regs } = d)

/-- Outside reset, an I3C CCC sets the interrupt enable or the address, or returns its bytes to a target that has an address: the provisional ID, or
bytes that the spec gives no value.  A write of ALERT clears the bits that are 1; a read of ALERT returns it; a byte of MBOX is written while the
mailbox is free; MBOX_GO sets busy and submits the command to queue 63, and is ignored while busy.  A JTAG instruction selects its data register;
EXTEST, CLAMP and HIGHZ act as BYPASS outside reset. -/
def Obligations.BoardInterfacesAnswer : Prop :=
  ∀ (s : State), Calm s →
    let d := s.dev
    let goes := fun (i : Instr) (e : Dev) => exec i s = .next { s with dev := e }
    (d.inReset = false →
      let v := Config.freeValue d.freeCtr
      goes .enec { d with ibiOn := true } ∧ goes .disec { d with ibiOn := false }
      ∧ goes .rstdaa { d with i3c := { d.i3c with addr := none } }
      ∧ (d.i3c.addr = none → (∀ a, goes (.setdasa a) { d with i3c := { d.i3c with addr := some a } })
          ∧ goes .setaasa { d with i3c := { d.i3c with addr := some 0x3C } }
          ∧ (∀ i ∈ [Instr.getbcr, .getdcr, .getstatus, .getmxds], goes i { d with freeCtr := d.freeCtr + 1 }) ∧ goes .getpid d)
      ∧ (∀ x, d.i3c.addr = some x →
          goes .getpid { d with out := .i3cData (toBytesBE 6 (0x2E5D * 2 ^ 33 + 0x0960 * 2 ^ 16 + d.get FUSE_SERIAL_serial % 2 ^ 16)) :: d.out }
          ∧ (∀ i ∈ [(Instr.getbcr, 1), (.getdcr, 1), (.getstatus, 2), (.getmxds, 2)],
              goes i.1 { d with out := .i3cData (toBytes i.2 v) :: d.out, freeCtr := d.freeCtr + 1 }))
      ∧ (∀ b : Byte, goes (.i3cRegisterAccess (some 0x14) [b] 0) { d with alert := d.alert &&& ~~~b, i3c := { d.i3c with ptr := 0x15 } })
      ∧ (∃ t, exec (.i3cRegisterAccess (some 0x14) [] 1) s = .next t ∧ t.pending = s.pending ∧ t.dev.out = .i3cData [d.alert] :: d.out
          ∧ { t.dev with out := d.out, i3c := d.i3c } = d)
      ∧ (∀ (o : BitVec 6) (b : Byte), d.i3c.busy = false →
          ∃ t, exec (.i3cRegisterAccess (some (0x40 + o.setWidth 8)) [b] 0) s = .next t ∧ t.pending = s.pending
            ∧ t.dev.i3c.mbox.toNat / 2 ^ (8 * o.toNat) % 256 = b.toNat
            ∧ (∀ i, i < 64 → i ≠ o.toNat → t.dev.i3c.mbox.toNat / 2 ^ (8 * i) % 256 = d.i3c.mbox.toNat / 2 ^ (8 * i) % 256)
            ∧ { t.dev with i3c := d.i3c } = d)
      ∧ (d.i3c.busy = false → ∃ t, exec .mboxGo s = .next t ∧ t.pending = s.pending ∧ t.dev.i3c = { d.i3c with busy := true }
          ∧ Tab.get (fun _ => []) t.dev.mail 63 = Tab.get (fun _ => []) d.mail 63 ++ [d.i3c.mbox] ∧ { t.dev with i3c := d.i3c, mail := d.mail } = d)
      ∧ (d.i3c.busy = true → exec .mboxGo s = .next s))
    ∧ goes .idcode { d with jtag := { d.jtag with ir := 0x01, select := 0 } } ∧ goes .bypass { d with jtag := { d.jtag with ir := 0xFF, select := 2 } }
    ∧ (∀ pins, goes (.samplePreload pins) { d with jtag := ⟨0x02, pins, 1⟩ })
    ∧ (∀ i ∈ [(Instr.extest, (0x03 : BitVec 8), (1 : BitVec 2)), (.clamp, 0x04, 2), (.highz, 0x05, 2)],
        goes i.1 { d with jtag := { d.jtag with ir := if d.inReset then i.2.1 else 0xFF, select := if d.inReset then i.2.2 else 2 } })

/-! The whole machine. -/

/-- At State.reset nothing waits and nothing is left to do, no job exists, every byte of HBM and of a core's memories reads as zero (log 3), boot is at
stage 0, READY is 0, every port is OFF, no link is up, no queue is enabled and no error is open. -/
def Obligations.ResetLeavesNothing : Prop :=
  Live State.reset ∧ State.reset.pending = [] ∧ State.reset.dev.jobs = [] ∧ State.reset.dev.flight = [] ∧ State.reset.dev.naenoRuns = false
    ∧ (∀ a, Memory.read State.reset.dev.hbm a = 0) ∧ (∀ c a, Memory.read (State.reset.dev.core c).mem a = 0)
    ∧ State.reset.dev.get BOOT_STAT_stage = 0 ∧ State.reset.dev.get PCIE_STAT_ready = 0 ∧ State.reset.dev.pcie.up = false
    ∧ (∀ p, p < 96 → State.reset.dev.linkState p = 0) ∧ (∀ q, q < 64 → State.reset.dev.get (WARD_Q_en q) = 0)
    ∧ State.reset.dev.get ERR_STAT_seq = 0 ∧ State.reset.dev.get ERR_STAT_worst = 0
    ∧ (∀ c r, (State.reset.dev.core c).gr r = 0 ∧ (State.reset.dev.core c).dr r = 0 ∧ (State.reset.dev.core c).run = .reset)
    ∧ Memory.wf State.reset.dev.hbm ∧ Memory.wf State.reset.dev.stage ∧ ∀ c, Memory.wf (State.reset.dev.core c).mem

/-- From every state, a step that goes on leaves every FUSE_ and factory CAL_ register as it was, and a state in which nothing is left over stays so. -/
def Obligations.FusesNeverChange : Prop :=
  ∀ (s t : State), step s = .next t →
    t.dev.fuse = s.dev.fuse ∧ (∀ a, isFuse a = true → t.dev.reg a = s.dev.reg a) ∧ t.dev.rows = s.dev.rows
      ∧ (∀ c, t.dev.logical c = s.dev.logical c) ∧ (Calm s → Calm t)

/-- The form is the model's (log 3): addresses strictly rising, and no byte listed that is zero, so that equal memories are equal data.  It holds of a
state after every step from a state in which it holds. -/
def Obligations.MemoriesStayCanonical : Prop :=
  ∀ (s t : State), Memory.wf s.dev.hbm → Memory.wf s.dev.stage → (∀ c, Memory.wf (s.dev.core c).mem) → step s = .next t →
    Memory.wf t.dev.hbm ∧ Memory.wf t.dev.stage ∧ ∀ c, Memory.wf (t.dev.core c).mem

end
end

