-- ==== Sys2Proof/Laws/Core.lean ====
section
/-! SUPPORT. Each field of a core after each of the named updates that leave it alone. -/

namespace Sys2Proof.Machine

@[simp] theorem Core.put_g (k : Core) (f : Fld) (v : Nat) : (k.put f v).g = k.g := rfl
@[simp] theorem Core.put_d (k : Core) (f : Fld) (v : Nat) : (k.put f v).d = k.d := rfl
@[simp] theorem Core.put_c (k : Core) (f : Fld) (v : Nat) : (k.put f v).c = k.c := rfl
@[simp] theorem Core.put_cPoison (k : Core) (f : Fld) (v : Nat) : (k.put f v).cPoison = k.cPoison := rfl
@[simp] theorem Core.put_cSrc (k : Core) (f : Fld) (v : Nat) : (k.put f v).cSrc = k.cSrc := rfl
@[simp] theorem Core.put_pc (k : Core) (f : Fld) (v : Nat) : (k.put f v).pc = k.pc := rfl
@[simp] theorem Core.put_run (k : Core) (f : Fld) (v : Nat) : (k.put f v).run = k.run := rfl
@[simp] theorem Core.put_exit (k : Core) (f : Fld) (v : Nat) : (k.put f v).exit = k.exit := rfl
@[simp] theorem Core.put_fault (k : Core) (f : Fld) (v : Nat) : (k.put f v).fault = k.fault := rfl
@[simp] theorem Core.put_rank (k : Core) (f : Fld) (v : Nat) : (k.put f v).rank = k.rank := rfl
@[simp] theorem Core.put_fflags (k : Core) (f : Fld) (v : Nat) : (k.put f v).fflags = k.fflags := rfl
@[simp] theorem Core.put_frm (k : Core) (f : Fld) (v : Nat) : (k.put f v).frm = k.frm := rfl
@[simp] theorem Core.put_lfsr (k : Core) (f : Fld) (v : Nat) : (k.put f v).lfsr = k.lfsr := rfl
@[simp] theorem Core.put_cycle (k : Core) (f : Fld) (v : Nat) : (k.put f v).cycle = k.cycle := rfl
@[simp] theorem Core.put_instret (k : Core) (f : Fld) (v : Nat) : (k.put f v).instret = k.instret := rfl
@[simp] theorem Core.put_step (k : Core) (f : Fld) (v : Nat) : (k.put f v).step = k.step := rfl
@[simp] theorem Core.put_job (k : Core) (f : Fld) (v : Nat) : (k.put f v).job = k.job := rfl
@[simp] theorem Core.put_jgen (k : Core) (f : Fld) (v : Nat) : (k.put f v).jgen = k.jgen := rfl
@[simp] theorem Core.put_dyn (k : Core) (f : Fld) (v : Nat) : (k.put f v).dyn = k.dyn := rfl
@[simp] theorem Core.put_image (k : Core) (f : Fld) (v : Nat) : (k.put f v).image = k.image := rfl
@[simp] theorem Core.put_wait (k : Core) (f : Fld) (v : Nat) : (k.put f v).wait = k.wait := rfl
@[simp] theorem Core.put_gReady (k : Core) (f : Fld) (v : Nat) : (k.put f v).gReady = k.gReady := rfl
@[simp] theorem Core.put_dReady (k : Core) (f : Fld) (v : Nat) : (k.put f v).dReady = k.dReady := rfl
@[simp] theorem Core.put_stores (k : Core) (f : Fld) (v : Nat) : (k.put f v).stores = k.stores := rfl
@[simp] theorem Core.put_tmm (k : Core) (f : Fld) (v : Nat) : (k.put f v).tmm = k.tmm := rfl
@[simp] theorem Core.put_mov (k : Core) (f : Fld) (v : Nat) : (k.put f v).mov = k.mov := rfl
@[simp] theorem Core.put_tmmFree (k : Core) (f : Fld) (v : Nat) : (k.put f v).tmmFree = k.tmmFree := rfl
@[simp] theorem Core.put_movFree (k : Core) (f : Fld) (v : Nat) : (k.put f v).movFree = k.movFree := rfl
@[simp] theorem Core.put_lastUnit (k : Core) (f : Fld) (v : Nat) : (k.put f v).lastUnit = k.lastUnit := rfl
@[simp] theorem Core.put_vop (k : Core) (f : Fld) (v : Nat) : (k.put f v).vop = k.vop := rfl
@[simp] theorem Core.put_scat (k : Core) (f : Fld) (v : Nat) : (k.put f v).scat = k.scat := rfl
@[simp] theorem Core.put_mem (k : Core) (f : Fld) (v : Nat) : (k.put f v).mem = k.mem := rfl
@[simp] theorem Core.put_poison (k : Core) (f : Fld) (v : Nat) : (k.put f v).poison = k.poison := rfl
@[simp] theorem Core.put_remote (k : Core) (f : Fld) (v : Nat) : (k.put f v).remote = k.remote := rfl
@[simp] theorem Core.put_send (k : Core) (f : Fld) (v : Nat) : (k.put f v).send = k.send := rfl
@[simp] theorem Core.put_storeRun (k : Core) (f : Fld) (v : Nat) : (k.put f v).storeRun = k.storeRun := rfl
@[simp] theorem Core.put_inj (k : Core) (f : Fld) (v : Nat) : (k.put f v).inj = k.inj := rfl
@[simp] theorem Core.put_errand (k : Core) (f : Fld) (v : Nat) : (k.put f v).errand = k.errand := rfl
@[simp] theorem Core.put_groups (k : Core) (f : Fld) (v : Nat) : (k.put f v).groups = k.groups := rfl
@[simp] theorem Core.put_ep (k : Core) (f : Fld) (v : Nat) : (k.put f v).ep = k.ep := rfl
@[simp] theorem Core.put_tq (k : Core) (f : Fld) (v : Nat) : (k.put f v).tq = k.tq := rfl
@[simp] theorem Core.put_acct (k : Core) (f : Fld) (v : Nat) : (k.put f v).acct = k.acct := rfl
@[simp] theorem Core.put_meFaulty (k : Core) (f : Fld) (v : Nat) : (k.put f v).meFaulty = k.meFaulty := rfl
@[simp] theorem Core.put_recovery (k : Core) (f : Fld) (v : Nat) : (k.put f v).recovery = k.recovery := rfl
@[simp] theorem Core.put_began (k : Core) (f : Fld) (v : Nat) : (k.put f v).began = k.began := rfl
@[simp] theorem Core.put_ended (k : Core) (f : Fld) (v : Nat) : (k.put f v).ended = k.ended := rfl
@[simp] theorem Core.put_stepIdle (k : Core) (f : Fld) (v : Nat) : (k.put f v).stepIdle = k.stepIdle := rfl

@[simp] theorem Core.setGr_d (k : Core) (r : Nat) (v : BitVec 64) (lat : Nat) : (k.setGr r v lat).d = k.d := by unfold Core.setGr; split <;> rfl
@[simp] theorem Core.setGr_c (k : Core) (r : Nat) (v : BitVec 64) (lat : Nat) : (k.setGr r v lat).c = k.c := by unfold Core.setGr; split <;> rfl
@[simp] theorem Core.setGr_cPoison (k : Core) (r : Nat) (v : BitVec 64) (lat : Nat) : (k.setGr r v lat).cPoison = k.cPoison := by unfold Core.setGr; split <;> rfl
@[simp] theorem Core.setGr_cSrc (k : Core) (r : Nat) (v : BitVec 64) (lat : Nat) : (k.setGr r v lat).cSrc = k.cSrc := by unfold Core.setGr; split <;> rfl
@[simp] theorem Core.setGr_pc (k : Core) (r : Nat) (v : BitVec 64) (lat : Nat) : (k.setGr r v lat).pc = k.pc := by unfold Core.setGr; split <;> rfl
@[simp] theorem Core.setGr_run (k : Core) (r : Nat) (v : BitVec 64) (lat : Nat) : (k.setGr r v lat).run = k.run := by unfold Core.setGr; split <;> rfl
@[simp] theorem Core.setGr_exit (k : Core) (r : Nat) (v : BitVec 64) (lat : Nat) : (k.setGr r v lat).exit = k.exit := by unfold Core.setGr; split <;> rfl
@[simp] theorem Core.setGr_fault (k : Core) (r : Nat) (v : BitVec 64) (lat : Nat) : (k.setGr r v lat).fault = k.fault := by unfold Core.setGr; split <;> rfl
@[simp] theorem Core.setGr_rank (k : Core) (r : Nat) (v : BitVec 64) (lat : Nat) : (k.setGr r v lat).rank = k.rank := by unfold Core.setGr; split <;> rfl
@[simp] theorem Core.setGr_fflags (k : Core) (r : Nat) (v : BitVec 64) (lat : Nat) : (k.setGr r v lat).fflags = k.fflags := by unfold Core.setGr; split <;> rfl
@[simp] theorem Core.setGr_frm (k : Core) (r : Nat) (v : BitVec 64) (lat : Nat) : (k.setGr r v lat).frm = k.frm := by unfold Core.setGr; split <;> rfl
@[simp] theorem Core.setGr_lfsr (k : Core) (r : Nat) (v : BitVec 64) (lat : Nat) : (k.setGr r v lat).lfsr = k.lfsr := by unfold Core.setGr; split <;> rfl
@[simp] theorem Core.setGr_cycle (k : Core) (r : Nat) (v : BitVec 64) (lat : Nat) : (k.setGr r v lat).cycle = k.cycle := by unfold Core.setGr; split <;> rfl
@[simp] theorem Core.setGr_instret (k : Core) (r : Nat) (v : BitVec 64) (lat : Nat) : (k.setGr r v lat).instret = k.instret := by unfold Core.setGr; split <;> rfl
@[simp] theorem Core.setGr_step (k : Core) (r : Nat) (v : BitVec 64) (lat : Nat) : (k.setGr r v lat).step = k.step := by unfold Core.setGr; split <;> rfl
@[simp] theorem Core.setGr_job (k : Core) (r : Nat) (v : BitVec 64) (lat : Nat) : (k.setGr r v lat).job = k.job := by unfold Core.setGr; split <;> rfl
@[simp] theorem Core.setGr_jgen (k : Core) (r : Nat) (v : BitVec 64) (lat : Nat) : (k.setGr r v lat).jgen = k.jgen := by unfold Core.setGr; split <;> rfl
@[simp] theorem Core.setGr_dyn (k : Core) (r : Nat) (v : BitVec 64) (lat : Nat) : (k.setGr r v lat).dyn = k.dyn := by unfold Core.setGr; split <;> rfl
@[simp] theorem Core.setGr_image (k : Core) (r : Nat) (v : BitVec 64) (lat : Nat) : (k.setGr r v lat).image = k.image := by unfold Core.setGr; split <;> rfl
@[simp] theorem Core.setGr_wait (k : Core) (r : Nat) (v : BitVec 64) (lat : Nat) : (k.setGr r v lat).wait = k.wait := by unfold Core.setGr; split <;> rfl
@[simp] theorem Core.setGr_dReady (k : Core) (r : Nat) (v : BitVec 64) (lat : Nat) : (k.setGr r v lat).dReady = k.dReady := by unfold Core.setGr; split <;> rfl
@[simp] theorem Core.setGr_stores (k : Core) (r : Nat) (v : BitVec 64) (lat : Nat) : (k.setGr r v lat).stores = k.stores := by unfold Core.setGr; split <;> rfl
@[simp] theorem Core.setGr_tmm (k : Core) (r : Nat) (v : BitVec 64) (lat : Nat) : (k.setGr r v lat).tmm = k.tmm := by unfold Core.setGr; split <;> rfl
@[simp] theorem Core.setGr_mov (k : Core) (r : Nat) (v : BitVec 64) (lat : Nat) : (k.setGr r v lat).mov = k.mov := by unfold Core.setGr; split <;> rfl
@[simp] theorem Core.setGr_tmmFree (k : Core) (r : Nat) (v : BitVec 64) (lat : Nat) : (k.setGr r v lat).tmmFree = k.tmmFree := by unfold Core.setGr; split <;> rfl
@[simp] theorem Core.setGr_movFree (k : Core) (r : Nat) (v : BitVec 64) (lat : Nat) : (k.setGr r v lat).movFree = k.movFree := by unfold Core.setGr; split <;> rfl
@[simp] theorem Core.setGr_lastUnit (k : Core) (r : Nat) (v : BitVec 64) (lat : Nat) : (k.setGr r v lat).lastUnit = k.lastUnit := by unfold Core.setGr; split <;> rfl
@[simp] theorem Core.setGr_vop (k : Core) (r : Nat) (v : BitVec 64) (lat : Nat) : (k.setGr r v lat).vop = k.vop := by unfold Core.setGr; split <;> rfl
@[simp] theorem Core.setGr_scat (k : Core) (r : Nat) (v : BitVec 64) (lat : Nat) : (k.setGr r v lat).scat = k.scat := by unfold Core.setGr; split <;> rfl
@[simp] theorem Core.setGr_mem (k : Core) (r : Nat) (v : BitVec 64) (lat : Nat) : (k.setGr r v lat).mem = k.mem := by unfold Core.setGr; split <;> rfl
@[simp] theorem Core.setGr_poison (k : Core) (r : Nat) (v : BitVec 64) (lat : Nat) : (k.setGr r v lat).poison = k.poison := by unfold Core.setGr; split <;> rfl
@[simp] theorem Core.setGr_remote (k : Core) (r : Nat) (v : BitVec 64) (lat : Nat) : (k.setGr r v lat).remote = k.remote := by unfold Core.setGr; split <;> rfl
@[simp] theorem Core.setGr_send (k : Core) (r : Nat) (v : BitVec 64) (lat : Nat) : (k.setGr r v lat).send = k.send := by unfold Core.setGr; split <;> rfl
@[simp] theorem Core.setGr_storeRun (k : Core) (r : Nat) (v : BitVec 64) (lat : Nat) : (k.setGr r v lat).storeRun = k.storeRun := by unfold Core.setGr; split <;> rfl
@[simp] theorem Core.setGr_inj (k : Core) (r : Nat) (v : BitVec 64) (lat : Nat) : (k.setGr r v lat).inj = k.inj := by unfold Core.setGr; split <;> rfl
@[simp] theorem Core.setGr_errand (k : Core) (r : Nat) (v : BitVec 64) (lat : Nat) : (k.setGr r v lat).errand = k.errand := by unfold Core.setGr; split <;> rfl
@[simp] theorem Core.setGr_groups (k : Core) (r : Nat) (v : BitVec 64) (lat : Nat) : (k.setGr r v lat).groups = k.groups := by unfold Core.setGr; split <;> rfl
@[simp] theorem Core.setGr_ep (k : Core) (r : Nat) (v : BitVec 64) (lat : Nat) : (k.setGr r v lat).ep = k.ep := by unfold Core.setGr; split <;> rfl
@[simp] theorem Core.setGr_tq (k : Core) (r : Nat) (v : BitVec 64) (lat : Nat) : (k.setGr r v lat).tq = k.tq := by unfold Core.setGr; split <;> rfl
@[simp] theorem Core.setGr_acct (k : Core) (r : Nat) (v : BitVec 64) (lat : Nat) : (k.setGr r v lat).acct = k.acct := by unfold Core.setGr; split <;> rfl
@[simp] theorem Core.setGr_win (k : Core) (r : Nat) (v : BitVec 64) (lat : Nat) : (k.setGr r v lat).win = k.win := by unfold Core.setGr; split <;> rfl
@[simp] theorem Core.setGr_meFaulty (k : Core) (r : Nat) (v : BitVec 64) (lat : Nat) : (k.setGr r v lat).meFaulty = k.meFaulty := by unfold Core.setGr; split <;> rfl
@[simp] theorem Core.setGr_recovery (k : Core) (r : Nat) (v : BitVec 64) (lat : Nat) : (k.setGr r v lat).recovery = k.recovery := by unfold Core.setGr; split <;> rfl
@[simp] theorem Core.setGr_began (k : Core) (r : Nat) (v : BitVec 64) (lat : Nat) : (k.setGr r v lat).began = k.began := by unfold Core.setGr; split <;> rfl
@[simp] theorem Core.setGr_ended (k : Core) (r : Nat) (v : BitVec 64) (lat : Nat) : (k.setGr r v lat).ended = k.ended := by unfold Core.setGr; split <;> rfl
@[simp] theorem Core.setGr_stepIdle (k : Core) (r : Nat) (v : BitVec 64) (lat : Nat) : (k.setGr r v lat).stepIdle = k.stepIdle := by unfold Core.setGr; split <;> rfl

@[simp] theorem Core.setDr_g (k : Core) (r : Nat) (v : BitVec 128) (lat : Nat) : (k.setDr r v lat).g = k.g := rfl
@[simp] theorem Core.setDr_c (k : Core) (r : Nat) (v : BitVec 128) (lat : Nat) : (k.setDr r v lat).c = k.c := rfl
@[simp] theorem Core.setDr_cPoison (k : Core) (r : Nat) (v : BitVec 128) (lat : Nat) : (k.setDr r v lat).cPoison = k.cPoison := rfl
@[simp] theorem Core.setDr_cSrc (k : Core) (r : Nat) (v : BitVec 128) (lat : Nat) : (k.setDr r v lat).cSrc = k.cSrc := rfl
@[simp] theorem Core.setDr_pc (k : Core) (r : Nat) (v : BitVec 128) (lat : Nat) : (k.setDr r v lat).pc = k.pc := rfl
@[simp] theorem Core.setDr_run (k : Core) (r : Nat) (v : BitVec 128) (lat : Nat) : (k.setDr r v lat).run = k.run := rfl
@[simp] theorem Core.setDr_exit (k : Core) (r : Nat) (v : BitVec 128) (lat : Nat) : (k.setDr r v lat).exit = k.exit := rfl
@[simp] theorem Core.setDr_fault (k : Core) (r : Nat) (v : BitVec 128) (lat : Nat) : (k.setDr r v lat).fault = k.fault := rfl
@[simp] theorem Core.setDr_rank (k : Core) (r : Nat) (v : BitVec 128) (lat : Nat) : (k.setDr r v lat).rank = k.rank := rfl
@[simp] theorem Core.setDr_fflags (k : Core) (r : Nat) (v : BitVec 128) (lat : Nat) : (k.setDr r v lat).fflags = k.fflags := rfl
@[simp] theorem Core.setDr_frm (k : Core) (r : Nat) (v : BitVec 128) (lat : Nat) : (k.setDr r v lat).frm = k.frm := rfl
@[simp] theorem Core.setDr_lfsr (k : Core) (r : Nat) (v : BitVec 128) (lat : Nat) : (k.setDr r v lat).lfsr = k.lfsr := rfl
@[simp] theorem Core.setDr_cycle (k : Core) (r : Nat) (v : BitVec 128) (lat : Nat) : (k.setDr r v lat).cycle = k.cycle := rfl
@[simp] theorem Core.setDr_instret (k : Core) (r : Nat) (v : BitVec 128) (lat : Nat) : (k.setDr r v lat).instret = k.instret := rfl
@[simp] theorem Core.setDr_step (k : Core) (r : Nat) (v : BitVec 128) (lat : Nat) : (k.setDr r v lat).step = k.step := rfl
@[simp] theorem Core.setDr_job (k : Core) (r : Nat) (v : BitVec 128) (lat : Nat) : (k.setDr r v lat).job = k.job := rfl
@[simp] theorem Core.setDr_jgen (k : Core) (r : Nat) (v : BitVec 128) (lat : Nat) : (k.setDr r v lat).jgen = k.jgen := rfl
@[simp] theorem Core.setDr_dyn (k : Core) (r : Nat) (v : BitVec 128) (lat : Nat) : (k.setDr r v lat).dyn = k.dyn := rfl
@[simp] theorem Core.setDr_image (k : Core) (r : Nat) (v : BitVec 128) (lat : Nat) : (k.setDr r v lat).image = k.image := rfl
@[simp] theorem Core.setDr_wait (k : Core) (r : Nat) (v : BitVec 128) (lat : Nat) : (k.setDr r v lat).wait = k.wait := rfl
@[simp] theorem Core.setDr_gReady (k : Core) (r : Nat) (v : BitVec 128) (lat : Nat) : (k.setDr r v lat).gReady = k.gReady := rfl
@[simp] theorem Core.setDr_stores (k : Core) (r : Nat) (v : BitVec 128) (lat : Nat) : (k.setDr r v lat).stores = k.stores := rfl
@[simp] theorem Core.setDr_tmm (k : Core) (r : Nat) (v : BitVec 128) (lat : Nat) : (k.setDr r v lat).tmm = k.tmm := rfl
@[simp] theorem Core.setDr_mov (k : Core) (r : Nat) (v : BitVec 128) (lat : Nat) : (k.setDr r v lat).mov = k.mov := rfl
@[simp] theorem Core.setDr_tmmFree (k : Core) (r : Nat) (v : BitVec 128) (lat : Nat) : (k.setDr r v lat).tmmFree = k.tmmFree := rfl
@[simp] theorem Core.setDr_movFree (k : Core) (r : Nat) (v : BitVec 128) (lat : Nat) : (k.setDr r v lat).movFree = k.movFree := rfl
@[simp] theorem Core.setDr_lastUnit (k : Core) (r : Nat) (v : BitVec 128) (lat : Nat) : (k.setDr r v lat).lastUnit = k.lastUnit := rfl
@[simp] theorem Core.setDr_vop (k : Core) (r : Nat) (v : BitVec 128) (lat : Nat) : (k.setDr r v lat).vop = k.vop := rfl
@[simp] theorem Core.setDr_scat (k : Core) (r : Nat) (v : BitVec 128) (lat : Nat) : (k.setDr r v lat).scat = k.scat := rfl
@[simp] theorem Core.setDr_mem (k : Core) (r : Nat) (v : BitVec 128) (lat : Nat) : (k.setDr r v lat).mem = k.mem := rfl
@[simp] theorem Core.setDr_poison (k : Core) (r : Nat) (v : BitVec 128) (lat : Nat) : (k.setDr r v lat).poison = k.poison := rfl
@[simp] theorem Core.setDr_remote (k : Core) (r : Nat) (v : BitVec 128) (lat : Nat) : (k.setDr r v lat).remote = k.remote := rfl
@[simp] theorem Core.setDr_send (k : Core) (r : Nat) (v : BitVec 128) (lat : Nat) : (k.setDr r v lat).send = k.send := rfl
@[simp] theorem Core.setDr_storeRun (k : Core) (r : Nat) (v : BitVec 128) (lat : Nat) : (k.setDr r v lat).storeRun = k.storeRun := rfl
@[simp] theorem Core.setDr_inj (k : Core) (r : Nat) (v : BitVec 128) (lat : Nat) : (k.setDr r v lat).inj = k.inj := rfl
@[simp] theorem Core.setDr_errand (k : Core) (r : Nat) (v : BitVec 128) (lat : Nat) : (k.setDr r v lat).errand = k.errand := rfl
@[simp] theorem Core.setDr_groups (k : Core) (r : Nat) (v : BitVec 128) (lat : Nat) : (k.setDr r v lat).groups = k.groups := rfl
@[simp] theorem Core.setDr_ep (k : Core) (r : Nat) (v : BitVec 128) (lat : Nat) : (k.setDr r v lat).ep = k.ep := rfl
@[simp] theorem Core.setDr_tq (k : Core) (r : Nat) (v : BitVec 128) (lat : Nat) : (k.setDr r v lat).tq = k.tq := rfl
@[simp] theorem Core.setDr_acct (k : Core) (r : Nat) (v : BitVec 128) (lat : Nat) : (k.setDr r v lat).acct = k.acct := rfl
@[simp] theorem Core.setDr_win (k : Core) (r : Nat) (v : BitVec 128) (lat : Nat) : (k.setDr r v lat).win = k.win := rfl
@[simp] theorem Core.setDr_meFaulty (k : Core) (r : Nat) (v : BitVec 128) (lat : Nat) : (k.setDr r v lat).meFaulty = k.meFaulty := rfl
@[simp] theorem Core.setDr_recovery (k : Core) (r : Nat) (v : BitVec 128) (lat : Nat) : (k.setDr r v lat).recovery = k.recovery := rfl
@[simp] theorem Core.setDr_began (k : Core) (r : Nat) (v : BitVec 128) (lat : Nat) : (k.setDr r v lat).began = k.began := rfl
@[simp] theorem Core.setDr_ended (k : Core) (r : Nat) (v : BitVec 128) (lat : Nat) : (k.setDr r v lat).ended = k.ended := rfl
@[simp] theorem Core.setDr_stepIdle (k : Core) (r : Nat) (v : BitVec 128) (lat : Nat) : (k.setDr r v lat).stepIdle = k.stepIdle := rfl

@[simp] theorem Core.setCr_g (k : Core) (n : Nat) (v : BitVec 32) : (k.setCr n v).g = k.g := rfl
@[simp] theorem Core.setCr_d (k : Core) (n : Nat) (v : BitVec 32) : (k.setCr n v).d = k.d := rfl
@[simp] theorem Core.setCr_cPoison (k : Core) (n : Nat) (v : BitVec 32) : (k.setCr n v).cPoison = k.cPoison := rfl
@[simp] theorem Core.setCr_cSrc (k : Core) (n : Nat) (v : BitVec 32) : (k.setCr n v).cSrc = k.cSrc := rfl
@[simp] theorem Core.setCr_pc (k : Core) (n : Nat) (v : BitVec 32) : (k.setCr n v).pc = k.pc := rfl
@[simp] theorem Core.setCr_run (k : Core) (n : Nat) (v : BitVec 32) : (k.setCr n v).run = k.run := rfl
@[simp] theorem Core.setCr_exit (k : Core) (n : Nat) (v : BitVec 32) : (k.setCr n v).exit = k.exit := rfl
@[simp] theorem Core.setCr_fault (k : Core) (n : Nat) (v : BitVec 32) : (k.setCr n v).fault = k.fault := rfl
@[simp] theorem Core.setCr_rank (k : Core) (n : Nat) (v : BitVec 32) : (k.setCr n v).rank = k.rank := rfl
@[simp] theorem Core.setCr_fflags (k : Core) (n : Nat) (v : BitVec 32) : (k.setCr n v).fflags = k.fflags := rfl
@[simp] theorem Core.setCr_frm (k : Core) (n : Nat) (v : BitVec 32) : (k.setCr n v).frm = k.frm := rfl
@[simp] theorem Core.setCr_lfsr (k : Core) (n : Nat) (v : BitVec 32) : (k.setCr n v).lfsr = k.lfsr := rfl
@[simp] theorem Core.setCr_cycle (k : Core) (n : Nat) (v : BitVec 32) : (k.setCr n v).cycle = k.cycle := rfl
@[simp] theorem Core.setCr_instret (k : Core) (n : Nat) (v : BitVec 32) : (k.setCr n v).instret = k.instret := rfl
@[simp] theorem Core.setCr_step (k : Core) (n : Nat) (v : BitVec 32) : (k.setCr n v).step = k.step := rfl
@[simp] theorem Core.setCr_job (k : Core) (n : Nat) (v : BitVec 32) : (k.setCr n v).job = k.job := rfl
@[simp] theorem Core.setCr_jgen (k : Core) (n : Nat) (v : BitVec 32) : (k.setCr n v).jgen = k.jgen := rfl
@[simp] theorem Core.setCr_dyn (k : Core) (n : Nat) (v : BitVec 32) : (k.setCr n v).dyn = k.dyn := rfl
@[simp] theorem Core.setCr_image (k : Core) (n : Nat) (v : BitVec 32) : (k.setCr n v).image = k.image := rfl
@[simp] theorem Core.setCr_wait (k : Core) (n : Nat) (v : BitVec 32) : (k.setCr n v).wait = k.wait := rfl
@[simp] theorem Core.setCr_gReady (k : Core) (n : Nat) (v : BitVec 32) : (k.setCr n v).gReady = k.gReady := rfl
@[simp] theorem Core.setCr_dReady (k : Core) (n : Nat) (v : BitVec 32) : (k.setCr n v).dReady = k.dReady := rfl
@[simp] theorem Core.setCr_stores (k : Core) (n : Nat) (v : BitVec 32) : (k.setCr n v).stores = k.stores := rfl
@[simp] theorem Core.setCr_tmm (k : Core) (n : Nat) (v : BitVec 32) : (k.setCr n v).tmm = k.tmm := rfl
@[simp] theorem Core.setCr_mov (k : Core) (n : Nat) (v : BitVec 32) : (k.setCr n v).mov = k.mov := rfl
@[simp] theorem Core.setCr_tmmFree (k : Core) (n : Nat) (v : BitVec 32) : (k.setCr n v).tmmFree = k.tmmFree := rfl
@[simp] theorem Core.setCr_movFree (k : Core) (n : Nat) (v : BitVec 32) : (k.setCr n v).movFree = k.movFree := rfl
@[simp] theorem Core.setCr_lastUnit (k : Core) (n : Nat) (v : BitVec 32) : (k.setCr n v).lastUnit = k.lastUnit := rfl
@[simp] theorem Core.setCr_vop (k : Core) (n : Nat) (v : BitVec 32) : (k.setCr n v).vop = k.vop := rfl
@[simp] theorem Core.setCr_scat (k : Core) (n : Nat) (v : BitVec 32) : (k.setCr n v).scat = k.scat := rfl
@[simp] theorem Core.setCr_mem (k : Core) (n : Nat) (v : BitVec 32) : (k.setCr n v).mem = k.mem := rfl
@[simp] theorem Core.setCr_poison (k : Core) (n : Nat) (v : BitVec 32) : (k.setCr n v).poison = k.poison := rfl
@[simp] theorem Core.setCr_remote (k : Core) (n : Nat) (v : BitVec 32) : (k.setCr n v).remote = k.remote := rfl
@[simp] theorem Core.setCr_send (k : Core) (n : Nat) (v : BitVec 32) : (k.setCr n v).send = k.send := rfl
@[simp] theorem Core.setCr_storeRun (k : Core) (n : Nat) (v : BitVec 32) : (k.setCr n v).storeRun = k.storeRun := rfl
@[simp] theorem Core.setCr_inj (k : Core) (n : Nat) (v : BitVec 32) : (k.setCr n v).inj = k.inj := rfl
@[simp] theorem Core.setCr_errand (k : Core) (n : Nat) (v : BitVec 32) : (k.setCr n v).errand = k.errand := rfl
@[simp] theorem Core.setCr_groups (k : Core) (n : Nat) (v : BitVec 32) : (k.setCr n v).groups = k.groups := rfl
@[simp] theorem Core.setCr_ep (k : Core) (n : Nat) (v : BitVec 32) : (k.setCr n v).ep = k.ep := rfl
@[simp] theorem Core.setCr_tq (k : Core) (n : Nat) (v : BitVec 32) : (k.setCr n v).tq = k.tq := rfl
@[simp] theorem Core.setCr_acct (k : Core) (n : Nat) (v : BitVec 32) : (k.setCr n v).acct = k.acct := rfl
@[simp] theorem Core.setCr_win (k : Core) (n : Nat) (v : BitVec 32) : (k.setCr n v).win = k.win := rfl
@[simp] theorem Core.setCr_meFaulty (k : Core) (n : Nat) (v : BitVec 32) : (k.setCr n v).meFaulty = k.meFaulty := rfl
@[simp] theorem Core.setCr_recovery (k : Core) (n : Nat) (v : BitVec 32) : (k.setCr n v).recovery = k.recovery := rfl
@[simp] theorem Core.setCr_began (k : Core) (n : Nat) (v : BitVec 32) : (k.setCr n v).began = k.began := rfl
@[simp] theorem Core.setCr_ended (k : Core) (n : Nat) (v : BitVec 32) : (k.setCr n v).ended = k.ended := rfl
@[simp] theorem Core.setCr_stepIdle (k : Core) (n : Nat) (v : BitVec 32) : (k.setCr n v).stepIdle = k.stepIdle := rfl

@[simp] theorem Core.advance_g (k : Core) (n inc : Nat) (src : CtrSource) : (k.advance n inc src).g = k.g := rfl
@[simp] theorem Core.advance_d (k : Core) (n inc : Nat) (src : CtrSource) : (k.advance n inc src).d = k.d := rfl
@[simp] theorem Core.advance_cPoison (k : Core) (n inc : Nat) (src : CtrSource) : (k.advance n inc src).cPoison = k.cPoison := rfl
@[simp] theorem Core.advance_pc (k : Core) (n inc : Nat) (src : CtrSource) : (k.advance n inc src).pc = k.pc := rfl
@[simp] theorem Core.advance_run (k : Core) (n inc : Nat) (src : CtrSource) : (k.advance n inc src).run = k.run := rfl
@[simp] theorem Core.advance_exit (k : Core) (n inc : Nat) (src : CtrSource) : (k.advance n inc src).exit = k.exit := rfl
@[simp] theorem Core.advance_fault (k : Core) (n inc : Nat) (src : CtrSource) : (k.advance n inc src).fault = k.fault := rfl
@[simp] theorem Core.advance_rank (k : Core) (n inc : Nat) (src : CtrSource) : (k.advance n inc src).rank = k.rank := rfl
@[simp] theorem Core.advance_fflags (k : Core) (n inc : Nat) (src : CtrSource) : (k.advance n inc src).fflags = k.fflags := rfl
@[simp] theorem Core.advance_frm (k : Core) (n inc : Nat) (src : CtrSource) : (k.advance n inc src).frm = k.frm := rfl
@[simp] theorem Core.advance_lfsr (k : Core) (n inc : Nat) (src : CtrSource) : (k.advance n inc src).lfsr = k.lfsr := rfl
@[simp] theorem Core.advance_cycle (k : Core) (n inc : Nat) (src : CtrSource) : (k.advance n inc src).cycle = k.cycle := rfl
@[simp] theorem Core.advance_instret (k : Core) (n inc : Nat) (src : CtrSource) : (k.advance n inc src).instret = k.instret := rfl
@[simp] theorem Core.advance_step (k : Core) (n inc : Nat) (src : CtrSource) : (k.advance n inc src).step = k.step := rfl
@[simp] theorem Core.advance_job (k : Core) (n inc : Nat) (src : CtrSource) : (k.advance n inc src).job = k.job := rfl
@[simp] theorem Core.advance_jgen (k : Core) (n inc : Nat) (src : CtrSource) : (k.advance n inc src).jgen = k.jgen := rfl
@[simp] theorem Core.advance_dyn (k : Core) (n inc : Nat) (src : CtrSource) : (k.advance n inc src).dyn = k.dyn := rfl
@[simp] theorem Core.advance_image (k : Core) (n inc : Nat) (src : CtrSource) : (k.advance n inc src).image = k.image := rfl
@[simp] theorem Core.advance_wait (k : Core) (n inc : Nat) (src : CtrSource) : (k.advance n inc src).wait = k.wait := rfl
@[simp] theorem Core.advance_gReady (k : Core) (n inc : Nat) (src : CtrSource) : (k.advance n inc src).gReady = k.gReady := rfl
@[simp] theorem Core.advance_dReady (k : Core) (n inc : Nat) (src : CtrSource) : (k.advance n inc src).dReady = k.dReady := rfl
@[simp] theorem Core.advance_stores (k : Core) (n inc : Nat) (src : CtrSource) : (k.advance n inc src).stores = k.stores := rfl
@[simp] theorem Core.advance_tmm (k : Core) (n inc : Nat) (src : CtrSource) : (k.advance n inc src).tmm = k.tmm := rfl
@[simp] theorem Core.advance_mov (k : Core) (n inc : Nat) (src : CtrSource) : (k.advance n inc src).mov = k.mov := rfl
@[simp] theorem Core.advance_tmmFree (k : Core) (n inc : Nat) (src : CtrSource) : (k.advance n inc src).tmmFree = k.tmmFree := rfl
@[simp] theorem Core.advance_movFree (k : Core) (n inc : Nat) (src : CtrSource) : (k.advance n inc src).movFree = k.movFree := rfl
@[simp] theorem Core.advance_lastUnit (k : Core) (n inc : Nat) (src : CtrSource) : (k.advance n inc src).lastUnit = k.lastUnit := rfl
@[simp] theorem Core.advance_vop (k : Core) (n inc : Nat) (src : CtrSource) : (k.advance n inc src).vop = k.vop := rfl
@[simp] theorem Core.advance_scat (k : Core) (n inc : Nat) (src : CtrSource) : (k.advance n inc src).scat = k.scat := rfl
@[simp] theorem Core.advance_mem (k : Core) (n inc : Nat) (src : CtrSource) : (k.advance n inc src).mem = k.mem := rfl
@[simp] theorem Core.advance_poison (k : Core) (n inc : Nat) (src : CtrSource) : (k.advance n inc src).poison = k.poison := rfl
@[simp] theorem Core.advance_remote (k : Core) (n inc : Nat) (src : CtrSource) : (k.advance n inc src).remote = k.remote := rfl
@[simp] theorem Core.advance_send (k : Core) (n inc : Nat) (src : CtrSource) : (k.advance n inc src).send = k.send := rfl
@[simp] theorem Core.advance_storeRun (k : Core) (n inc : Nat) (src : CtrSource) : (k.advance n inc src).storeRun = k.storeRun := rfl
@[simp] theorem Core.advance_inj (k : Core) (n inc : Nat) (src : CtrSource) : (k.advance n inc src).inj = k.inj := rfl
@[simp] theorem Core.advance_errand (k : Core) (n inc : Nat) (src : CtrSource) : (k.advance n inc src).errand = k.errand := rfl
@[simp] theorem Core.advance_groups (k : Core) (n inc : Nat) (src : CtrSource) : (k.advance n inc src).groups = k.groups := rfl
@[simp] theorem Core.advance_ep (k : Core) (n inc : Nat) (src : CtrSource) : (k.advance n inc src).ep = k.ep := rfl
@[simp] theorem Core.advance_tq (k : Core) (n inc : Nat) (src : CtrSource) : (k.advance n inc src).tq = k.tq := rfl
@[simp] theorem Core.advance_acct (k : Core) (n inc : Nat) (src : CtrSource) : (k.advance n inc src).acct = k.acct := rfl
@[simp] theorem Core.advance_win (k : Core) (n inc : Nat) (src : CtrSource) : (k.advance n inc src).win = k.win := rfl
@[simp] theorem Core.advance_meFaulty (k : Core) (n inc : Nat) (src : CtrSource) : (k.advance n inc src).meFaulty = k.meFaulty := rfl
@[simp] theorem Core.advance_recovery (k : Core) (n inc : Nat) (src : CtrSource) : (k.advance n inc src).recovery = k.recovery := rfl
@[simp] theorem Core.advance_began (k : Core) (n inc : Nat) (src : CtrSource) : (k.advance n inc src).began = k.began := rfl
@[simp] theorem Core.advance_ended (k : Core) (n inc : Nat) (src : CtrSource) : (k.advance n inc src).ended = k.ended := rfl
@[simp] theorem Core.advance_stepIdle (k : Core) (n inc : Nat) (src : CtrSource) : (k.advance n inc src).stepIdle = k.stepIdle := rfl

@[simp] theorem Core.pass_g (k : Core) (n : Nat) : (k.pass n).g = k.g := rfl
@[simp] theorem Core.pass_d (k : Core) (n : Nat) : (k.pass n).d = k.d := rfl
@[simp] theorem Core.pass_c (k : Core) (n : Nat) : (k.pass n).c = k.c := rfl
@[simp] theorem Core.pass_cPoison (k : Core) (n : Nat) : (k.pass n).cPoison = k.cPoison := rfl
@[simp] theorem Core.pass_cSrc (k : Core) (n : Nat) : (k.pass n).cSrc = k.cSrc := rfl
@[simp] theorem Core.pass_pc (k : Core) (n : Nat) : (k.pass n).pc = k.pc := rfl
@[simp] theorem Core.pass_run (k : Core) (n : Nat) : (k.pass n).run = k.run := rfl
@[simp] theorem Core.pass_exit (k : Core) (n : Nat) : (k.pass n).exit = k.exit := rfl
@[simp] theorem Core.pass_fault (k : Core) (n : Nat) : (k.pass n).fault = k.fault := rfl
@[simp] theorem Core.pass_rank (k : Core) (n : Nat) : (k.pass n).rank = k.rank := rfl
@[simp] theorem Core.pass_fflags (k : Core) (n : Nat) : (k.pass n).fflags = k.fflags := rfl
@[simp] theorem Core.pass_frm (k : Core) (n : Nat) : (k.pass n).frm = k.frm := rfl
@[simp] theorem Core.pass_lfsr (k : Core) (n : Nat) : (k.pass n).lfsr = k.lfsr := rfl
@[simp] theorem Core.pass_instret (k : Core) (n : Nat) : (k.pass n).instret = k.instret := rfl
@[simp] theorem Core.pass_step (k : Core) (n : Nat) : (k.pass n).step = k.step := rfl
@[simp] theorem Core.pass_job (k : Core) (n : Nat) : (k.pass n).job = k.job := rfl
@[simp] theorem Core.pass_jgen (k : Core) (n : Nat) : (k.pass n).jgen = k.jgen := rfl
@[simp] theorem Core.pass_dyn (k : Core) (n : Nat) : (k.pass n).dyn = k.dyn := rfl
@[simp] theorem Core.pass_image (k : Core) (n : Nat) : (k.pass n).image = k.image := rfl
@[simp] theorem Core.pass_wait (k : Core) (n : Nat) : (k.pass n).wait = k.wait := rfl
@[simp] theorem Core.pass_gReady (k : Core) (n : Nat) : (k.pass n).gReady = k.gReady := rfl
@[simp] theorem Core.pass_dReady (k : Core) (n : Nat) : (k.pass n).dReady = k.dReady := rfl
@[simp] theorem Core.pass_stores (k : Core) (n : Nat) : (k.pass n).stores = k.stores := rfl
@[simp] theorem Core.pass_tmm (k : Core) (n : Nat) : (k.pass n).tmm = k.tmm := rfl
@[simp] theorem Core.pass_mov (k : Core) (n : Nat) : (k.pass n).mov = k.mov := rfl
@[simp] theorem Core.pass_tmmFree (k : Core) (n : Nat) : (k.pass n).tmmFree = k.tmmFree := rfl
@[simp] theorem Core.pass_movFree (k : Core) (n : Nat) : (k.pass n).movFree = k.movFree := rfl
@[simp] theorem Core.pass_lastUnit (k : Core) (n : Nat) : (k.pass n).lastUnit = k.lastUnit := rfl
@[simp] theorem Core.pass_vop (k : Core) (n : Nat) : (k.pass n).vop = k.vop := rfl
@[simp] theorem Core.pass_scat (k : Core) (n : Nat) : (k.pass n).scat = k.scat := rfl
@[simp] theorem Core.pass_mem (k : Core) (n : Nat) : (k.pass n).mem = k.mem := rfl
@[simp] theorem Core.pass_poison (k : Core) (n : Nat) : (k.pass n).poison = k.poison := rfl
@[simp] theorem Core.pass_remote (k : Core) (n : Nat) : (k.pass n).remote = k.remote := rfl
@[simp] theorem Core.pass_send (k : Core) (n : Nat) : (k.pass n).send = k.send := rfl
@[simp] theorem Core.pass_storeRun (k : Core) (n : Nat) : (k.pass n).storeRun = k.storeRun := rfl
@[simp] theorem Core.pass_inj (k : Core) (n : Nat) : (k.pass n).inj = k.inj := rfl
@[simp] theorem Core.pass_errand (k : Core) (n : Nat) : (k.pass n).errand = k.errand := rfl
@[simp] theorem Core.pass_groups (k : Core) (n : Nat) : (k.pass n).groups = k.groups := rfl
@[simp] theorem Core.pass_ep (k : Core) (n : Nat) : (k.pass n).ep = k.ep := rfl
@[simp] theorem Core.pass_tq (k : Core) (n : Nat) : (k.pass n).tq = k.tq := rfl
@[simp] theorem Core.pass_win (k : Core) (n : Nat) : (k.pass n).win = k.win := rfl
@[simp] theorem Core.pass_meFaulty (k : Core) (n : Nat) : (k.pass n).meFaulty = k.meFaulty := rfl
@[simp] theorem Core.pass_recovery (k : Core) (n : Nat) : (k.pass n).recovery = k.recovery := rfl
@[simp] theorem Core.pass_began (k : Core) (n : Nat) : (k.pass n).began = k.began := rfl
@[simp] theorem Core.pass_ended (k : Core) (n : Nat) : (k.pass n).ended = k.ended := rfl
@[simp] theorem Core.pass_stepIdle (k : Core) (n : Nat) : (k.pass n).stepIdle = k.stepIdle := rfl

@[simp] theorem Core.spendIssue_g (k : Core) (n : Nat) : (k.spendIssue n).g = k.g := rfl
@[simp] theorem Core.spendIssue_d (k : Core) (n : Nat) : (k.spendIssue n).d = k.d := rfl
@[simp] theorem Core.spendIssue_c (k : Core) (n : Nat) : (k.spendIssue n).c = k.c := rfl
@[simp] theorem Core.spendIssue_cPoison (k : Core) (n : Nat) : (k.spendIssue n).cPoison = k.cPoison := rfl
@[simp] theorem Core.spendIssue_cSrc (k : Core) (n : Nat) : (k.spendIssue n).cSrc = k.cSrc := rfl
@[simp] theorem Core.spendIssue_pc (k : Core) (n : Nat) : (k.spendIssue n).pc = k.pc := rfl
@[simp] theorem Core.spendIssue_run (k : Core) (n : Nat) : (k.spendIssue n).run = k.run := rfl
@[simp] theorem Core.spendIssue_exit (k : Core) (n : Nat) : (k.spendIssue n).exit = k.exit := rfl
@[simp] theorem Core.spendIssue_fault (k : Core) (n : Nat) : (k.spendIssue n).fault = k.fault := rfl
@[simp] theorem Core.spendIssue_rank (k : Core) (n : Nat) : (k.spendIssue n).rank = k.rank := rfl
@[simp] theorem Core.spendIssue_fflags (k : Core) (n : Nat) : (k.spendIssue n).fflags = k.fflags := rfl
@[simp] theorem Core.spendIssue_frm (k : Core) (n : Nat) : (k.spendIssue n).frm = k.frm := rfl
@[simp] theorem Core.spendIssue_lfsr (k : Core) (n : Nat) : (k.spendIssue n).lfsr = k.lfsr := rfl
@[simp] theorem Core.spendIssue_instret (k : Core) (n : Nat) : (k.spendIssue n).instret = k.instret := rfl
@[simp] theorem Core.spendIssue_step (k : Core) (n : Nat) : (k.spendIssue n).step = k.step := rfl
@[simp] theorem Core.spendIssue_job (k : Core) (n : Nat) : (k.spendIssue n).job = k.job := rfl
@[simp] theorem Core.spendIssue_jgen (k : Core) (n : Nat) : (k.spendIssue n).jgen = k.jgen := rfl
@[simp] theorem Core.spendIssue_dyn (k : Core) (n : Nat) : (k.spendIssue n).dyn = k.dyn := rfl
@[simp] theorem Core.spendIssue_image (k : Core) (n : Nat) : (k.spendIssue n).image = k.image := rfl
@[simp] theorem Core.spendIssue_wait (k : Core) (n : Nat) : (k.spendIssue n).wait = k.wait := rfl
@[simp] theorem Core.spendIssue_gReady (k : Core) (n : Nat) : (k.spendIssue n).gReady = k.gReady := rfl
@[simp] theorem Core.spendIssue_dReady (k : Core) (n : Nat) : (k.spendIssue n).dReady = k.dReady := rfl
@[simp] theorem Core.spendIssue_stores (k : Core) (n : Nat) : (k.spendIssue n).stores = k.stores := rfl
@[simp] theorem Core.spendIssue_tmm (k : Core) (n : Nat) : (k.spendIssue n).tmm = k.tmm := rfl
@[simp] theorem Core.spendIssue_mov (k : Core) (n : Nat) : (k.spendIssue n).mov = k.mov := rfl
@[simp] theorem Core.spendIssue_tmmFree (k : Core) (n : Nat) : (k.spendIssue n).tmmFree = k.tmmFree := rfl
@[simp] theorem Core.spendIssue_movFree (k : Core) (n : Nat) : (k.spendIssue n).movFree = k.movFree := rfl
@[simp] theorem Core.spendIssue_lastUnit (k : Core) (n : Nat) : (k.spendIssue n).lastUnit = k.lastUnit := rfl
@[simp] theorem Core.spendIssue_vop (k : Core) (n : Nat) : (k.spendIssue n).vop = k.vop := rfl
@[simp] theorem Core.spendIssue_scat (k : Core) (n : Nat) : (k.spendIssue n).scat = k.scat := rfl
@[simp] theorem Core.spendIssue_mem (k : Core) (n : Nat) : (k.spendIssue n).mem = k.mem := rfl
@[simp] theorem Core.spendIssue_poison (k : Core) (n : Nat) : (k.spendIssue n).poison = k.poison := rfl
@[simp] theorem Core.spendIssue_remote (k : Core) (n : Nat) : (k.spendIssue n).remote = k.remote := rfl
@[simp] theorem Core.spendIssue_send (k : Core) (n : Nat) : (k.spendIssue n).send = k.send := rfl
@[simp] theorem Core.spendIssue_storeRun (k : Core) (n : Nat) : (k.spendIssue n).storeRun = k.storeRun := rfl
@[simp] theorem Core.spendIssue_inj (k : Core) (n : Nat) : (k.spendIssue n).inj = k.inj := rfl
@[simp] theorem Core.spendIssue_errand (k : Core) (n : Nat) : (k.spendIssue n).errand = k.errand := rfl
@[simp] theorem Core.spendIssue_groups (k : Core) (n : Nat) : (k.spendIssue n).groups = k.groups := rfl
@[simp] theorem Core.spendIssue_ep (k : Core) (n : Nat) : (k.spendIssue n).ep = k.ep := rfl
@[simp] theorem Core.spendIssue_tq (k : Core) (n : Nat) : (k.spendIssue n).tq = k.tq := rfl
@[simp] theorem Core.spendIssue_win (k : Core) (n : Nat) : (k.spendIssue n).win = k.win := rfl
@[simp] theorem Core.spendIssue_meFaulty (k : Core) (n : Nat) : (k.spendIssue n).meFaulty = k.meFaulty := rfl
@[simp] theorem Core.spendIssue_recovery (k : Core) (n : Nat) : (k.spendIssue n).recovery = k.recovery := rfl
@[simp] theorem Core.spendIssue_began (k : Core) (n : Nat) : (k.spendIssue n).began = k.began := rfl
@[simp] theorem Core.spendIssue_ended (k : Core) (n : Nat) : (k.spendIssue n).ended = k.ended := rfl
@[simp] theorem Core.spendIssue_stepIdle (k : Core) (n : Nat) : (k.spendIssue n).stepIdle = k.stepIdle := rfl

@[simp] theorem Core.spendCompute_g (k : Core) (n : Nat) : (k.spendCompute n).g = k.g := rfl
@[simp] theorem Core.spendCompute_d (k : Core) (n : Nat) : (k.spendCompute n).d = k.d := rfl
@[simp] theorem Core.spendCompute_c (k : Core) (n : Nat) : (k.spendCompute n).c = k.c := rfl
@[simp] theorem Core.spendCompute_cPoison (k : Core) (n : Nat) : (k.spendCompute n).cPoison = k.cPoison := rfl
@[simp] theorem Core.spendCompute_cSrc (k : Core) (n : Nat) : (k.spendCompute n).cSrc = k.cSrc := rfl
@[simp] theorem Core.spendCompute_pc (k : Core) (n : Nat) : (k.spendCompute n).pc = k.pc := rfl
@[simp] theorem Core.spendCompute_run (k : Core) (n : Nat) : (k.spendCompute n).run = k.run := rfl
@[simp] theorem Core.spendCompute_exit (k : Core) (n : Nat) : (k.spendCompute n).exit = k.exit := rfl
@[simp] theorem Core.spendCompute_fault (k : Core) (n : Nat) : (k.spendCompute n).fault = k.fault := rfl
@[simp] theorem Core.spendCompute_rank (k : Core) (n : Nat) : (k.spendCompute n).rank = k.rank := rfl
@[simp] theorem Core.spendCompute_fflags (k : Core) (n : Nat) : (k.spendCompute n).fflags = k.fflags := rfl
@[simp] theorem Core.spendCompute_frm (k : Core) (n : Nat) : (k.spendCompute n).frm = k.frm := rfl
@[simp] theorem Core.spendCompute_lfsr (k : Core) (n : Nat) : (k.spendCompute n).lfsr = k.lfsr := rfl
@[simp] theorem Core.spendCompute_instret (k : Core) (n : Nat) : (k.spendCompute n).instret = k.instret := rfl
@[simp] theorem Core.spendCompute_step (k : Core) (n : Nat) : (k.spendCompute n).step = k.step := rfl
@[simp] theorem Core.spendCompute_job (k : Core) (n : Nat) : (k.spendCompute n).job = k.job := rfl
@[simp] theorem Core.spendCompute_jgen (k : Core) (n : Nat) : (k.spendCompute n).jgen = k.jgen := rfl
@[simp] theorem Core.spendCompute_dyn (k : Core) (n : Nat) : (k.spendCompute n).dyn = k.dyn := rfl
@[simp] theorem Core.spendCompute_image (k : Core) (n : Nat) : (k.spendCompute n).image = k.image := rfl
@[simp] theorem Core.spendCompute_wait (k : Core) (n : Nat) : (k.spendCompute n).wait = k.wait := rfl
@[simp] theorem Core.spendCompute_gReady (k : Core) (n : Nat) : (k.spendCompute n).gReady = k.gReady := rfl
@[simp] theorem Core.spendCompute_dReady (k : Core) (n : Nat) : (k.spendCompute n).dReady = k.dReady := rfl
@[simp] theorem Core.spendCompute_stores (k : Core) (n : Nat) : (k.spendCompute n).stores = k.stores := rfl
@[simp] theorem Core.spendCompute_tmm (k : Core) (n : Nat) : (k.spendCompute n).tmm = k.tmm := rfl
@[simp] theorem Core.spendCompute_mov (k : Core) (n : Nat) : (k.spendCompute n).mov = k.mov := rfl
@[simp] theorem Core.spendCompute_tmmFree (k : Core) (n : Nat) : (k.spendCompute n).tmmFree = k.tmmFree := rfl
@[simp] theorem Core.spendCompute_movFree (k : Core) (n : Nat) : (k.spendCompute n).movFree = k.movFree := rfl
@[simp] theorem Core.spendCompute_lastUnit (k : Core) (n : Nat) : (k.spendCompute n).lastUnit = k.lastUnit := rfl
@[simp] theorem Core.spendCompute_vop (k : Core) (n : Nat) : (k.spendCompute n).vop = k.vop := rfl
@[simp] theorem Core.spendCompute_scat (k : Core) (n : Nat) : (k.spendCompute n).scat = k.scat := rfl
@[simp] theorem Core.spendCompute_mem (k : Core) (n : Nat) : (k.spendCompute n).mem = k.mem := rfl
@[simp] theorem Core.spendCompute_poison (k : Core) (n : Nat) : (k.spendCompute n).poison = k.poison := rfl
@[simp] theorem Core.spendCompute_remote (k : Core) (n : Nat) : (k.spendCompute n).remote = k.remote := rfl
@[simp] theorem Core.spendCompute_send (k : Core) (n : Nat) : (k.spendCompute n).send = k.send := rfl
@[simp] theorem Core.spendCompute_storeRun (k : Core) (n : Nat) : (k.spendCompute n).storeRun = k.storeRun := rfl
@[simp] theorem Core.spendCompute_inj (k : Core) (n : Nat) : (k.spendCompute n).inj = k.inj := rfl
@[simp] theorem Core.spendCompute_errand (k : Core) (n : Nat) : (k.spendCompute n).errand = k.errand := rfl
@[simp] theorem Core.spendCompute_groups (k : Core) (n : Nat) : (k.spendCompute n).groups = k.groups := rfl
@[simp] theorem Core.spendCompute_ep (k : Core) (n : Nat) : (k.spendCompute n).ep = k.ep := rfl
@[simp] theorem Core.spendCompute_tq (k : Core) (n : Nat) : (k.spendCompute n).tq = k.tq := rfl
@[simp] theorem Core.spendCompute_win (k : Core) (n : Nat) : (k.spendCompute n).win = k.win := rfl
@[simp] theorem Core.spendCompute_meFaulty (k : Core) (n : Nat) : (k.spendCompute n).meFaulty = k.meFaulty := rfl
@[simp] theorem Core.spendCompute_recovery (k : Core) (n : Nat) : (k.spendCompute n).recovery = k.recovery := rfl
@[simp] theorem Core.spendCompute_began (k : Core) (n : Nat) : (k.spendCompute n).began = k.began := rfl
@[simp] theorem Core.spendCompute_ended (k : Core) (n : Nat) : (k.spendCompute n).ended = k.ended := rfl
@[simp] theorem Core.spendCompute_stepIdle (k : Core) (n : Nat) : (k.spendCompute n).stepIdle = k.stepIdle := rfl

@[simp] theorem Core.spendBooked_g (k : Core) (n : Nat) : (k.spendBooked n).g = k.g := rfl
@[simp] theorem Core.spendBooked_d (k : Core) (n : Nat) : (k.spendBooked n).d = k.d := rfl
@[simp] theorem Core.spendBooked_c (k : Core) (n : Nat) : (k.spendBooked n).c = k.c := rfl
@[simp] theorem Core.spendBooked_cPoison (k : Core) (n : Nat) : (k.spendBooked n).cPoison = k.cPoison := rfl
@[simp] theorem Core.spendBooked_cSrc (k : Core) (n : Nat) : (k.spendBooked n).cSrc = k.cSrc := rfl
@[simp] theorem Core.spendBooked_pc (k : Core) (n : Nat) : (k.spendBooked n).pc = k.pc := rfl
@[simp] theorem Core.spendBooked_run (k : Core) (n : Nat) : (k.spendBooked n).run = k.run := rfl
@[simp] theorem Core.spendBooked_exit (k : Core) (n : Nat) : (k.spendBooked n).exit = k.exit := rfl
@[simp] theorem Core.spendBooked_fault (k : Core) (n : Nat) : (k.spendBooked n).fault = k.fault := rfl
@[simp] theorem Core.spendBooked_rank (k : Core) (n : Nat) : (k.spendBooked n).rank = k.rank := rfl
@[simp] theorem Core.spendBooked_fflags (k : Core) (n : Nat) : (k.spendBooked n).fflags = k.fflags := rfl
@[simp] theorem Core.spendBooked_frm (k : Core) (n : Nat) : (k.spendBooked n).frm = k.frm := rfl
@[simp] theorem Core.spendBooked_lfsr (k : Core) (n : Nat) : (k.spendBooked n).lfsr = k.lfsr := rfl
@[simp] theorem Core.spendBooked_instret (k : Core) (n : Nat) : (k.spendBooked n).instret = k.instret := rfl
@[simp] theorem Core.spendBooked_step (k : Core) (n : Nat) : (k.spendBooked n).step = k.step := rfl
@[simp] theorem Core.spendBooked_job (k : Core) (n : Nat) : (k.spendBooked n).job = k.job := rfl
@[simp] theorem Core.spendBooked_jgen (k : Core) (n : Nat) : (k.spendBooked n).jgen = k.jgen := rfl
@[simp] theorem Core.spendBooked_dyn (k : Core) (n : Nat) : (k.spendBooked n).dyn = k.dyn := rfl
@[simp] theorem Core.spendBooked_image (k : Core) (n : Nat) : (k.spendBooked n).image = k.image := rfl
@[simp] theorem Core.spendBooked_wait (k : Core) (n : Nat) : (k.spendBooked n).wait = k.wait := rfl
@[simp] theorem Core.spendBooked_gReady (k : Core) (n : Nat) : (k.spendBooked n).gReady = k.gReady := rfl
@[simp] theorem Core.spendBooked_dReady (k : Core) (n : Nat) : (k.spendBooked n).dReady = k.dReady := rfl
@[simp] theorem Core.spendBooked_stores (k : Core) (n : Nat) : (k.spendBooked n).stores = k.stores := rfl
@[simp] theorem Core.spendBooked_tmm (k : Core) (n : Nat) : (k.spendBooked n).tmm = k.tmm := rfl
@[simp] theorem Core.spendBooked_mov (k : Core) (n : Nat) : (k.spendBooked n).mov = k.mov := rfl
@[simp] theorem Core.spendBooked_tmmFree (k : Core) (n : Nat) : (k.spendBooked n).tmmFree = k.tmmFree := rfl
@[simp] theorem Core.spendBooked_movFree (k : Core) (n : Nat) : (k.spendBooked n).movFree = k.movFree := rfl
@[simp] theorem Core.spendBooked_lastUnit (k : Core) (n : Nat) : (k.spendBooked n).lastUnit = k.lastUnit := rfl
@[simp] theorem Core.spendBooked_vop (k : Core) (n : Nat) : (k.spendBooked n).vop = k.vop := rfl
@[simp] theorem Core.spendBooked_scat (k : Core) (n : Nat) : (k.spendBooked n).scat = k.scat := rfl
@[simp] theorem Core.spendBooked_mem (k : Core) (n : Nat) : (k.spendBooked n).mem = k.mem := rfl
@[simp] theorem Core.spendBooked_poison (k : Core) (n : Nat) : (k.spendBooked n).poison = k.poison := rfl
@[simp] theorem Core.spendBooked_remote (k : Core) (n : Nat) : (k.spendBooked n).remote = k.remote := rfl
@[simp] theorem Core.spendBooked_send (k : Core) (n : Nat) : (k.spendBooked n).send = k.send := rfl
@[simp] theorem Core.spendBooked_storeRun (k : Core) (n : Nat) : (k.spendBooked n).storeRun = k.storeRun := rfl
@[simp] theorem Core.spendBooked_inj (k : Core) (n : Nat) : (k.spendBooked n).inj = k.inj := rfl
@[simp] theorem Core.spendBooked_errand (k : Core) (n : Nat) : (k.spendBooked n).errand = k.errand := rfl
@[simp] theorem Core.spendBooked_groups (k : Core) (n : Nat) : (k.spendBooked n).groups = k.groups := rfl
@[simp] theorem Core.spendBooked_ep (k : Core) (n : Nat) : (k.spendBooked n).ep = k.ep := rfl
@[simp] theorem Core.spendBooked_tq (k : Core) (n : Nat) : (k.spendBooked n).tq = k.tq := rfl
@[simp] theorem Core.spendBooked_win (k : Core) (n : Nat) : (k.spendBooked n).win = k.win := rfl
@[simp] theorem Core.spendBooked_meFaulty (k : Core) (n : Nat) : (k.spendBooked n).meFaulty = k.meFaulty := rfl
@[simp] theorem Core.spendBooked_recovery (k : Core) (n : Nat) : (k.spendBooked n).recovery = k.recovery := rfl
@[simp] theorem Core.spendBooked_began (k : Core) (n : Nat) : (k.spendBooked n).began = k.began := rfl
@[simp] theorem Core.spendBooked_ended (k : Core) (n : Nat) : (k.spendBooked n).ended = k.ended := rfl
@[simp] theorem Core.spendBooked_stepIdle (k : Core) (n : Nat) : (k.spendBooked n).stepIdle = k.stepIdle := rfl

@[simp] theorem Core.spendStall_g (k : Core) (cause idle n : Nat) : (k.spendStall cause idle n).g = k.g := by unfold Core.spendStall; split <;> rfl
@[simp] theorem Core.spendStall_d (k : Core) (cause idle n : Nat) : (k.spendStall cause idle n).d = k.d := by unfold Core.spendStall; split <;> rfl
@[simp] theorem Core.spendStall_c (k : Core) (cause idle n : Nat) : (k.spendStall cause idle n).c = k.c := by unfold Core.spendStall; split <;> rfl
@[simp] theorem Core.spendStall_cPoison (k : Core) (cause idle n : Nat) : (k.spendStall cause idle n).cPoison = k.cPoison := by unfold Core.spendStall; split <;> rfl
@[simp] theorem Core.spendStall_cSrc (k : Core) (cause idle n : Nat) : (k.spendStall cause idle n).cSrc = k.cSrc := by unfold Core.spendStall; split <;> rfl
@[simp] theorem Core.spendStall_pc (k : Core) (cause idle n : Nat) : (k.spendStall cause idle n).pc = k.pc := by unfold Core.spendStall; split <;> rfl
@[simp] theorem Core.spendStall_run (k : Core) (cause idle n : Nat) : (k.spendStall cause idle n).run = k.run := by unfold Core.spendStall; split <;> rfl
@[simp] theorem Core.spendStall_exit (k : Core) (cause idle n : Nat) : (k.spendStall cause idle n).exit = k.exit := by unfold Core.spendStall; split <;> rfl
@[simp] theorem Core.spendStall_fault (k : Core) (cause idle n : Nat) : (k.spendStall cause idle n).fault = k.fault := by unfold Core.spendStall; split <;> rfl
@[simp] theorem Core.spendStall_rank (k : Core) (cause idle n : Nat) : (k.spendStall cause idle n).rank = k.rank := by unfold Core.spendStall; split <;> rfl
@[simp] theorem Core.spendStall_fflags (k : Core) (cause idle n : Nat) : (k.spendStall cause idle n).fflags = k.fflags := by unfold Core.spendStall; split <;> rfl
@[simp] theorem Core.spendStall_frm (k : Core) (cause idle n : Nat) : (k.spendStall cause idle n).frm = k.frm := by unfold Core.spendStall; split <;> rfl
@[simp] theorem Core.spendStall_lfsr (k : Core) (cause idle n : Nat) : (k.spendStall cause idle n).lfsr = k.lfsr := by unfold Core.spendStall; split <;> rfl
@[simp] theorem Core.spendStall_instret (k : Core) (cause idle n : Nat) : (k.spendStall cause idle n).instret = k.instret := by unfold Core.spendStall; split <;> rfl
@[simp] theorem Core.spendStall_step (k : Core) (cause idle n : Nat) : (k.spendStall cause idle n).step = k.step := by unfold Core.spendStall; split <;> rfl
@[simp] theorem Core.spendStall_job (k : Core) (cause idle n : Nat) : (k.spendStall cause idle n).job = k.job := by unfold Core.spendStall; split <;> rfl
@[simp] theorem Core.spendStall_jgen (k : Core) (cause idle n : Nat) : (k.spendStall cause idle n).jgen = k.jgen := by unfold Core.spendStall; split <;> rfl
@[simp] theorem Core.spendStall_dyn (k : Core) (cause idle n : Nat) : (k.spendStall cause idle n).dyn = k.dyn := by unfold Core.spendStall; split <;> rfl
@[simp] theorem Core.spendStall_image (k : Core) (cause idle n : Nat) : (k.spendStall cause idle n).image = k.image := by unfold Core.spendStall; split <;> rfl
@[simp] theorem Core.spendStall_wait (k : Core) (cause idle n : Nat) : (k.spendStall cause idle n).wait = k.wait := by unfold Core.spendStall; split <;> rfl
@[simp] theorem Core.spendStall_gReady (k : Core) (cause idle n : Nat) : (k.spendStall cause idle n).gReady = k.gReady := by unfold Core.spendStall; split <;> rfl
@[simp] theorem Core.spendStall_dReady (k : Core) (cause idle n : Nat) : (k.spendStall cause idle n).dReady = k.dReady := by unfold Core.spendStall; split <;> rfl
@[simp] theorem Core.spendStall_stores (k : Core) (cause idle n : Nat) : (k.spendStall cause idle n).stores = k.stores := by unfold Core.spendStall; split <;> rfl
@[simp] theorem Core.spendStall_tmm (k : Core) (cause idle n : Nat) : (k.spendStall cause idle n).tmm = k.tmm := by unfold Core.spendStall; split <;> rfl
@[simp] theorem Core.spendStall_mov (k : Core) (cause idle n : Nat) : (k.spendStall cause idle n).mov = k.mov := by unfold Core.spendStall; split <;> rfl
@[simp] theorem Core.spendStall_tmmFree (k : Core) (cause idle n : Nat) : (k.spendStall cause idle n).tmmFree = k.tmmFree := by unfold Core.spendStall; split <;> rfl
@[simp] theorem Core.spendStall_movFree (k : Core) (cause idle n : Nat) : (k.spendStall cause idle n).movFree = k.movFree := by unfold Core.spendStall; split <;> rfl
@[simp] theorem Core.spendStall_lastUnit (k : Core) (cause idle n : Nat) : (k.spendStall cause idle n).lastUnit = k.lastUnit := by unfold Core.spendStall; split <;> rfl
@[simp] theorem Core.spendStall_vop (k : Core) (cause idle n : Nat) : (k.spendStall cause idle n).vop = k.vop := by unfold Core.spendStall; split <;> rfl
@[simp] theorem Core.spendStall_scat (k : Core) (cause idle n : Nat) : (k.spendStall cause idle n).scat = k.scat := by unfold Core.spendStall; split <;> rfl
@[simp] theorem Core.spendStall_mem (k : Core) (cause idle n : Nat) : (k.spendStall cause idle n).mem = k.mem := by unfold Core.spendStall; split <;> rfl
@[simp] theorem Core.spendStall_poison (k : Core) (cause idle n : Nat) : (k.spendStall cause idle n).poison = k.poison := by unfold Core.spendStall; split <;> rfl
@[simp] theorem Core.spendStall_remote (k : Core) (cause idle n : Nat) : (k.spendStall cause idle n).remote = k.remote := by unfold Core.spendStall; split <;> rfl
@[simp] theorem Core.spendStall_send (k : Core) (cause idle n : Nat) : (k.spendStall cause idle n).send = k.send := by unfold Core.spendStall; split <;> rfl
@[simp] theorem Core.spendStall_storeRun (k : Core) (cause idle n : Nat) : (k.spendStall cause idle n).storeRun = k.storeRun := by unfold Core.spendStall; split <;> rfl
@[simp] theorem Core.spendStall_inj (k : Core) (cause idle n : Nat) : (k.spendStall cause idle n).inj = k.inj := by unfold Core.spendStall; split <;> rfl
@[simp] theorem Core.spendStall_errand (k : Core) (cause idle n : Nat) : (k.spendStall cause idle n).errand = k.errand := by unfold Core.spendStall; split <;> rfl
@[simp] theorem Core.spendStall_groups (k : Core) (cause idle n : Nat) : (k.spendStall cause idle n).groups = k.groups := by unfold Core.spendStall; split <;> rfl
@[simp] theorem Core.spendStall_ep (k : Core) (cause idle n : Nat) : (k.spendStall cause idle n).ep = k.ep := by unfold Core.spendStall; split <;> rfl
@[simp] theorem Core.spendStall_tq (k : Core) (cause idle n : Nat) : (k.spendStall cause idle n).tq = k.tq := by unfold Core.spendStall; split <;> rfl
@[simp] theorem Core.spendStall_win (k : Core) (cause idle n : Nat) : (k.spendStall cause idle n).win = k.win := by unfold Core.spendStall; split <;> rfl
@[simp] theorem Core.spendStall_meFaulty (k : Core) (cause idle n : Nat) : (k.spendStall cause idle n).meFaulty = k.meFaulty := by unfold Core.spendStall; split <;> rfl
@[simp] theorem Core.spendStall_recovery (k : Core) (cause idle n : Nat) : (k.spendStall cause idle n).recovery = k.recovery := by unfold Core.spendStall; split <;> rfl
@[simp] theorem Core.spendStall_began (k : Core) (cause idle n : Nat) : (k.spendStall cause idle n).began = k.began := by unfold Core.spendStall; split <;> rfl
@[simp] theorem Core.spendStall_ended (k : Core) (cause idle n : Nat) : (k.spendStall cause idle n).ended = k.ended := by unfold Core.spendStall; split <;> rfl
@[simp] theorem Core.spendStall_stepIdle (k : Core) (cause idle n : Nat) : (k.spendStall cause idle n).stepIdle = k.stepIdle := by unfold Core.spendStall; split <;> rfl

@[simp] theorem Core.recover_g (k : Core) (n : Nat) : (k.recover n).g = k.g := rfl
@[simp] theorem Core.recover_d (k : Core) (n : Nat) : (k.recover n).d = k.d := rfl
@[simp] theorem Core.recover_c (k : Core) (n : Nat) : (k.recover n).c = k.c := rfl
@[simp] theorem Core.recover_cPoison (k : Core) (n : Nat) : (k.recover n).cPoison = k.cPoison := rfl
@[simp] theorem Core.recover_cSrc (k : Core) (n : Nat) : (k.recover n).cSrc = k.cSrc := rfl
@[simp] theorem Core.recover_pc (k : Core) (n : Nat) : (k.recover n).pc = k.pc := rfl
@[simp] theorem Core.recover_run (k : Core) (n : Nat) : (k.recover n).run = k.run := rfl
@[simp] theorem Core.recover_exit (k : Core) (n : Nat) : (k.recover n).exit = k.exit := rfl
@[simp] theorem Core.recover_fault (k : Core) (n : Nat) : (k.recover n).fault = k.fault := rfl
@[simp] theorem Core.recover_rank (k : Core) (n : Nat) : (k.recover n).rank = k.rank := rfl
@[simp] theorem Core.recover_fflags (k : Core) (n : Nat) : (k.recover n).fflags = k.fflags := rfl
@[simp] theorem Core.recover_frm (k : Core) (n : Nat) : (k.recover n).frm = k.frm := rfl
@[simp] theorem Core.recover_lfsr (k : Core) (n : Nat) : (k.recover n).lfsr = k.lfsr := rfl
@[simp] theorem Core.recover_instret (k : Core) (n : Nat) : (k.recover n).instret = k.instret := rfl
@[simp] theorem Core.recover_step (k : Core) (n : Nat) : (k.recover n).step = k.step := rfl
@[simp] theorem Core.recover_job (k : Core) (n : Nat) : (k.recover n).job = k.job := rfl
@[simp] theorem Core.recover_jgen (k : Core) (n : Nat) : (k.recover n).jgen = k.jgen := rfl
@[simp] theorem Core.recover_dyn (k : Core) (n : Nat) : (k.recover n).dyn = k.dyn := rfl
@[simp] theorem Core.recover_image (k : Core) (n : Nat) : (k.recover n).image = k.image := rfl
@[simp] theorem Core.recover_wait (k : Core) (n : Nat) : (k.recover n).wait = k.wait := rfl
@[simp] theorem Core.recover_gReady (k : Core) (n : Nat) : (k.recover n).gReady = k.gReady := rfl
@[simp] theorem Core.recover_dReady (k : Core) (n : Nat) : (k.recover n).dReady = k.dReady := rfl
@[simp] theorem Core.recover_stores (k : Core) (n : Nat) : (k.recover n).stores = k.stores := rfl
@[simp] theorem Core.recover_tmm (k : Core) (n : Nat) : (k.recover n).tmm = k.tmm := rfl
@[simp] theorem Core.recover_mov (k : Core) (n : Nat) : (k.recover n).mov = k.mov := rfl
@[simp] theorem Core.recover_tmmFree (k : Core) (n : Nat) : (k.recover n).tmmFree = k.tmmFree := rfl
@[simp] theorem Core.recover_movFree (k : Core) (n : Nat) : (k.recover n).movFree = k.movFree := rfl
@[simp] theorem Core.recover_lastUnit (k : Core) (n : Nat) : (k.recover n).lastUnit = k.lastUnit := rfl
@[simp] theorem Core.recover_vop (k : Core) (n : Nat) : (k.recover n).vop = k.vop := rfl
@[simp] theorem Core.recover_scat (k : Core) (n : Nat) : (k.recover n).scat = k.scat := rfl
@[simp] theorem Core.recover_mem (k : Core) (n : Nat) : (k.recover n).mem = k.mem := rfl
@[simp] theorem Core.recover_poison (k : Core) (n : Nat) : (k.recover n).poison = k.poison := rfl
@[simp] theorem Core.recover_remote (k : Core) (n : Nat) : (k.recover n).remote = k.remote := rfl
@[simp] theorem Core.recover_send (k : Core) (n : Nat) : (k.recover n).send = k.send := rfl
@[simp] theorem Core.recover_storeRun (k : Core) (n : Nat) : (k.recover n).storeRun = k.storeRun := rfl
@[simp] theorem Core.recover_inj (k : Core) (n : Nat) : (k.recover n).inj = k.inj := rfl
@[simp] theorem Core.recover_errand (k : Core) (n : Nat) : (k.recover n).errand = k.errand := rfl
@[simp] theorem Core.recover_groups (k : Core) (n : Nat) : (k.recover n).groups = k.groups := rfl
@[simp] theorem Core.recover_ep (k : Core) (n : Nat) : (k.recover n).ep = k.ep := rfl
@[simp] theorem Core.recover_tq (k : Core) (n : Nat) : (k.recover n).tq = k.tq := rfl
@[simp] theorem Core.recover_win (k : Core) (n : Nat) : (k.recover n).win = k.win := rfl
@[simp] theorem Core.recover_meFaulty (k : Core) (n : Nat) : (k.recover n).meFaulty = k.meFaulty := rfl
@[simp] theorem Core.recover_recovery (k : Core) (n : Nat) : (k.recover n).recovery = k.recovery := rfl
@[simp] theorem Core.recover_began (k : Core) (n : Nat) : (k.recover n).began = k.began := rfl
@[simp] theorem Core.recover_ended (k : Core) (n : Nat) : (k.recover n).ended = k.ended := rfl
@[simp] theorem Core.recover_stepIdle (k : Core) (n : Nat) : (k.recover n).stepIdle = k.stepIdle := rfl

@[simp] theorem Core.slots_g (k : Core) (port n : Nat) : (k.slots port n).g = k.g := rfl
@[simp] theorem Core.slots_d (k : Core) (port n : Nat) : (k.slots port n).d = k.d := rfl
@[simp] theorem Core.slots_c (k : Core) (port n : Nat) : (k.slots port n).c = k.c := rfl
@[simp] theorem Core.slots_cPoison (k : Core) (port n : Nat) : (k.slots port n).cPoison = k.cPoison := rfl
@[simp] theorem Core.slots_cSrc (k : Core) (port n : Nat) : (k.slots port n).cSrc = k.cSrc := rfl
@[simp] theorem Core.slots_pc (k : Core) (port n : Nat) : (k.slots port n).pc = k.pc := rfl
@[simp] theorem Core.slots_run (k : Core) (port n : Nat) : (k.slots port n).run = k.run := rfl
@[simp] theorem Core.slots_exit (k : Core) (port n : Nat) : (k.slots port n).exit = k.exit := rfl
@[simp] theorem Core.slots_fault (k : Core) (port n : Nat) : (k.slots port n).fault = k.fault := rfl
@[simp] theorem Core.slots_rank (k : Core) (port n : Nat) : (k.slots port n).rank = k.rank := rfl
@[simp] theorem Core.slots_fflags (k : Core) (port n : Nat) : (k.slots port n).fflags = k.fflags := rfl
@[simp] theorem Core.slots_frm (k : Core) (port n : Nat) : (k.slots port n).frm = k.frm := rfl
@[simp] theorem Core.slots_lfsr (k : Core) (port n : Nat) : (k.slots port n).lfsr = k.lfsr := rfl
@[simp] theorem Core.slots_cycle (k : Core) (port n : Nat) : (k.slots port n).cycle = k.cycle := rfl
@[simp] theorem Core.slots_instret (k : Core) (port n : Nat) : (k.slots port n).instret = k.instret := rfl
@[simp] theorem Core.slots_step (k : Core) (port n : Nat) : (k.slots port n).step = k.step := rfl
@[simp] theorem Core.slots_job (k : Core) (port n : Nat) : (k.slots port n).job = k.job := rfl
@[simp] theorem Core.slots_jgen (k : Core) (port n : Nat) : (k.slots port n).jgen = k.jgen := rfl
@[simp] theorem Core.slots_dyn (k : Core) (port n : Nat) : (k.slots port n).dyn = k.dyn := rfl
@[simp] theorem Core.slots_image (k : Core) (port n : Nat) : (k.slots port n).image = k.image := rfl
@[simp] theorem Core.slots_wait (k : Core) (port n : Nat) : (k.slots port n).wait = k.wait := rfl
@[simp] theorem Core.slots_gReady (k : Core) (port n : Nat) : (k.slots port n).gReady = k.gReady := rfl
@[simp] theorem Core.slots_dReady (k : Core) (port n : Nat) : (k.slots port n).dReady = k.dReady := rfl
@[simp] theorem Core.slots_stores (k : Core) (port n : Nat) : (k.slots port n).stores = k.stores := rfl
@[simp] theorem Core.slots_tmm (k : Core) (port n : Nat) : (k.slots port n).tmm = k.tmm := rfl
@[simp] theorem Core.slots_mov (k : Core) (port n : Nat) : (k.slots port n).mov = k.mov := rfl
@[simp] theorem Core.slots_tmmFree (k : Core) (port n : Nat) : (k.slots port n).tmmFree = k.tmmFree := rfl
@[simp] theorem Core.slots_movFree (k : Core) (port n : Nat) : (k.slots port n).movFree = k.movFree := rfl
@[simp] theorem Core.slots_lastUnit (k : Core) (port n : Nat) : (k.slots port n).lastUnit = k.lastUnit := rfl
@[simp] theorem Core.slots_vop (k : Core) (port n : Nat) : (k.slots port n).vop = k.vop := rfl
@[simp] theorem Core.slots_scat (k : Core) (port n : Nat) : (k.slots port n).scat = k.scat := rfl
@[simp] theorem Core.slots_mem (k : Core) (port n : Nat) : (k.slots port n).mem = k.mem := rfl
@[simp] theorem Core.slots_poison (k : Core) (port n : Nat) : (k.slots port n).poison = k.poison := rfl
@[simp] theorem Core.slots_remote (k : Core) (port n : Nat) : (k.slots port n).remote = k.remote := rfl
@[simp] theorem Core.slots_send (k : Core) (port n : Nat) : (k.slots port n).send = k.send := rfl
@[simp] theorem Core.slots_storeRun (k : Core) (port n : Nat) : (k.slots port n).storeRun = k.storeRun := rfl
@[simp] theorem Core.slots_inj (k : Core) (port n : Nat) : (k.slots port n).inj = k.inj := rfl
@[simp] theorem Core.slots_errand (k : Core) (port n : Nat) : (k.slots port n).errand = k.errand := rfl
@[simp] theorem Core.slots_groups (k : Core) (port n : Nat) : (k.slots port n).groups = k.groups := rfl
@[simp] theorem Core.slots_ep (k : Core) (port n : Nat) : (k.slots port n).ep = k.ep := rfl
@[simp] theorem Core.slots_tq (k : Core) (port n : Nat) : (k.slots port n).tq = k.tq := rfl
@[simp] theorem Core.slots_win (k : Core) (port n : Nat) : (k.slots port n).win = k.win := rfl
@[simp] theorem Core.slots_meFaulty (k : Core) (port n : Nat) : (k.slots port n).meFaulty = k.meFaulty := rfl
@[simp] theorem Core.slots_recovery (k : Core) (port n : Nat) : (k.slots port n).recovery = k.recovery := rfl
@[simp] theorem Core.slots_began (k : Core) (port n : Nat) : (k.slots port n).began = k.began := rfl
@[simp] theorem Core.slots_ended (k : Core) (port n : Nat) : (k.slots port n).ended = k.ended := rfl
@[simp] theorem Core.slots_stepIdle (k : Core) (port n : Nat) : (k.slots port n).stepIdle = k.stepIdle := rfl

@[simp] theorem Core.chargeWait_g (k : Core) (cause idle b n : Nat) : (k.chargeWait cause idle b n).g = k.g := by unfold Core.chargeWait; split <;> simp
@[simp] theorem Core.chargeWait_d (k : Core) (cause idle b n : Nat) : (k.chargeWait cause idle b n).d = k.d := by unfold Core.chargeWait; split <;> simp
@[simp] theorem Core.chargeWait_c (k : Core) (cause idle b n : Nat) : (k.chargeWait cause idle b n).c = k.c := by unfold Core.chargeWait; split <;> simp
@[simp] theorem Core.chargeWait_cPoison (k : Core) (cause idle b n : Nat) : (k.chargeWait cause idle b n).cPoison = k.cPoison := by unfold Core.chargeWait; split <;> simp
@[simp] theorem Core.chargeWait_cSrc (k : Core) (cause idle b n : Nat) : (k.chargeWait cause idle b n).cSrc = k.cSrc := by unfold Core.chargeWait; split <;> simp
@[simp] theorem Core.chargeWait_pc (k : Core) (cause idle b n : Nat) : (k.chargeWait cause idle b n).pc = k.pc := by unfold Core.chargeWait; split <;> simp
@[simp] theorem Core.chargeWait_run (k : Core) (cause idle b n : Nat) : (k.chargeWait cause idle b n).run = k.run := by unfold Core.chargeWait; split <;> simp
@[simp] theorem Core.chargeWait_exit (k : Core) (cause idle b n : Nat) : (k.chargeWait cause idle b n).exit = k.exit := by unfold Core.chargeWait; split <;> simp
@[simp] theorem Core.chargeWait_fault (k : Core) (cause idle b n : Nat) : (k.chargeWait cause idle b n).fault = k.fault := by unfold Core.chargeWait; split <;> simp
@[simp] theorem Core.chargeWait_rank (k : Core) (cause idle b n : Nat) : (k.chargeWait cause idle b n).rank = k.rank := by unfold Core.chargeWait; split <;> simp
@[simp] theorem Core.chargeWait_fflags (k : Core) (cause idle b n : Nat) : (k.chargeWait cause idle b n).fflags = k.fflags := by unfold Core.chargeWait; split <;> simp
@[simp] theorem Core.chargeWait_frm (k : Core) (cause idle b n : Nat) : (k.chargeWait cause idle b n).frm = k.frm := by unfold Core.chargeWait; split <;> simp
@[simp] theorem Core.chargeWait_lfsr (k : Core) (cause idle b n : Nat) : (k.chargeWait cause idle b n).lfsr = k.lfsr := by unfold Core.chargeWait; split <;> simp
@[simp] theorem Core.chargeWait_instret (k : Core) (cause idle b n : Nat) : (k.chargeWait cause idle b n).instret = k.instret := by unfold Core.chargeWait; split <;> simp
@[simp] theorem Core.chargeWait_step (k : Core) (cause idle b n : Nat) : (k.chargeWait cause idle b n).step = k.step := by unfold Core.chargeWait; split <;> simp
@[simp] theorem Core.chargeWait_job (k : Core) (cause idle b n : Nat) : (k.chargeWait cause idle b n).job = k.job := by unfold Core.chargeWait; split <;> simp
@[simp] theorem Core.chargeWait_jgen (k : Core) (cause idle b n : Nat) : (k.chargeWait cause idle b n).jgen = k.jgen := by unfold Core.chargeWait; split <;> simp
@[simp] theorem Core.chargeWait_dyn (k : Core) (cause idle b n : Nat) : (k.chargeWait cause idle b n).dyn = k.dyn := by unfold Core.chargeWait; split <;> simp
@[simp] theorem Core.chargeWait_image (k : Core) (cause idle b n : Nat) : (k.chargeWait cause idle b n).image = k.image := by unfold Core.chargeWait; split <;> simp
@[simp] theorem Core.chargeWait_wait (k : Core) (cause idle b n : Nat) : (k.chargeWait cause idle b n).wait = k.wait := by unfold Core.chargeWait; split <;> simp
@[simp] theorem Core.chargeWait_gReady (k : Core) (cause idle b n : Nat) : (k.chargeWait cause idle b n).gReady = k.gReady := by unfold Core.chargeWait; split <;> simp
@[simp] theorem Core.chargeWait_dReady (k : Core) (cause idle b n : Nat) : (k.chargeWait cause idle b n).dReady = k.dReady := by unfold Core.chargeWait; split <;> simp
@[simp] theorem Core.chargeWait_stores (k : Core) (cause idle b n : Nat) : (k.chargeWait cause idle b n).stores = k.stores := by unfold Core.chargeWait; split <;> simp
@[simp] theorem Core.chargeWait_tmm (k : Core) (cause idle b n : Nat) : (k.chargeWait cause idle b n).tmm = k.tmm := by unfold Core.chargeWait; split <;> simp
@[simp] theorem Core.chargeWait_mov (k : Core) (cause idle b n : Nat) : (k.chargeWait cause idle b n).mov = k.mov := by unfold Core.chargeWait; split <;> simp
@[simp] theorem Core.chargeWait_tmmFree (k : Core) (cause idle b n : Nat) : (k.chargeWait cause idle b n).tmmFree = k.tmmFree := by unfold Core.chargeWait; split <;> simp
@[simp] theorem Core.chargeWait_movFree (k : Core) (cause idle b n : Nat) : (k.chargeWait cause idle b n).movFree = k.movFree := by unfold Core.chargeWait; split <;> simp
@[simp] theorem Core.chargeWait_lastUnit (k : Core) (cause idle b n : Nat) : (k.chargeWait cause idle b n).lastUnit = k.lastUnit := by unfold Core.chargeWait; split <;> simp
@[simp] theorem Core.chargeWait_vop (k : Core) (cause idle b n : Nat) : (k.chargeWait cause idle b n).vop = k.vop := by unfold Core.chargeWait; split <;> simp
@[simp] theorem Core.chargeWait_scat (k : Core) (cause idle b n : Nat) : (k.chargeWait cause idle b n).scat = k.scat := by unfold Core.chargeWait; split <;> simp
@[simp] theorem Core.chargeWait_mem (k : Core) (cause idle b n : Nat) : (k.chargeWait cause idle b n).mem = k.mem := by unfold Core.chargeWait; split <;> simp
@[simp] theorem Core.chargeWait_poison (k : Core) (cause idle b n : Nat) : (k.chargeWait cause idle b n).poison = k.poison := by unfold Core.chargeWait; split <;> simp
@[simp] theorem Core.chargeWait_remote (k : Core) (cause idle b n : Nat) : (k.chargeWait cause idle b n).remote = k.remote := by unfold Core.chargeWait; split <;> simp
@[simp] theorem Core.chargeWait_send (k : Core) (cause idle b n : Nat) : (k.chargeWait cause idle b n).send = k.send := by unfold Core.chargeWait; split <;> simp
@[simp] theorem Core.chargeWait_storeRun (k : Core) (cause idle b n : Nat) : (k.chargeWait cause idle b n).storeRun = k.storeRun := by unfold Core.chargeWait; split <;> simp
@[simp] theorem Core.chargeWait_inj (k : Core) (cause idle b n : Nat) : (k.chargeWait cause idle b n).inj = k.inj := by unfold Core.chargeWait; split <;> simp
@[simp] theorem Core.chargeWait_errand (k : Core) (cause idle b n : Nat) : (k.chargeWait cause idle b n).errand = k.errand := by unfold Core.chargeWait; split <;> simp
@[simp] theorem Core.chargeWait_groups (k : Core) (cause idle b n : Nat) : (k.chargeWait cause idle b n).groups = k.groups := by unfold Core.chargeWait; split <;> simp
@[simp] theorem Core.chargeWait_ep (k : Core) (cause idle b n : Nat) : (k.chargeWait cause idle b n).ep = k.ep := by unfold Core.chargeWait; split <;> simp
@[simp] theorem Core.chargeWait_tq (k : Core) (cause idle b n : Nat) : (k.chargeWait cause idle b n).tq = k.tq := by unfold Core.chargeWait; split <;> simp
@[simp] theorem Core.chargeWait_win (k : Core) (cause idle b n : Nat) : (k.chargeWait cause idle b n).win = k.win := by unfold Core.chargeWait; split <;> simp
@[simp] theorem Core.chargeWait_meFaulty (k : Core) (cause idle b n : Nat) : (k.chargeWait cause idle b n).meFaulty = k.meFaulty := by unfold Core.chargeWait; split <;> simp
@[simp] theorem Core.chargeWait_recovery (k : Core) (cause idle b n : Nat) : (k.chargeWait cause idle b n).recovery = k.recovery := by unfold Core.chargeWait; split <;> simp
@[simp] theorem Core.chargeWait_began (k : Core) (cause idle b n : Nat) : (k.chargeWait cause idle b n).began = k.began := by unfold Core.chargeWait; split <;> simp
@[simp] theorem Core.chargeWait_ended (k : Core) (cause idle b n : Nat) : (k.chargeWait cause idle b n).ended = k.ended := by unfold Core.chargeWait; split <;> simp
@[simp] theorem Core.chargeWait_stepIdle (k : Core) (cause idle b n : Nat) : (k.chargeWait cause idle b n).stepIdle = k.stepIdle := by unfold Core.chargeWait; split <;> simp

@[simp] theorem Core.bookWait_g (k : Core) (dflt n : Nat) : (k.bookWait dflt n).g = k.g := by unfold Core.bookWait; split <;> simp
@[simp] theorem Core.bookWait_d (k : Core) (dflt n : Nat) : (k.bookWait dflt n).d = k.d := by unfold Core.bookWait; split <;> simp
@[simp] theorem Core.bookWait_c (k : Core) (dflt n : Nat) : (k.bookWait dflt n).c = k.c := by unfold Core.bookWait; split <;> simp
@[simp] theorem Core.bookWait_cPoison (k : Core) (dflt n : Nat) : (k.bookWait dflt n).cPoison = k.cPoison := by unfold Core.bookWait; split <;> simp
@[simp] theorem Core.bookWait_cSrc (k : Core) (dflt n : Nat) : (k.bookWait dflt n).cSrc = k.cSrc := by unfold Core.bookWait; split <;> simp
@[simp] theorem Core.bookWait_pc (k : Core) (dflt n : Nat) : (k.bookWait dflt n).pc = k.pc := by unfold Core.bookWait; split <;> simp
@[simp] theorem Core.bookWait_run (k : Core) (dflt n : Nat) : (k.bookWait dflt n).run = k.run := by unfold Core.bookWait; split <;> simp
@[simp] theorem Core.bookWait_exit (k : Core) (dflt n : Nat) : (k.bookWait dflt n).exit = k.exit := by unfold Core.bookWait; split <;> simp
@[simp] theorem Core.bookWait_fault (k : Core) (dflt n : Nat) : (k.bookWait dflt n).fault = k.fault := by unfold Core.bookWait; split <;> simp
@[simp] theorem Core.bookWait_rank (k : Core) (dflt n : Nat) : (k.bookWait dflt n).rank = k.rank := by unfold Core.bookWait; split <;> simp
@[simp] theorem Core.bookWait_fflags (k : Core) (dflt n : Nat) : (k.bookWait dflt n).fflags = k.fflags := by unfold Core.bookWait; split <;> simp
@[simp] theorem Core.bookWait_frm (k : Core) (dflt n : Nat) : (k.bookWait dflt n).frm = k.frm := by unfold Core.bookWait; split <;> simp
@[simp] theorem Core.bookWait_lfsr (k : Core) (dflt n : Nat) : (k.bookWait dflt n).lfsr = k.lfsr := by unfold Core.bookWait; split <;> simp
@[simp] theorem Core.bookWait_instret (k : Core) (dflt n : Nat) : (k.bookWait dflt n).instret = k.instret := by unfold Core.bookWait; split <;> simp
@[simp] theorem Core.bookWait_step (k : Core) (dflt n : Nat) : (k.bookWait dflt n).step = k.step := by unfold Core.bookWait; split <;> simp
@[simp] theorem Core.bookWait_job (k : Core) (dflt n : Nat) : (k.bookWait dflt n).job = k.job := by unfold Core.bookWait; split <;> simp
@[simp] theorem Core.bookWait_jgen (k : Core) (dflt n : Nat) : (k.bookWait dflt n).jgen = k.jgen := by unfold Core.bookWait; split <;> simp
@[simp] theorem Core.bookWait_dyn (k : Core) (dflt n : Nat) : (k.bookWait dflt n).dyn = k.dyn := by unfold Core.bookWait; split <;> simp
@[simp] theorem Core.bookWait_image (k : Core) (dflt n : Nat) : (k.bookWait dflt n).image = k.image := by unfold Core.bookWait; split <;> simp
@[simp] theorem Core.bookWait_wait (k : Core) (dflt n : Nat) : (k.bookWait dflt n).wait = k.wait := by unfold Core.bookWait; split <;> simp
@[simp] theorem Core.bookWait_gReady (k : Core) (dflt n : Nat) : (k.bookWait dflt n).gReady = k.gReady := by unfold Core.bookWait; split <;> simp
@[simp] theorem Core.bookWait_dReady (k : Core) (dflt n : Nat) : (k.bookWait dflt n).dReady = k.dReady := by unfold Core.bookWait; split <;> simp
@[simp] theorem Core.bookWait_stores (k : Core) (dflt n : Nat) : (k.bookWait dflt n).stores = k.stores := by unfold Core.bookWait; split <;> simp
@[simp] theorem Core.bookWait_tmm (k : Core) (dflt n : Nat) : (k.bookWait dflt n).tmm = k.tmm := by unfold Core.bookWait; split <;> simp
@[simp] theorem Core.bookWait_mov (k : Core) (dflt n : Nat) : (k.bookWait dflt n).mov = k.mov := by unfold Core.bookWait; split <;> simp
@[simp] theorem Core.bookWait_tmmFree (k : Core) (dflt n : Nat) : (k.bookWait dflt n).tmmFree = k.tmmFree := by unfold Core.bookWait; split <;> simp
@[simp] theorem Core.bookWait_movFree (k : Core) (dflt n : Nat) : (k.bookWait dflt n).movFree = k.movFree := by unfold Core.bookWait; split <;> simp
@[simp] theorem Core.bookWait_lastUnit (k : Core) (dflt n : Nat) : (k.bookWait dflt n).lastUnit = k.lastUnit := by unfold Core.bookWait; split <;> simp
@[simp] theorem Core.bookWait_vop (k : Core) (dflt n : Nat) : (k.bookWait dflt n).vop = k.vop := by unfold Core.bookWait; split <;> simp
@[simp] theorem Core.bookWait_scat (k : Core) (dflt n : Nat) : (k.bookWait dflt n).scat = k.scat := by unfold Core.bookWait; split <;> simp
@[simp] theorem Core.bookWait_mem (k : Core) (dflt n : Nat) : (k.bookWait dflt n).mem = k.mem := by unfold Core.bookWait; split <;> simp
@[simp] theorem Core.bookWait_poison (k : Core) (dflt n : Nat) : (k.bookWait dflt n).poison = k.poison := by unfold Core.bookWait; split <;> simp
@[simp] theorem Core.bookWait_remote (k : Core) (dflt n : Nat) : (k.bookWait dflt n).remote = k.remote := by unfold Core.bookWait; split <;> simp
@[simp] theorem Core.bookWait_send (k : Core) (dflt n : Nat) : (k.bookWait dflt n).send = k.send := by unfold Core.bookWait; split <;> simp
@[simp] theorem Core.bookWait_storeRun (k : Core) (dflt n : Nat) : (k.bookWait dflt n).storeRun = k.storeRun := by unfold Core.bookWait; split <;> simp
@[simp] theorem Core.bookWait_inj (k : Core) (dflt n : Nat) : (k.bookWait dflt n).inj = k.inj := by unfold Core.bookWait; split <;> simp
@[simp] theorem Core.bookWait_errand (k : Core) (dflt n : Nat) : (k.bookWait dflt n).errand = k.errand := by unfold Core.bookWait; split <;> simp
@[simp] theorem Core.bookWait_groups (k : Core) (dflt n : Nat) : (k.bookWait dflt n).groups = k.groups := by unfold Core.bookWait; split <;> simp
@[simp] theorem Core.bookWait_ep (k : Core) (dflt n : Nat) : (k.bookWait dflt n).ep = k.ep := by unfold Core.bookWait; split <;> simp
@[simp] theorem Core.bookWait_tq (k : Core) (dflt n : Nat) : (k.bookWait dflt n).tq = k.tq := by unfold Core.bookWait; split <;> simp
@[simp] theorem Core.bookWait_win (k : Core) (dflt n : Nat) : (k.bookWait dflt n).win = k.win := by unfold Core.bookWait; split <;> simp
@[simp] theorem Core.bookWait_meFaulty (k : Core) (dflt n : Nat) : (k.bookWait dflt n).meFaulty = k.meFaulty := by unfold Core.bookWait; split <;> simp
@[simp] theorem Core.bookWait_recovery (k : Core) (dflt n : Nat) : (k.bookWait dflt n).recovery = k.recovery := by unfold Core.bookWait; split <;> simp
@[simp] theorem Core.bookWait_began (k : Core) (dflt n : Nat) : (k.bookWait dflt n).began = k.began := by unfold Core.bookWait; split <;> simp
@[simp] theorem Core.bookWait_ended (k : Core) (dflt n : Nat) : (k.bookWait dflt n).ended = k.ended := by unfold Core.bookWait; split <;> simp
@[simp] theorem Core.bookWait_stepIdle (k : Core) (dflt n : Nat) : (k.bookWait dflt n).stepIdle = k.stepIdle := by unfold Core.bookWait; split <;> simp

@[simp] theorem Core.unitWait_g (k : Core) (n : Nat) : (k.unitWait n).g = k.g := by simp [Core.unitWait]
@[simp] theorem Core.unitWait_d (k : Core) (n : Nat) : (k.unitWait n).d = k.d := by simp [Core.unitWait]
@[simp] theorem Core.unitWait_c (k : Core) (n : Nat) : (k.unitWait n).c = k.c := by simp [Core.unitWait]
@[simp] theorem Core.unitWait_cPoison (k : Core) (n : Nat) : (k.unitWait n).cPoison = k.cPoison := by simp [Core.unitWait]
@[simp] theorem Core.unitWait_cSrc (k : Core) (n : Nat) : (k.unitWait n).cSrc = k.cSrc := by simp [Core.unitWait]
@[simp] theorem Core.unitWait_pc (k : Core) (n : Nat) : (k.unitWait n).pc = k.pc := by simp [Core.unitWait]
@[simp] theorem Core.unitWait_run (k : Core) (n : Nat) : (k.unitWait n).run = k.run := by simp [Core.unitWait]
@[simp] theorem Core.unitWait_exit (k : Core) (n : Nat) : (k.unitWait n).exit = k.exit := by simp [Core.unitWait]
@[simp] theorem Core.unitWait_fault (k : Core) (n : Nat) : (k.unitWait n).fault = k.fault := by simp [Core.unitWait]
@[simp] theorem Core.unitWait_rank (k : Core) (n : Nat) : (k.unitWait n).rank = k.rank := by simp [Core.unitWait]
@[simp] theorem Core.unitWait_fflags (k : Core) (n : Nat) : (k.unitWait n).fflags = k.fflags := by simp [Core.unitWait]
@[simp] theorem Core.unitWait_frm (k : Core) (n : Nat) : (k.unitWait n).frm = k.frm := by simp [Core.unitWait]
@[simp] theorem Core.unitWait_lfsr (k : Core) (n : Nat) : (k.unitWait n).lfsr = k.lfsr := by simp [Core.unitWait]
@[simp] theorem Core.unitWait_instret (k : Core) (n : Nat) : (k.unitWait n).instret = k.instret := by simp [Core.unitWait]
@[simp] theorem Core.unitWait_step (k : Core) (n : Nat) : (k.unitWait n).step = k.step := by simp [Core.unitWait]
@[simp] theorem Core.unitWait_job (k : Core) (n : Nat) : (k.unitWait n).job = k.job := by simp [Core.unitWait]
@[simp] theorem Core.unitWait_jgen (k : Core) (n : Nat) : (k.unitWait n).jgen = k.jgen := by simp [Core.unitWait]
@[simp] theorem Core.unitWait_dyn (k : Core) (n : Nat) : (k.unitWait n).dyn = k.dyn := by simp [Core.unitWait]
@[simp] theorem Core.unitWait_image (k : Core) (n : Nat) : (k.unitWait n).image = k.image := by simp [Core.unitWait]
@[simp] theorem Core.unitWait_wait (k : Core) (n : Nat) : (k.unitWait n).wait = k.wait := by simp [Core.unitWait]
@[simp] theorem Core.unitWait_gReady (k : Core) (n : Nat) : (k.unitWait n).gReady = k.gReady := by simp [Core.unitWait]
@[simp] theorem Core.unitWait_dReady (k : Core) (n : Nat) : (k.unitWait n).dReady = k.dReady := by simp [Core.unitWait]
@[simp] theorem Core.unitWait_stores (k : Core) (n : Nat) : (k.unitWait n).stores = k.stores := by simp [Core.unitWait]
@[simp] theorem Core.unitWait_tmm (k : Core) (n : Nat) : (k.unitWait n).tmm = k.tmm := by simp [Core.unitWait]
@[simp] theorem Core.unitWait_mov (k : Core) (n : Nat) : (k.unitWait n).mov = k.mov := by simp [Core.unitWait]
@[simp] theorem Core.unitWait_tmmFree (k : Core) (n : Nat) : (k.unitWait n).tmmFree = k.tmmFree := by simp [Core.unitWait]
@[simp] theorem Core.unitWait_movFree (k : Core) (n : Nat) : (k.unitWait n).movFree = k.movFree := by simp [Core.unitWait]
@[simp] theorem Core.unitWait_lastUnit (k : Core) (n : Nat) : (k.unitWait n).lastUnit = k.lastUnit := by simp [Core.unitWait]
@[simp] theorem Core.unitWait_vop (k : Core) (n : Nat) : (k.unitWait n).vop = k.vop := by simp [Core.unitWait]
@[simp] theorem Core.unitWait_scat (k : Core) (n : Nat) : (k.unitWait n).scat = k.scat := by simp [Core.unitWait]
@[simp] theorem Core.unitWait_mem (k : Core) (n : Nat) : (k.unitWait n).mem = k.mem := by simp [Core.unitWait]
@[simp] theorem Core.unitWait_poison (k : Core) (n : Nat) : (k.unitWait n).poison = k.poison := by simp [Core.unitWait]
@[simp] theorem Core.unitWait_remote (k : Core) (n : Nat) : (k.unitWait n).remote = k.remote := by simp [Core.unitWait]
@[simp] theorem Core.unitWait_send (k : Core) (n : Nat) : (k.unitWait n).send = k.send := by simp [Core.unitWait]
@[simp] theorem Core.unitWait_storeRun (k : Core) (n : Nat) : (k.unitWait n).storeRun = k.storeRun := by simp [Core.unitWait]
@[simp] theorem Core.unitWait_inj (k : Core) (n : Nat) : (k.unitWait n).inj = k.inj := by simp [Core.unitWait]
@[simp] theorem Core.unitWait_errand (k : Core) (n : Nat) : (k.unitWait n).errand = k.errand := by simp [Core.unitWait]
@[simp] theorem Core.unitWait_groups (k : Core) (n : Nat) : (k.unitWait n).groups = k.groups := by simp [Core.unitWait]
@[simp] theorem Core.unitWait_ep (k : Core) (n : Nat) : (k.unitWait n).ep = k.ep := by simp [Core.unitWait]
@[simp] theorem Core.unitWait_tq (k : Core) (n : Nat) : (k.unitWait n).tq = k.tq := by simp [Core.unitWait]
@[simp] theorem Core.unitWait_win (k : Core) (n : Nat) : (k.unitWait n).win = k.win := by simp [Core.unitWait]
@[simp] theorem Core.unitWait_meFaulty (k : Core) (n : Nat) : (k.unitWait n).meFaulty = k.meFaulty := by simp [Core.unitWait]
@[simp] theorem Core.unitWait_recovery (k : Core) (n : Nat) : (k.unitWait n).recovery = k.recovery := by simp [Core.unitWait]
@[simp] theorem Core.unitWait_began (k : Core) (n : Nat) : (k.unitWait n).began = k.began := by simp [Core.unitWait]
@[simp] theorem Core.unitWait_ended (k : Core) (n : Nat) : (k.unitWait n).ended = k.ended := by simp [Core.unitWait]
@[simp] theorem Core.unitWait_stepIdle (k : Core) (n : Nat) : (k.unitWait n).stepIdle = k.stepIdle := by simp [Core.unitWait]

@[simp] theorem Core.counterWait_g (k : Core) (ctr n : Nat) : (k.counterWait ctr n).g = k.g := by unfold Core.counterWait; dsimp only; split <;> first | (split <;> simp) | simp
@[simp] theorem Core.counterWait_d (k : Core) (ctr n : Nat) : (k.counterWait ctr n).d = k.d := by unfold Core.counterWait; dsimp only; split <;> first | (split <;> simp) | simp
@[simp] theorem Core.counterWait_c (k : Core) (ctr n : Nat) : (k.counterWait ctr n).c = k.c := by unfold Core.counterWait; dsimp only; split <;> first | (split <;> simp) | simp
@[simp] theorem Core.counterWait_cPoison (k : Core) (ctr n : Nat) : (k.counterWait ctr n).cPoison = k.cPoison := by unfold Core.counterWait; dsimp only; split <;> first | (split <;> simp) | simp
@[simp] theorem Core.counterWait_cSrc (k : Core) (ctr n : Nat) : (k.counterWait ctr n).cSrc = k.cSrc := by unfold Core.counterWait; dsimp only; split <;> first | (split <;> simp) | simp
@[simp] theorem Core.counterWait_pc (k : Core) (ctr n : Nat) : (k.counterWait ctr n).pc = k.pc := by unfold Core.counterWait; dsimp only; split <;> first | (split <;> simp) | simp
@[simp] theorem Core.counterWait_run (k : Core) (ctr n : Nat) : (k.counterWait ctr n).run = k.run := by unfold Core.counterWait; dsimp only; split <;> first | (split <;> simp) | simp
@[simp] theorem Core.counterWait_exit (k : Core) (ctr n : Nat) : (k.counterWait ctr n).exit = k.exit := by unfold Core.counterWait; dsimp only; split <;> first | (split <;> simp) | simp
@[simp] theorem Core.counterWait_fault (k : Core) (ctr n : Nat) : (k.counterWait ctr n).fault = k.fault := by unfold Core.counterWait; dsimp only; split <;> first | (split <;> simp) | simp
@[simp] theorem Core.counterWait_rank (k : Core) (ctr n : Nat) : (k.counterWait ctr n).rank = k.rank := by unfold Core.counterWait; dsimp only; split <;> first | (split <;> simp) | simp
@[simp] theorem Core.counterWait_fflags (k : Core) (ctr n : Nat) : (k.counterWait ctr n).fflags = k.fflags := by unfold Core.counterWait; dsimp only; split <;> first | (split <;> simp) | simp
@[simp] theorem Core.counterWait_frm (k : Core) (ctr n : Nat) : (k.counterWait ctr n).frm = k.frm := by unfold Core.counterWait; dsimp only; split <;> first | (split <;> simp) | simp
@[simp] theorem Core.counterWait_lfsr (k : Core) (ctr n : Nat) : (k.counterWait ctr n).lfsr = k.lfsr := by unfold Core.counterWait; dsimp only; split <;> first | (split <;> simp) | simp
@[simp] theorem Core.counterWait_instret (k : Core) (ctr n : Nat) : (k.counterWait ctr n).instret = k.instret := by unfold Core.counterWait; dsimp only; split <;> first | (split <;> simp) | simp
@[simp] theorem Core.counterWait_step (k : Core) (ctr n : Nat) : (k.counterWait ctr n).step = k.step := by unfold Core.counterWait; dsimp only; split <;> first | (split <;> simp) | simp
@[simp] theorem Core.counterWait_job (k : Core) (ctr n : Nat) : (k.counterWait ctr n).job = k.job := by unfold Core.counterWait; dsimp only; split <;> first | (split <;> simp) | simp
@[simp] theorem Core.counterWait_jgen (k : Core) (ctr n : Nat) : (k.counterWait ctr n).jgen = k.jgen := by unfold Core.counterWait; dsimp only; split <;> first | (split <;> simp) | simp
@[simp] theorem Core.counterWait_dyn (k : Core) (ctr n : Nat) : (k.counterWait ctr n).dyn = k.dyn := by unfold Core.counterWait; dsimp only; split <;> first | (split <;> simp) | simp
@[simp] theorem Core.counterWait_image (k : Core) (ctr n : Nat) : (k.counterWait ctr n).image = k.image := by unfold Core.counterWait; dsimp only; split <;> first | (split <;> simp) | simp
@[simp] theorem Core.counterWait_wait (k : Core) (ctr n : Nat) : (k.counterWait ctr n).wait = k.wait := by unfold Core.counterWait; dsimp only; split <;> first | (split <;> simp) | simp
@[simp] theorem Core.counterWait_gReady (k : Core) (ctr n : Nat) : (k.counterWait ctr n).gReady = k.gReady := by unfold Core.counterWait; dsimp only; split <;> first | (split <;> simp) | simp
@[simp] theorem Core.counterWait_dReady (k : Core) (ctr n : Nat) : (k.counterWait ctr n).dReady = k.dReady := by unfold Core.counterWait; dsimp only; split <;> first | (split <;> simp) | simp
@[simp] theorem Core.counterWait_stores (k : Core) (ctr n : Nat) : (k.counterWait ctr n).stores = k.stores := by unfold Core.counterWait; dsimp only; split <;> first | (split <;> simp) | simp
@[simp] theorem Core.counterWait_tmm (k : Core) (ctr n : Nat) : (k.counterWait ctr n).tmm = k.tmm := by unfold Core.counterWait; dsimp only; split <;> first | (split <;> simp) | simp
@[simp] theorem Core.counterWait_mov (k : Core) (ctr n : Nat) : (k.counterWait ctr n).mov = k.mov := by unfold Core.counterWait; dsimp only; split <;> first | (split <;> simp) | simp
@[simp] theorem Core.counterWait_tmmFree (k : Core) (ctr n : Nat) : (k.counterWait ctr n).tmmFree = k.tmmFree := by unfold Core.counterWait; dsimp only; split <;> first | (split <;> simp) | simp
@[simp] theorem Core.counterWait_movFree (k : Core) (ctr n : Nat) : (k.counterWait ctr n).movFree = k.movFree := by unfold Core.counterWait; dsimp only; split <;> first | (split <;> simp) | simp
@[simp] theorem Core.counterWait_lastUnit (k : Core) (ctr n : Nat) : (k.counterWait ctr n).lastUnit = k.lastUnit := by unfold Core.counterWait; dsimp only; split <;> first | (split <;> simp) | simp
@[simp] theorem Core.counterWait_vop (k : Core) (ctr n : Nat) : (k.counterWait ctr n).vop = k.vop := by unfold Core.counterWait; dsimp only; split <;> first | (split <;> simp) | simp
@[simp] theorem Core.counterWait_scat (k : Core) (ctr n : Nat) : (k.counterWait ctr n).scat = k.scat := by unfold Core.counterWait; dsimp only; split <;> first | (split <;> simp) | simp
@[simp] theorem Core.counterWait_mem (k : Core) (ctr n : Nat) : (k.counterWait ctr n).mem = k.mem := by unfold Core.counterWait; dsimp only; split <;> first | (split <;> simp) | simp
@[simp] theorem Core.counterWait_poison (k : Core) (ctr n : Nat) : (k.counterWait ctr n).poison = k.poison := by unfold Core.counterWait; dsimp only; split <;> first | (split <;> simp) | simp
@[simp] theorem Core.counterWait_remote (k : Core) (ctr n : Nat) : (k.counterWait ctr n).remote = k.remote := by unfold Core.counterWait; dsimp only; split <;> first | (split <;> simp) | simp
@[simp] theorem Core.counterWait_send (k : Core) (ctr n : Nat) : (k.counterWait ctr n).send = k.send := by unfold Core.counterWait; dsimp only; split <;> first | (split <;> simp) | simp
@[simp] theorem Core.counterWait_storeRun (k : Core) (ctr n : Nat) : (k.counterWait ctr n).storeRun = k.storeRun := by unfold Core.counterWait; dsimp only; split <;> first | (split <;> simp) | simp
@[simp] theorem Core.counterWait_inj (k : Core) (ctr n : Nat) : (k.counterWait ctr n).inj = k.inj := by unfold Core.counterWait; dsimp only; split <;> first | (split <;> simp) | simp
@[simp] theorem Core.counterWait_errand (k : Core) (ctr n : Nat) : (k.counterWait ctr n).errand = k.errand := by unfold Core.counterWait; dsimp only; split <;> first | (split <;> simp) | simp
@[simp] theorem Core.counterWait_groups (k : Core) (ctr n : Nat) : (k.counterWait ctr n).groups = k.groups := by unfold Core.counterWait; dsimp only; split <;> first | (split <;> simp) | simp
@[simp] theorem Core.counterWait_ep (k : Core) (ctr n : Nat) : (k.counterWait ctr n).ep = k.ep := by unfold Core.counterWait; dsimp only; split <;> first | (split <;> simp) | simp
@[simp] theorem Core.counterWait_tq (k : Core) (ctr n : Nat) : (k.counterWait ctr n).tq = k.tq := by unfold Core.counterWait; dsimp only; split <;> first | (split <;> simp) | simp
@[simp] theorem Core.counterWait_win (k : Core) (ctr n : Nat) : (k.counterWait ctr n).win = k.win := by unfold Core.counterWait; dsimp only; split <;> first | (split <;> simp) | simp
@[simp] theorem Core.counterWait_meFaulty (k : Core) (ctr n : Nat) : (k.counterWait ctr n).meFaulty = k.meFaulty := by unfold Core.counterWait; dsimp only; split <;> first | (split <;> simp) | simp
@[simp] theorem Core.counterWait_recovery (k : Core) (ctr n : Nat) : (k.counterWait ctr n).recovery = k.recovery := by unfold Core.counterWait; dsimp only; split <;> first | (split <;> simp) | simp
@[simp] theorem Core.counterWait_began (k : Core) (ctr n : Nat) : (k.counterWait ctr n).began = k.began := by unfold Core.counterWait; dsimp only; split <;> first | (split <;> simp) | simp
@[simp] theorem Core.counterWait_ended (k : Core) (ctr n : Nat) : (k.counterWait ctr n).ended = k.ended := by unfold Core.counterWait; dsimp only; split <;> first | (split <;> simp) | simp
@[simp] theorem Core.counterWait_stepIdle (k : Core) (ctr n : Nat) : (k.counterWait ctr n).stepIdle = k.stepIdle := by unfold Core.counterWait; dsimp only; split <;> first | (split <;> simp) | simp

@[simp] theorem Core.interlock_g (k : Core) (gs ds : List Nat) : (k.interlock gs ds).g = k.g := Core.spendCompute_g ..
@[simp] theorem Core.interlock_d (k : Core) (gs ds : List Nat) : (k.interlock gs ds).d = k.d := Core.spendCompute_d ..
@[simp] theorem Core.interlock_c (k : Core) (gs ds : List Nat) : (k.interlock gs ds).c = k.c := Core.spendCompute_c ..
@[simp] theorem Core.interlock_cPoison (k : Core) (gs ds : List Nat) : (k.interlock gs ds).cPoison = k.cPoison := Core.spendCompute_cPoison ..
@[simp] theorem Core.interlock_cSrc (k : Core) (gs ds : List Nat) : (k.interlock gs ds).cSrc = k.cSrc := Core.spendCompute_cSrc ..
@[simp] theorem Core.interlock_pc (k : Core) (gs ds : List Nat) : (k.interlock gs ds).pc = k.pc := Core.spendCompute_pc ..
@[simp] theorem Core.interlock_run (k : Core) (gs ds : List Nat) : (k.interlock gs ds).run = k.run := Core.spendCompute_run ..
@[simp] theorem Core.interlock_exit (k : Core) (gs ds : List Nat) : (k.interlock gs ds).exit = k.exit := Core.spendCompute_exit ..
@[simp] theorem Core.interlock_fault (k : Core) (gs ds : List Nat) : (k.interlock gs ds).fault = k.fault := Core.spendCompute_fault ..
@[simp] theorem Core.interlock_rank (k : Core) (gs ds : List Nat) : (k.interlock gs ds).rank = k.rank := Core.spendCompute_rank ..
@[simp] theorem Core.interlock_fflags (k : Core) (gs ds : List Nat) : (k.interlock gs ds).fflags = k.fflags := Core.spendCompute_fflags ..
@[simp] theorem Core.interlock_frm (k : Core) (gs ds : List Nat) : (k.interlock gs ds).frm = k.frm := Core.spendCompute_frm ..
@[simp] theorem Core.interlock_lfsr (k : Core) (gs ds : List Nat) : (k.interlock gs ds).lfsr = k.lfsr := Core.spendCompute_lfsr ..
@[simp] theorem Core.interlock_instret (k : Core) (gs ds : List Nat) : (k.interlock gs ds).instret = k.instret := Core.spendCompute_instret ..
@[simp] theorem Core.interlock_step (k : Core) (gs ds : List Nat) : (k.interlock gs ds).step = k.step := Core.spendCompute_step ..
@[simp] theorem Core.interlock_job (k : Core) (gs ds : List Nat) : (k.interlock gs ds).job = k.job := Core.spendCompute_job ..
@[simp] theorem Core.interlock_jgen (k : Core) (gs ds : List Nat) : (k.interlock gs ds).jgen = k.jgen := Core.spendCompute_jgen ..
@[simp] theorem Core.interlock_dyn (k : Core) (gs ds : List Nat) : (k.interlock gs ds).dyn = k.dyn := Core.spendCompute_dyn ..
@[simp] theorem Core.interlock_image (k : Core) (gs ds : List Nat) : (k.interlock gs ds).image = k.image := Core.spendCompute_image ..
@[simp] theorem Core.interlock_wait (k : Core) (gs ds : List Nat) : (k.interlock gs ds).wait = k.wait := Core.spendCompute_wait ..
@[simp] theorem Core.interlock_gReady (k : Core) (gs ds : List Nat) : (k.interlock gs ds).gReady = k.gReady := Core.spendCompute_gReady ..
@[simp] theorem Core.interlock_dReady (k : Core) (gs ds : List Nat) : (k.interlock gs ds).dReady = k.dReady := Core.spendCompute_dReady ..
@[simp] theorem Core.interlock_stores (k : Core) (gs ds : List Nat) : (k.interlock gs ds).stores = k.stores := Core.spendCompute_stores ..
@[simp] theorem Core.interlock_tmm (k : Core) (gs ds : List Nat) : (k.interlock gs ds).tmm = k.tmm := Core.spendCompute_tmm ..
@[simp] theorem Core.interlock_mov (k : Core) (gs ds : List Nat) : (k.interlock gs ds).mov = k.mov := Core.spendCompute_mov ..
@[simp] theorem Core.interlock_tmmFree (k : Core) (gs ds : List Nat) : (k.interlock gs ds).tmmFree = k.tmmFree := Core.spendCompute_tmmFree ..
@[simp] theorem Core.interlock_movFree (k : Core) (gs ds : List Nat) : (k.interlock gs ds).movFree = k.movFree := Core.spendCompute_movFree ..
@[simp] theorem Core.interlock_lastUnit (k : Core) (gs ds : List Nat) : (k.interlock gs ds).lastUnit = k.lastUnit := Core.spendCompute_lastUnit ..
@[simp] theorem Core.interlock_vop (k : Core) (gs ds : List Nat) : (k.interlock gs ds).vop = k.vop := Core.spendCompute_vop ..
@[simp] theorem Core.interlock_scat (k : Core) (gs ds : List Nat) : (k.interlock gs ds).scat = k.scat := Core.spendCompute_scat ..
@[simp] theorem Core.interlock_mem (k : Core) (gs ds : List Nat) : (k.interlock gs ds).mem = k.mem := Core.spendCompute_mem ..
@[simp] theorem Core.interlock_poison (k : Core) (gs ds : List Nat) : (k.interlock gs ds).poison = k.poison := Core.spendCompute_poison ..
@[simp] theorem Core.interlock_remote (k : Core) (gs ds : List Nat) : (k.interlock gs ds).remote = k.remote := Core.spendCompute_remote ..
@[simp] theorem Core.interlock_send (k : Core) (gs ds : List Nat) : (k.interlock gs ds).send = k.send := Core.spendCompute_send ..
@[simp] theorem Core.interlock_storeRun (k : Core) (gs ds : List Nat) : (k.interlock gs ds).storeRun = k.storeRun := Core.spendCompute_storeRun ..
@[simp] theorem Core.interlock_inj (k : Core) (gs ds : List Nat) : (k.interlock gs ds).inj = k.inj := Core.spendCompute_inj ..
@[simp] theorem Core.interlock_errand (k : Core) (gs ds : List Nat) : (k.interlock gs ds).errand = k.errand := Core.spendCompute_errand ..
@[simp] theorem Core.interlock_groups (k : Core) (gs ds : List Nat) : (k.interlock gs ds).groups = k.groups := Core.spendCompute_groups ..
@[simp] theorem Core.interlock_ep (k : Core) (gs ds : List Nat) : (k.interlock gs ds).ep = k.ep := Core.spendCompute_ep ..
@[simp] theorem Core.interlock_tq (k : Core) (gs ds : List Nat) : (k.interlock gs ds).tq = k.tq := Core.spendCompute_tq ..
@[simp] theorem Core.interlock_win (k : Core) (gs ds : List Nat) : (k.interlock gs ds).win = k.win := Core.spendCompute_win ..
@[simp] theorem Core.interlock_meFaulty (k : Core) (gs ds : List Nat) : (k.interlock gs ds).meFaulty = k.meFaulty := Core.spendCompute_meFaulty ..
@[simp] theorem Core.interlock_recovery (k : Core) (gs ds : List Nat) : (k.interlock gs ds).recovery = k.recovery := Core.spendCompute_recovery ..
@[simp] theorem Core.interlock_began (k : Core) (gs ds : List Nat) : (k.interlock gs ds).began = k.began := Core.spendCompute_began ..
@[simp] theorem Core.interlock_ended (k : Core) (gs ds : List Nat) : (k.interlock gs ds).ended = k.ended := Core.spendCompute_ended ..
@[simp] theorem Core.interlock_stepIdle (k : Core) (gs ds : List Nat) : (k.interlock gs ds).stepIdle = k.stepIdle := Core.spendCompute_stepIdle ..

@[simp] theorem Core.settleWait_g (k : Core) (w : Nat) : (k.settleWait w).g = k.g := by unfold Core.settleWait; split <;> first | (split <;> simp) | rfl
@[simp] theorem Core.settleWait_d (k : Core) (w : Nat) : (k.settleWait w).d = k.d := by unfold Core.settleWait; split <;> first | (split <;> simp) | rfl
@[simp] theorem Core.settleWait_c (k : Core) (w : Nat) : (k.settleWait w).c = k.c := by unfold Core.settleWait; split <;> first | (split <;> simp) | rfl
@[simp] theorem Core.settleWait_cPoison (k : Core) (w : Nat) : (k.settleWait w).cPoison = k.cPoison := by unfold Core.settleWait; split <;> first | (split <;> simp) | rfl
@[simp] theorem Core.settleWait_cSrc (k : Core) (w : Nat) : (k.settleWait w).cSrc = k.cSrc := by unfold Core.settleWait; split <;> first | (split <;> simp) | rfl
@[simp] theorem Core.settleWait_pc (k : Core) (w : Nat) : (k.settleWait w).pc = k.pc := by unfold Core.settleWait; split <;> first | (split <;> simp) | rfl
@[simp] theorem Core.settleWait_run (k : Core) (w : Nat) : (k.settleWait w).run = k.run := by unfold Core.settleWait; split <;> first | (split <;> simp) | rfl
@[simp] theorem Core.settleWait_exit (k : Core) (w : Nat) : (k.settleWait w).exit = k.exit := by unfold Core.settleWait; split <;> first | (split <;> simp) | rfl
@[simp] theorem Core.settleWait_fault (k : Core) (w : Nat) : (k.settleWait w).fault = k.fault := by unfold Core.settleWait; split <;> first | (split <;> simp) | rfl
@[simp] theorem Core.settleWait_rank (k : Core) (w : Nat) : (k.settleWait w).rank = k.rank := by unfold Core.settleWait; split <;> first | (split <;> simp) | rfl
@[simp] theorem Core.settleWait_fflags (k : Core) (w : Nat) : (k.settleWait w).fflags = k.fflags := by unfold Core.settleWait; split <;> first | (split <;> simp) | rfl
@[simp] theorem Core.settleWait_frm (k : Core) (w : Nat) : (k.settleWait w).frm = k.frm := by unfold Core.settleWait; split <;> first | (split <;> simp) | rfl
@[simp] theorem Core.settleWait_lfsr (k : Core) (w : Nat) : (k.settleWait w).lfsr = k.lfsr := by unfold Core.settleWait; split <;> first | (split <;> simp) | rfl
@[simp] theorem Core.settleWait_instret (k : Core) (w : Nat) : (k.settleWait w).instret = k.instret := by unfold Core.settleWait; split <;> first | (split <;> simp) | rfl
@[simp] theorem Core.settleWait_step (k : Core) (w : Nat) : (k.settleWait w).step = k.step := by unfold Core.settleWait; split <;> first | (split <;> simp) | rfl
@[simp] theorem Core.settleWait_job (k : Core) (w : Nat) : (k.settleWait w).job = k.job := by unfold Core.settleWait; split <;> first | (split <;> simp) | rfl
@[simp] theorem Core.settleWait_jgen (k : Core) (w : Nat) : (k.settleWait w).jgen = k.jgen := by unfold Core.settleWait; split <;> first | (split <;> simp) | rfl
@[simp] theorem Core.settleWait_dyn (k : Core) (w : Nat) : (k.settleWait w).dyn = k.dyn := by unfold Core.settleWait; split <;> first | (split <;> simp) | rfl
@[simp] theorem Core.settleWait_image (k : Core) (w : Nat) : (k.settleWait w).image = k.image := by unfold Core.settleWait; split <;> first | (split <;> simp) | rfl
@[simp] theorem Core.settleWait_gReady (k : Core) (w : Nat) : (k.settleWait w).gReady = k.gReady := by unfold Core.settleWait; split <;> first | (split <;> simp) | rfl
@[simp] theorem Core.settleWait_dReady (k : Core) (w : Nat) : (k.settleWait w).dReady = k.dReady := by unfold Core.settleWait; split <;> first | (split <;> simp) | rfl
@[simp] theorem Core.settleWait_stores (k : Core) (w : Nat) : (k.settleWait w).stores = k.stores := by unfold Core.settleWait; split <;> first | (split <;> simp) | rfl
@[simp] theorem Core.settleWait_tmm (k : Core) (w : Nat) : (k.settleWait w).tmm = k.tmm := by unfold Core.settleWait; split <;> first | (split <;> simp) | rfl
@[simp] theorem Core.settleWait_mov (k : Core) (w : Nat) : (k.settleWait w).mov = k.mov := by unfold Core.settleWait; split <;> first | (split <;> simp) | rfl
@[simp] theorem Core.settleWait_tmmFree (k : Core) (w : Nat) : (k.settleWait w).tmmFree = k.tmmFree := by unfold Core.settleWait; split <;> first | (split <;> simp) | rfl
@[simp] theorem Core.settleWait_movFree (k : Core) (w : Nat) : (k.settleWait w).movFree = k.movFree := by unfold Core.settleWait; split <;> first | (split <;> simp) | rfl
@[simp] theorem Core.settleWait_lastUnit (k : Core) (w : Nat) : (k.settleWait w).lastUnit = k.lastUnit := by unfold Core.settleWait; split <;> first | (split <;> simp) | rfl
@[simp] theorem Core.settleWait_vop (k : Core) (w : Nat) : (k.settleWait w).vop = k.vop := by unfold Core.settleWait; split <;> first | (split <;> simp) | rfl
@[simp] theorem Core.settleWait_scat (k : Core) (w : Nat) : (k.settleWait w).scat = k.scat := by unfold Core.settleWait; split <;> first | (split <;> simp) | rfl
@[simp] theorem Core.settleWait_mem (k : Core) (w : Nat) : (k.settleWait w).mem = k.mem := by unfold Core.settleWait; split <;> first | (split <;> simp) | rfl
@[simp] theorem Core.settleWait_poison (k : Core) (w : Nat) : (k.settleWait w).poison = k.poison := by unfold Core.settleWait; split <;> first | (split <;> simp) | rfl
@[simp] theorem Core.settleWait_remote (k : Core) (w : Nat) : (k.settleWait w).remote = k.remote := by unfold Core.settleWait; split <;> first | (split <;> simp) | rfl
@[simp] theorem Core.settleWait_send (k : Core) (w : Nat) : (k.settleWait w).send = k.send := by unfold Core.settleWait; split <;> first | (split <;> simp) | rfl
@[simp] theorem Core.settleWait_storeRun (k : Core) (w : Nat) : (k.settleWait w).storeRun = k.storeRun := by unfold Core.settleWait; split <;> first | (split <;> simp) | rfl
@[simp] theorem Core.settleWait_inj (k : Core) (w : Nat) : (k.settleWait w).inj = k.inj := by unfold Core.settleWait; split <;> first | (split <;> simp) | rfl
@[simp] theorem Core.settleWait_errand (k : Core) (w : Nat) : (k.settleWait w).errand = k.errand := by unfold Core.settleWait; split <;> first | (split <;> simp) | rfl
@[simp] theorem Core.settleWait_groups (k : Core) (w : Nat) : (k.settleWait w).groups = k.groups := by unfold Core.settleWait; split <;> first | (split <;> simp) | rfl
@[simp] theorem Core.settleWait_ep (k : Core) (w : Nat) : (k.settleWait w).ep = k.ep := by unfold Core.settleWait; split <;> first | (split <;> simp) | rfl
@[simp] theorem Core.settleWait_tq (k : Core) (w : Nat) : (k.settleWait w).tq = k.tq := by unfold Core.settleWait; split <;> first | (split <;> simp) | rfl
@[simp] theorem Core.settleWait_win (k : Core) (w : Nat) : (k.settleWait w).win = k.win := by unfold Core.settleWait; split <;> first | (split <;> simp) | rfl
@[simp] theorem Core.settleWait_meFaulty (k : Core) (w : Nat) : (k.settleWait w).meFaulty = k.meFaulty := by unfold Core.settleWait; split <;> first | (split <;> simp) | rfl
@[simp] theorem Core.settleWait_recovery (k : Core) (w : Nat) : (k.settleWait w).recovery = k.recovery := by unfold Core.settleWait; split <;> first | (split <;> simp) | rfl
@[simp] theorem Core.settleWait_began (k : Core) (w : Nat) : (k.settleWait w).began = k.began := by unfold Core.settleWait; split <;> first | (split <;> simp) | rfl
@[simp] theorem Core.settleWait_ended (k : Core) (w : Nat) : (k.settleWait w).ended = k.ended := by unfold Core.settleWait; split <;> first | (split <;> simp) | rfl
@[simp] theorem Core.settleWait_stepIdle (k : Core) (w : Nat) : (k.settleWait w).stepIdle = k.stepIdle := by unfold Core.settleWait; split <;> first | (split <;> simp) | rfl

end Sys2Proof.Machine
end

