-- ==== Sys2Proof/Laws/State.lean ====
section
/-! SUPPORT. Each field of the device after each of the named updates that leave it alone. -/

namespace Sys2Proof.Machine

@[simp] theorem Dev.setReg_cores (d : Dev) (a v : Nat) : (d.setReg a v).cores = d.cores := by unfold Dev.setReg; split <;> rfl
@[simp] theorem Dev.setReg_fuse (d : Dev) (a v : Nat) : (d.setReg a v).fuse = d.fuse := by unfold Dev.setReg; split <;> rfl
@[simp] theorem Dev.setReg_ck (d : Dev) (a v : Nat) : (d.setReg a v).ck = d.ck := by unfold Dev.setReg; split <;> rfl
@[simp] theorem Dev.setReg_ms (d : Dev) (a v : Nat) : (d.setReg a v).ms = d.ms := by unfold Dev.setReg; split <;> rfl
@[simp] theorem Dev.setReg_freeCtr (d : Dev) (a v : Nat) : (d.setReg a v).freeCtr = d.freeCtr := by unfold Dev.setReg; split <;> rfl
@[simp] theorem Dev.setReg_out (d : Dev) (a v : Nat) : (d.setReg a v).out = d.out := by unfold Dev.setReg; split <;> rfl
@[simp] theorem Dev.setReg_flight (d : Dev) (a v : Nat) : (d.setReg a v).flight = d.flight := by unfold Dev.setReg; split <;> rfl
@[simp] theorem Dev.setReg_sched (d : Dev) (a v : Nat) : (d.setReg a v).sched = d.sched := by unfold Dev.setReg; split <;> rfl
@[simp] theorem Dev.setReg_schedFill (d : Dev) (a v : Nat) : (d.setReg a v).schedFill = d.schedFill := by unfold Dev.setReg; split <;> rfl
@[simp] theorem Dev.setReg_schedEmpty (d : Dev) (a v : Nat) : (d.setReg a v).schedEmpty = d.schedEmpty := by unfold Dev.setReg; split <;> rfl
@[simp] theorem Dev.setReg_links (d : Dev) (a v : Nat) : (d.setReg a v).links = d.links := by unfold Dev.setReg; split <;> rfl
@[simp] theorem Dev.setReg_delivered (d : Dev) (a v : Nat) : (d.setReg a v).delivered = d.delivered := by unfold Dev.setReg; split <;> rfl
@[simp] theorem Dev.setReg_turn (d : Dev) (a v : Nat) : (d.setReg a v).turn = d.turn := by unfold Dev.setReg; split <;> rfl
@[simp] theorem Dev.setReg_doneTurn (d : Dev) (a v : Nat) : (d.setReg a v).doneTurn = d.doneTurn := by unfold Dev.setReg; split <;> rfl
@[simp] theorem Dev.setReg_tasks (d : Dev) (a v : Nat) : (d.setReg a v).tasks = d.tasks := by unfold Dev.setReg; split <;> rfl
@[simp] theorem Dev.setReg_alert (d : Dev) (a v : Nat) : (d.setReg a v).alert = d.alert := by unfold Dev.setReg; split <;> rfl
@[simp] theorem Dev.setReg_ibiOn (d : Dev) (a v : Nat) : (d.setReg a v).ibiOn = d.ibiOn := by unfold Dev.setReg; split <;> rfl
@[simp] theorem Dev.setReg_arcades (d : Dev) (a v : Nat) : (d.setReg a v).arcades = d.arcades := by unfold Dev.setReg; split <;> rfl
@[simp] theorem Dev.setReg_devnum (d : Dev) (a v : Nat) : (d.setReg a v).devnum = d.devnum := by unfold Dev.setReg; split <;> rfl
@[simp] theorem Dev.setReg_counts (d : Dev) (a v : Nat) : (d.setReg a v).counts = d.counts := by unfold Dev.setReg; split <;> rfl
@[simp] theorem Dev.setReg_hbm (d : Dev) (a v : Nat) : (d.setReg a v).hbm = d.hbm := by unfold Dev.setReg; split <;> rfl
@[simp] theorem Dev.setReg_hbmPoison (d : Dev) (a v : Nat) : (d.setReg a v).hbmPoison = d.hbmPoison := by unfold Dev.setReg; split <;> rfl
@[simp] theorem Dev.setReg_pageReads (d : Dev) (a v : Nat) : (d.setReg a v).pageReads = d.pageReads := by unfold Dev.setReg; split <;> rfl
@[simp] theorem Dev.setReg_rowReads (d : Dev) (a v : Nat) : (d.setReg a v).rowReads = d.rowReads := by unfold Dev.setReg; split <;> rfl
@[simp] theorem Dev.setReg_badPages (d : Dev) (a v : Nat) : (d.setReg a v).badPages = d.badPages := by unfold Dev.setReg; split <;> rfl
@[simp] theorem Dev.setReg_badRows (d : Dev) (a v : Nat) : (d.setReg a v).badRows = d.badRows := by unfold Dev.setReg; split <;> rfl
@[simp] theorem Dev.setReg_coh (d : Dev) (a v : Nat) : (d.setReg a v).coh = d.coh := by unfold Dev.setReg; split <;> rfl
@[simp] theorem Dev.setReg_porters (d : Dev) (a v : Nat) : (d.setReg a v).porters = d.porters := by unfold Dev.setReg; split <;> rfl
@[simp] theorem Dev.setReg_lanePlan (d : Dev) (a v : Nat) : (d.setReg a v).lanePlan = d.lanePlan := by unfold Dev.setReg; split <;> rfl
@[simp] theorem Dev.setReg_fences (d : Dev) (a v : Nat) : (d.setReg a v).fences = d.fences := by unfold Dev.setReg; split <;> rfl
@[simp] theorem Dev.setReg_posts (d : Dev) (a v : Nat) : (d.setReg a v).posts = d.posts := by unfold Dev.setReg; split <;> rfl
@[simp] theorem Dev.setReg_routers (d : Dev) (a v : Nat) : (d.setReg a v).routers = d.routers := by unfold Dev.setReg; split <;> rfl
@[simp] theorem Dev.setReg_edgeRows (d : Dev) (a v : Nat) : (d.setReg a v).edgeRows = d.edgeRows := by unfold Dev.setReg; split <;> rfl
@[simp] theorem Dev.setReg_relays (d : Dev) (a v : Nat) : (d.setReg a v).relays = d.relays := by unfold Dev.setReg; split <;> rfl
@[simp] theorem Dev.setReg_ports (d : Dev) (a v : Nat) : (d.setReg a v).ports = d.ports := by unfold Dev.setReg; split <;> rfl
@[simp] theorem Dev.setReg_assaySteps (d : Dev) (a v : Nat) : (d.setReg a v).assaySteps = d.assaySteps := by unfold Dev.setReg; split <;> rfl
@[simp] theorem Dev.setReg_svc (d : Dev) (a v : Nat) : (d.setReg a v).svc = d.svc := by unfold Dev.setReg; split <;> rfl
@[simp] theorem Dev.setReg_mail (d : Dev) (a v : Nat) : (d.setReg a v).mail = d.mail := by unfold Dev.setReg; split <;> rfl
@[simp] theorem Dev.setReg_clerks (d : Dev) (a v : Nat) : (d.setReg a v).clerks = d.clerks := by unfold Dev.setReg; split <;> rfl
@[simp] theorem Dev.setReg_verdicts (d : Dev) (a v : Nat) : (d.setReg a v).verdicts = d.verdicts := by unfold Dev.setReg; split <;> rfl
@[simp] theorem Dev.setReg_clerkPrograms (d : Dev) (a v : Nat) : (d.setReg a v).clerkPrograms = d.clerkPrograms := by unfold Dev.setReg; split <;> rfl
@[simp] theorem Dev.setReg_slots (d : Dev) (a v : Nat) : (d.setReg a v).slots = d.slots := by unfold Dev.setReg; split <;> rfl
@[simp] theorem Dev.setReg_jobs (d : Dev) (a v : Nat) : (d.setReg a v).jobs = d.jobs := by unfold Dev.setReg; split <;> rfl
@[simp] theorem Dev.setReg_lastGen (d : Dev) (a v : Nat) : (d.setReg a v).lastGen = d.lastGen := by unfold Dev.setReg; split <;> rfl
@[simp] theorem Dev.setReg_quiet (d : Dev) (a v : Nat) : (d.setReg a v).quiet = d.quiet := by unfold Dev.setReg; split <;> rfl
@[simp] theorem Dev.setReg_cmds (d : Dev) (a v : Nat) : (d.setReg a v).cmds = d.cmds := by unfold Dev.setReg; split <;> rfl
@[simp] theorem Dev.setReg_fetched (d : Dev) (a v : Nat) : (d.setReg a v).fetched = d.fetched := by unfold Dev.setReg; split <;> rfl
@[simp] theorem Dev.setReg_waiters (d : Dev) (a v : Nat) : (d.setReg a v).waiters = d.waiters := by unfold Dev.setReg; split <;> rfl
@[simp] theorem Dev.setReg_gateJob (d : Dev) (a v : Nat) : (d.setReg a v).gateJob = d.gateJob := by unfold Dev.setReg; split <;> rfl
@[simp] theorem Dev.setReg_i3c (d : Dev) (a v : Nat) : (d.setReg a v).i3c = d.i3c := by unfold Dev.setReg; split <;> rfl
@[simp] theorem Dev.setReg_msixMask (d : Dev) (a v : Nat) : (d.setReg a v).msixMask = d.msixMask := by unfold Dev.setReg; split <;> rfl
@[simp] theorem Dev.setReg_msixPba (d : Dev) (a v : Nat) : (d.setReg a v).msixPba = d.msixPba := by unfold Dev.setReg; split <;> rfl
@[simp] theorem Dev.setReg_roster (d : Dev) (a v : Nat) : (d.setReg a v).roster = d.roster := by unfold Dev.setReg; split <;> rfl
@[simp] theorem Dev.setReg_lateNow (d : Dev) (a v : Nat) : (d.setReg a v).lateNow = d.lateNow := by unfold Dev.setReg; split <;> rfl
@[simp] theorem Dev.setReg_lateRun (d : Dev) (a v : Nat) : (d.setReg a v).lateRun = d.lateRun := by unfold Dev.setReg; split <;> rfl
@[simp] theorem Dev.setReg_receipts (d : Dev) (a v : Nat) : (d.setReg a v).receipts = d.receipts := by unfold Dev.setReg; split <;> rfl
@[simp] theorem Dev.setReg_firmware (d : Dev) (a v : Nat) : (d.setReg a v).firmware = d.firmware := by unfold Dev.setReg; split <;> rfl
@[simp] theorem Dev.setReg_lastServed (d : Dev) (a v : Nat) : (d.setReg a v).lastServed = d.lastServed := by unfold Dev.setReg; split <;> rfl
@[simp] theorem Dev.setReg_reserved (d : Dev) (a v : Nat) : (d.setReg a v).reserved = d.reserved := by unfold Dev.setReg; split <;> rfl
@[simp] theorem Dev.setReg_flash (d : Dev) (a v : Nat) : (d.setReg a v).flash = d.flash := by unfold Dev.setReg; split <;> rfl
@[simp] theorem Dev.setReg_challenge (d : Dev) (a v : Nat) : (d.setReg a v).challenge = d.challenge := by unfold Dev.setReg; split <;> rfl
@[simp] theorem Dev.setReg_overlay (d : Dev) (a v : Nat) : (d.setReg a v).overlay = d.overlay := by unfold Dev.setReg; split <;> rfl
@[simp] theorem Dev.setReg_stage (d : Dev) (a v : Nat) : (d.setReg a v).stage = d.stage := by unfold Dev.setReg; split <;> rfl
@[simp] theorem Dev.setReg_moves (d : Dev) (a v : Nat) : (d.setReg a v).moves = d.moves := by unfold Dev.setReg; split <;> rfl
@[simp] theorem Dev.setReg_capLimit (d : Dev) (a v : Nat) : (d.setReg a v).capLimit = d.capLimit := by unfold Dev.setReg; split <;> rfl
@[simp] theorem Dev.setReg_thermLimit (d : Dev) (a v : Nat) : (d.setReg a v).thermLimit = d.thermLimit := by unfold Dev.setReg; split <;> rfl
@[simp] theorem Dev.setReg_calm (d : Dev) (a v : Nat) : (d.setReg a v).calm = d.calm := by unfold Dev.setReg; split <;> rfl
@[simp] theorem Dev.setReg_snapshot (d : Dev) (a v : Nat) : (d.setReg a v).snapshot = d.snapshot := by unfold Dev.setReg; split <;> rfl
@[simp] theorem Dev.setReg_faultLog (d : Dev) (a v : Nat) : (d.setReg a v).faultLog = d.faultLog := by unfold Dev.setReg; split <;> rfl
@[simp] theorem Dev.setReg_trip (d : Dev) (a v : Nat) : (d.setReg a v).trip = d.trip := by unfold Dev.setReg; split <;> rfl
@[simp] theorem Dev.setReg_inReset (d : Dev) (a v : Nat) : (d.setReg a v).inReset = d.inReset := by unfold Dev.setReg; split <;> rfl
@[simp] theorem Dev.setReg_remaps (d : Dev) (a v : Nat) : (d.setReg a v).remaps = d.remaps := by unfold Dev.setReg; split <;> rfl
@[simp] theorem Dev.setReg_jtag (d : Dev) (a v : Nat) : (d.setReg a v).jtag = d.jtag := by unfold Dev.setReg; split <;> rfl
@[simp] theorem Dev.setReg_pcie (d : Dev) (a v : Nat) : (d.setReg a v).pcie = d.pcie := by unfold Dev.setReg; split <;> rfl
@[simp] theorem Dev.setReg_paused (d : Dev) (a v : Nat) : (d.setReg a v).paused = d.paused := by unfold Dev.setReg; split <;> rfl
@[simp] theorem Dev.setReg_sel (d : Dev) (a v : Nat) : (d.setReg a v).sel = d.sel := by unfold Dev.setReg; split <;> rfl
@[simp] theorem Dev.setReg_bootStep (d : Dev) (a v : Nat) : (d.setReg a v).bootStep = d.bootStep := by unfold Dev.setReg; split <;> rfl
@[simp] theorem Dev.setReg_naenoRuns (d : Dev) (a v : Nat) : (d.setReg a v).naenoRuns = d.naenoRuns := by unfold Dev.setReg; split <;> rfl
@[simp] theorem Dev.setReg_windowed (d : Dev) (a v : Nat) : (d.setReg a v).windowed = d.windowed := by unfold Dev.setReg; split <;> rfl

@[simp] theorem Dev.put_cores (d : Dev) (f : Fld) (v : Nat) : (d.put f v).cores = d.cores := Dev.setReg_cores ..
@[simp] theorem Dev.put_fuse (d : Dev) (f : Fld) (v : Nat) : (d.put f v).fuse = d.fuse := Dev.setReg_fuse ..
@[simp] theorem Dev.put_ck (d : Dev) (f : Fld) (v : Nat) : (d.put f v).ck = d.ck := Dev.setReg_ck ..
@[simp] theorem Dev.put_ms (d : Dev) (f : Fld) (v : Nat) : (d.put f v).ms = d.ms := Dev.setReg_ms ..
@[simp] theorem Dev.put_freeCtr (d : Dev) (f : Fld) (v : Nat) : (d.put f v).freeCtr = d.freeCtr := Dev.setReg_freeCtr ..
@[simp] theorem Dev.put_out (d : Dev) (f : Fld) (v : Nat) : (d.put f v).out = d.out := Dev.setReg_out ..
@[simp] theorem Dev.put_flight (d : Dev) (f : Fld) (v : Nat) : (d.put f v).flight = d.flight := Dev.setReg_flight ..
@[simp] theorem Dev.put_sched (d : Dev) (f : Fld) (v : Nat) : (d.put f v).sched = d.sched := Dev.setReg_sched ..
@[simp] theorem Dev.put_schedFill (d : Dev) (f : Fld) (v : Nat) : (d.put f v).schedFill = d.schedFill := Dev.setReg_schedFill ..
@[simp] theorem Dev.put_schedEmpty (d : Dev) (f : Fld) (v : Nat) : (d.put f v).schedEmpty = d.schedEmpty := Dev.setReg_schedEmpty ..
@[simp] theorem Dev.put_links (d : Dev) (f : Fld) (v : Nat) : (d.put f v).links = d.links := Dev.setReg_links ..
@[simp] theorem Dev.put_delivered (d : Dev) (f : Fld) (v : Nat) : (d.put f v).delivered = d.delivered := Dev.setReg_delivered ..
@[simp] theorem Dev.put_turn (d : Dev) (f : Fld) (v : Nat) : (d.put f v).turn = d.turn := Dev.setReg_turn ..
@[simp] theorem Dev.put_doneTurn (d : Dev) (f : Fld) (v : Nat) : (d.put f v).doneTurn = d.doneTurn := Dev.setReg_doneTurn ..
@[simp] theorem Dev.put_tasks (d : Dev) (f : Fld) (v : Nat) : (d.put f v).tasks = d.tasks := Dev.setReg_tasks ..
@[simp] theorem Dev.put_alert (d : Dev) (f : Fld) (v : Nat) : (d.put f v).alert = d.alert := Dev.setReg_alert ..
@[simp] theorem Dev.put_ibiOn (d : Dev) (f : Fld) (v : Nat) : (d.put f v).ibiOn = d.ibiOn := Dev.setReg_ibiOn ..
@[simp] theorem Dev.put_arcades (d : Dev) (f : Fld) (v : Nat) : (d.put f v).arcades = d.arcades := Dev.setReg_arcades ..
@[simp] theorem Dev.put_devnum (d : Dev) (f : Fld) (v : Nat) : (d.put f v).devnum = d.devnum := Dev.setReg_devnum ..
@[simp] theorem Dev.put_counts (d : Dev) (f : Fld) (v : Nat) : (d.put f v).counts = d.counts := Dev.setReg_counts ..
@[simp] theorem Dev.put_hbm (d : Dev) (f : Fld) (v : Nat) : (d.put f v).hbm = d.hbm := Dev.setReg_hbm ..
@[simp] theorem Dev.put_hbmPoison (d : Dev) (f : Fld) (v : Nat) : (d.put f v).hbmPoison = d.hbmPoison := Dev.setReg_hbmPoison ..
@[simp] theorem Dev.put_pageReads (d : Dev) (f : Fld) (v : Nat) : (d.put f v).pageReads = d.pageReads := Dev.setReg_pageReads ..
@[simp] theorem Dev.put_rowReads (d : Dev) (f : Fld) (v : Nat) : (d.put f v).rowReads = d.rowReads := Dev.setReg_rowReads ..
@[simp] theorem Dev.put_badPages (d : Dev) (f : Fld) (v : Nat) : (d.put f v).badPages = d.badPages := Dev.setReg_badPages ..
@[simp] theorem Dev.put_badRows (d : Dev) (f : Fld) (v : Nat) : (d.put f v).badRows = d.badRows := Dev.setReg_badRows ..
@[simp] theorem Dev.put_coh (d : Dev) (f : Fld) (v : Nat) : (d.put f v).coh = d.coh := Dev.setReg_coh ..
@[simp] theorem Dev.put_porters (d : Dev) (f : Fld) (v : Nat) : (d.put f v).porters = d.porters := Dev.setReg_porters ..
@[simp] theorem Dev.put_lanePlan (d : Dev) (f : Fld) (v : Nat) : (d.put f v).lanePlan = d.lanePlan := Dev.setReg_lanePlan ..
@[simp] theorem Dev.put_fences (d : Dev) (f : Fld) (v : Nat) : (d.put f v).fences = d.fences := Dev.setReg_fences ..
@[simp] theorem Dev.put_posts (d : Dev) (f : Fld) (v : Nat) : (d.put f v).posts = d.posts := Dev.setReg_posts ..
@[simp] theorem Dev.put_routers (d : Dev) (f : Fld) (v : Nat) : (d.put f v).routers = d.routers := Dev.setReg_routers ..
@[simp] theorem Dev.put_edgeRows (d : Dev) (f : Fld) (v : Nat) : (d.put f v).edgeRows = d.edgeRows := Dev.setReg_edgeRows ..
@[simp] theorem Dev.put_relays (d : Dev) (f : Fld) (v : Nat) : (d.put f v).relays = d.relays := Dev.setReg_relays ..
@[simp] theorem Dev.put_ports (d : Dev) (f : Fld) (v : Nat) : (d.put f v).ports = d.ports := Dev.setReg_ports ..
@[simp] theorem Dev.put_assaySteps (d : Dev) (f : Fld) (v : Nat) : (d.put f v).assaySteps = d.assaySteps := Dev.setReg_assaySteps ..
@[simp] theorem Dev.put_svc (d : Dev) (f : Fld) (v : Nat) : (d.put f v).svc = d.svc := Dev.setReg_svc ..
@[simp] theorem Dev.put_mail (d : Dev) (f : Fld) (v : Nat) : (d.put f v).mail = d.mail := Dev.setReg_mail ..
@[simp] theorem Dev.put_clerks (d : Dev) (f : Fld) (v : Nat) : (d.put f v).clerks = d.clerks := Dev.setReg_clerks ..
@[simp] theorem Dev.put_verdicts (d : Dev) (f : Fld) (v : Nat) : (d.put f v).verdicts = d.verdicts := Dev.setReg_verdicts ..
@[simp] theorem Dev.put_clerkPrograms (d : Dev) (f : Fld) (v : Nat) : (d.put f v).clerkPrograms = d.clerkPrograms := Dev.setReg_clerkPrograms ..
@[simp] theorem Dev.put_slots (d : Dev) (f : Fld) (v : Nat) : (d.put f v).slots = d.slots := Dev.setReg_slots ..
@[simp] theorem Dev.put_jobs (d : Dev) (f : Fld) (v : Nat) : (d.put f v).jobs = d.jobs := Dev.setReg_jobs ..
@[simp] theorem Dev.put_lastGen (d : Dev) (f : Fld) (v : Nat) : (d.put f v).lastGen = d.lastGen := Dev.setReg_lastGen ..
@[simp] theorem Dev.put_quiet (d : Dev) (f : Fld) (v : Nat) : (d.put f v).quiet = d.quiet := Dev.setReg_quiet ..
@[simp] theorem Dev.put_cmds (d : Dev) (f : Fld) (v : Nat) : (d.put f v).cmds = d.cmds := Dev.setReg_cmds ..
@[simp] theorem Dev.put_fetched (d : Dev) (f : Fld) (v : Nat) : (d.put f v).fetched = d.fetched := Dev.setReg_fetched ..
@[simp] theorem Dev.put_waiters (d : Dev) (f : Fld) (v : Nat) : (d.put f v).waiters = d.waiters := Dev.setReg_waiters ..
@[simp] theorem Dev.put_gateJob (d : Dev) (f : Fld) (v : Nat) : (d.put f v).gateJob = d.gateJob := Dev.setReg_gateJob ..
@[simp] theorem Dev.put_i3c (d : Dev) (f : Fld) (v : Nat) : (d.put f v).i3c = d.i3c := Dev.setReg_i3c ..
@[simp] theorem Dev.put_msixMask (d : Dev) (f : Fld) (v : Nat) : (d.put f v).msixMask = d.msixMask := Dev.setReg_msixMask ..
@[simp] theorem Dev.put_msixPba (d : Dev) (f : Fld) (v : Nat) : (d.put f v).msixPba = d.msixPba := Dev.setReg_msixPba ..
@[simp] theorem Dev.put_roster (d : Dev) (f : Fld) (v : Nat) : (d.put f v).roster = d.roster := Dev.setReg_roster ..
@[simp] theorem Dev.put_lateNow (d : Dev) (f : Fld) (v : Nat) : (d.put f v).lateNow = d.lateNow := Dev.setReg_lateNow ..
@[simp] theorem Dev.put_lateRun (d : Dev) (f : Fld) (v : Nat) : (d.put f v).lateRun = d.lateRun := Dev.setReg_lateRun ..
@[simp] theorem Dev.put_receipts (d : Dev) (f : Fld) (v : Nat) : (d.put f v).receipts = d.receipts := Dev.setReg_receipts ..
@[simp] theorem Dev.put_firmware (d : Dev) (f : Fld) (v : Nat) : (d.put f v).firmware = d.firmware := Dev.setReg_firmware ..
@[simp] theorem Dev.put_lastServed (d : Dev) (f : Fld) (v : Nat) : (d.put f v).lastServed = d.lastServed := Dev.setReg_lastServed ..
@[simp] theorem Dev.put_reserved (d : Dev) (f : Fld) (v : Nat) : (d.put f v).reserved = d.reserved := Dev.setReg_reserved ..
@[simp] theorem Dev.put_flash (d : Dev) (f : Fld) (v : Nat) : (d.put f v).flash = d.flash := Dev.setReg_flash ..
@[simp] theorem Dev.put_challenge (d : Dev) (f : Fld) (v : Nat) : (d.put f v).challenge = d.challenge := Dev.setReg_challenge ..
@[simp] theorem Dev.put_overlay (d : Dev) (f : Fld) (v : Nat) : (d.put f v).overlay = d.overlay := Dev.setReg_overlay ..
@[simp] theorem Dev.put_stage (d : Dev) (f : Fld) (v : Nat) : (d.put f v).stage = d.stage := Dev.setReg_stage ..
@[simp] theorem Dev.put_moves (d : Dev) (f : Fld) (v : Nat) : (d.put f v).moves = d.moves := Dev.setReg_moves ..
@[simp] theorem Dev.put_capLimit (d : Dev) (f : Fld) (v : Nat) : (d.put f v).capLimit = d.capLimit := Dev.setReg_capLimit ..
@[simp] theorem Dev.put_thermLimit (d : Dev) (f : Fld) (v : Nat) : (d.put f v).thermLimit = d.thermLimit := Dev.setReg_thermLimit ..
@[simp] theorem Dev.put_calm (d : Dev) (f : Fld) (v : Nat) : (d.put f v).calm = d.calm := Dev.setReg_calm ..
@[simp] theorem Dev.put_snapshot (d : Dev) (f : Fld) (v : Nat) : (d.put f v).snapshot = d.snapshot := Dev.setReg_snapshot ..
@[simp] theorem Dev.put_faultLog (d : Dev) (f : Fld) (v : Nat) : (d.put f v).faultLog = d.faultLog := Dev.setReg_faultLog ..
@[simp] theorem Dev.put_trip (d : Dev) (f : Fld) (v : Nat) : (d.put f v).trip = d.trip := Dev.setReg_trip ..
@[simp] theorem Dev.put_inReset (d : Dev) (f : Fld) (v : Nat) : (d.put f v).inReset = d.inReset := Dev.setReg_inReset ..
@[simp] theorem Dev.put_remaps (d : Dev) (f : Fld) (v : Nat) : (d.put f v).remaps = d.remaps := Dev.setReg_remaps ..
@[simp] theorem Dev.put_jtag (d : Dev) (f : Fld) (v : Nat) : (d.put f v).jtag = d.jtag := Dev.setReg_jtag ..
@[simp] theorem Dev.put_pcie (d : Dev) (f : Fld) (v : Nat) : (d.put f v).pcie = d.pcie := Dev.setReg_pcie ..
@[simp] theorem Dev.put_paused (d : Dev) (f : Fld) (v : Nat) : (d.put f v).paused = d.paused := Dev.setReg_paused ..
@[simp] theorem Dev.put_sel (d : Dev) (f : Fld) (v : Nat) : (d.put f v).sel = d.sel := Dev.setReg_sel ..
@[simp] theorem Dev.put_bootStep (d : Dev) (f : Fld) (v : Nat) : (d.put f v).bootStep = d.bootStep := Dev.setReg_bootStep ..
@[simp] theorem Dev.put_naenoRuns (d : Dev) (f : Fld) (v : Nat) : (d.put f v).naenoRuns = d.naenoRuns := Dev.setReg_naenoRuns ..
@[simp] theorem Dev.put_windowed (d : Dev) (f : Fld) (v : Nat) : (d.put f v).windowed = d.windowed := Dev.setReg_windowed ..

@[simp] theorem Dev.bump_cores (d : Dev) (f : Fld) (n : Nat) : (d.bump f n).cores = d.cores := Dev.setReg_cores ..
@[simp] theorem Dev.bump_fuse (d : Dev) (f : Fld) (n : Nat) : (d.bump f n).fuse = d.fuse := Dev.setReg_fuse ..
@[simp] theorem Dev.bump_ck (d : Dev) (f : Fld) (n : Nat) : (d.bump f n).ck = d.ck := Dev.setReg_ck ..
@[simp] theorem Dev.bump_ms (d : Dev) (f : Fld) (n : Nat) : (d.bump f n).ms = d.ms := Dev.setReg_ms ..
@[simp] theorem Dev.bump_freeCtr (d : Dev) (f : Fld) (n : Nat) : (d.bump f n).freeCtr = d.freeCtr := Dev.setReg_freeCtr ..
@[simp] theorem Dev.bump_out (d : Dev) (f : Fld) (n : Nat) : (d.bump f n).out = d.out := Dev.setReg_out ..
@[simp] theorem Dev.bump_flight (d : Dev) (f : Fld) (n : Nat) : (d.bump f n).flight = d.flight := Dev.setReg_flight ..
@[simp] theorem Dev.bump_sched (d : Dev) (f : Fld) (n : Nat) : (d.bump f n).sched = d.sched := Dev.setReg_sched ..
@[simp] theorem Dev.bump_schedFill (d : Dev) (f : Fld) (n : Nat) : (d.bump f n).schedFill = d.schedFill := Dev.setReg_schedFill ..
@[simp] theorem Dev.bump_schedEmpty (d : Dev) (f : Fld) (n : Nat) : (d.bump f n).schedEmpty = d.schedEmpty := Dev.setReg_schedEmpty ..
@[simp] theorem Dev.bump_links (d : Dev) (f : Fld) (n : Nat) : (d.bump f n).links = d.links := Dev.setReg_links ..
@[simp] theorem Dev.bump_delivered (d : Dev) (f : Fld) (n : Nat) : (d.bump f n).delivered = d.delivered := Dev.setReg_delivered ..
@[simp] theorem Dev.bump_turn (d : Dev) (f : Fld) (n : Nat) : (d.bump f n).turn = d.turn := Dev.setReg_turn ..
@[simp] theorem Dev.bump_doneTurn (d : Dev) (f : Fld) (n : Nat) : (d.bump f n).doneTurn = d.doneTurn := Dev.setReg_doneTurn ..
@[simp] theorem Dev.bump_tasks (d : Dev) (f : Fld) (n : Nat) : (d.bump f n).tasks = d.tasks := Dev.setReg_tasks ..
@[simp] theorem Dev.bump_alert (d : Dev) (f : Fld) (n : Nat) : (d.bump f n).alert = d.alert := Dev.setReg_alert ..
@[simp] theorem Dev.bump_ibiOn (d : Dev) (f : Fld) (n : Nat) : (d.bump f n).ibiOn = d.ibiOn := Dev.setReg_ibiOn ..
@[simp] theorem Dev.bump_arcades (d : Dev) (f : Fld) (n : Nat) : (d.bump f n).arcades = d.arcades := Dev.setReg_arcades ..
@[simp] theorem Dev.bump_devnum (d : Dev) (f : Fld) (n : Nat) : (d.bump f n).devnum = d.devnum := Dev.setReg_devnum ..
@[simp] theorem Dev.bump_counts (d : Dev) (f : Fld) (n : Nat) : (d.bump f n).counts = d.counts := Dev.setReg_counts ..
@[simp] theorem Dev.bump_hbm (d : Dev) (f : Fld) (n : Nat) : (d.bump f n).hbm = d.hbm := Dev.setReg_hbm ..
@[simp] theorem Dev.bump_hbmPoison (d : Dev) (f : Fld) (n : Nat) : (d.bump f n).hbmPoison = d.hbmPoison := Dev.setReg_hbmPoison ..
@[simp] theorem Dev.bump_pageReads (d : Dev) (f : Fld) (n : Nat) : (d.bump f n).pageReads = d.pageReads := Dev.setReg_pageReads ..
@[simp] theorem Dev.bump_rowReads (d : Dev) (f : Fld) (n : Nat) : (d.bump f n).rowReads = d.rowReads := Dev.setReg_rowReads ..
@[simp] theorem Dev.bump_badPages (d : Dev) (f : Fld) (n : Nat) : (d.bump f n).badPages = d.badPages := Dev.setReg_badPages ..
@[simp] theorem Dev.bump_badRows (d : Dev) (f : Fld) (n : Nat) : (d.bump f n).badRows = d.badRows := Dev.setReg_badRows ..
@[simp] theorem Dev.bump_coh (d : Dev) (f : Fld) (n : Nat) : (d.bump f n).coh = d.coh := Dev.setReg_coh ..
@[simp] theorem Dev.bump_porters (d : Dev) (f : Fld) (n : Nat) : (d.bump f n).porters = d.porters := Dev.setReg_porters ..
@[simp] theorem Dev.bump_lanePlan (d : Dev) (f : Fld) (n : Nat) : (d.bump f n).lanePlan = d.lanePlan := Dev.setReg_lanePlan ..
@[simp] theorem Dev.bump_fences (d : Dev) (f : Fld) (n : Nat) : (d.bump f n).fences = d.fences := Dev.setReg_fences ..
@[simp] theorem Dev.bump_posts (d : Dev) (f : Fld) (n : Nat) : (d.bump f n).posts = d.posts := Dev.setReg_posts ..
@[simp] theorem Dev.bump_routers (d : Dev) (f : Fld) (n : Nat) : (d.bump f n).routers = d.routers := Dev.setReg_routers ..
@[simp] theorem Dev.bump_edgeRows (d : Dev) (f : Fld) (n : Nat) : (d.bump f n).edgeRows = d.edgeRows := Dev.setReg_edgeRows ..
@[simp] theorem Dev.bump_relays (d : Dev) (f : Fld) (n : Nat) : (d.bump f n).relays = d.relays := Dev.setReg_relays ..
@[simp] theorem Dev.bump_ports (d : Dev) (f : Fld) (n : Nat) : (d.bump f n).ports = d.ports := Dev.setReg_ports ..
@[simp] theorem Dev.bump_assaySteps (d : Dev) (f : Fld) (n : Nat) : (d.bump f n).assaySteps = d.assaySteps := Dev.setReg_assaySteps ..
@[simp] theorem Dev.bump_svc (d : Dev) (f : Fld) (n : Nat) : (d.bump f n).svc = d.svc := Dev.setReg_svc ..
@[simp] theorem Dev.bump_mail (d : Dev) (f : Fld) (n : Nat) : (d.bump f n).mail = d.mail := Dev.setReg_mail ..
@[simp] theorem Dev.bump_clerks (d : Dev) (f : Fld) (n : Nat) : (d.bump f n).clerks = d.clerks := Dev.setReg_clerks ..
@[simp] theorem Dev.bump_verdicts (d : Dev) (f : Fld) (n : Nat) : (d.bump f n).verdicts = d.verdicts := Dev.setReg_verdicts ..
@[simp] theorem Dev.bump_clerkPrograms (d : Dev) (f : Fld) (n : Nat) : (d.bump f n).clerkPrograms = d.clerkPrograms := Dev.setReg_clerkPrograms ..
@[simp] theorem Dev.bump_slots (d : Dev) (f : Fld) (n : Nat) : (d.bump f n).slots = d.slots := Dev.setReg_slots ..
@[simp] theorem Dev.bump_jobs (d : Dev) (f : Fld) (n : Nat) : (d.bump f n).jobs = d.jobs := Dev.setReg_jobs ..
@[simp] theorem Dev.bump_lastGen (d : Dev) (f : Fld) (n : Nat) : (d.bump f n).lastGen = d.lastGen := Dev.setReg_lastGen ..
@[simp] theorem Dev.bump_quiet (d : Dev) (f : Fld) (n : Nat) : (d.bump f n).quiet = d.quiet := Dev.setReg_quiet ..
@[simp] theorem Dev.bump_cmds (d : Dev) (f : Fld) (n : Nat) : (d.bump f n).cmds = d.cmds := Dev.setReg_cmds ..
@[simp] theorem Dev.bump_fetched (d : Dev) (f : Fld) (n : Nat) : (d.bump f n).fetched = d.fetched := Dev.setReg_fetched ..
@[simp] theorem Dev.bump_waiters (d : Dev) (f : Fld) (n : Nat) : (d.bump f n).waiters = d.waiters := Dev.setReg_waiters ..
@[simp] theorem Dev.bump_gateJob (d : Dev) (f : Fld) (n : Nat) : (d.bump f n).gateJob = d.gateJob := Dev.setReg_gateJob ..
@[simp] theorem Dev.bump_i3c (d : Dev) (f : Fld) (n : Nat) : (d.bump f n).i3c = d.i3c := Dev.setReg_i3c ..
@[simp] theorem Dev.bump_msixMask (d : Dev) (f : Fld) (n : Nat) : (d.bump f n).msixMask = d.msixMask := Dev.setReg_msixMask ..
@[simp] theorem Dev.bump_msixPba (d : Dev) (f : Fld) (n : Nat) : (d.bump f n).msixPba = d.msixPba := Dev.setReg_msixPba ..
@[simp] theorem Dev.bump_roster (d : Dev) (f : Fld) (n : Nat) : (d.bump f n).roster = d.roster := Dev.setReg_roster ..
@[simp] theorem Dev.bump_lateNow (d : Dev) (f : Fld) (n : Nat) : (d.bump f n).lateNow = d.lateNow := Dev.setReg_lateNow ..
@[simp] theorem Dev.bump_lateRun (d : Dev) (f : Fld) (n : Nat) : (d.bump f n).lateRun = d.lateRun := Dev.setReg_lateRun ..
@[simp] theorem Dev.bump_receipts (d : Dev) (f : Fld) (n : Nat) : (d.bump f n).receipts = d.receipts := Dev.setReg_receipts ..
@[simp] theorem Dev.bump_firmware (d : Dev) (f : Fld) (n : Nat) : (d.bump f n).firmware = d.firmware := Dev.setReg_firmware ..
@[simp] theorem Dev.bump_lastServed (d : Dev) (f : Fld) (n : Nat) : (d.bump f n).lastServed = d.lastServed := Dev.setReg_lastServed ..
@[simp] theorem Dev.bump_reserved (d : Dev) (f : Fld) (n : Nat) : (d.bump f n).reserved = d.reserved := Dev.setReg_reserved ..
@[simp] theorem Dev.bump_flash (d : Dev) (f : Fld) (n : Nat) : (d.bump f n).flash = d.flash := Dev.setReg_flash ..
@[simp] theorem Dev.bump_challenge (d : Dev) (f : Fld) (n : Nat) : (d.bump f n).challenge = d.challenge := Dev.setReg_challenge ..
@[simp] theorem Dev.bump_overlay (d : Dev) (f : Fld) (n : Nat) : (d.bump f n).overlay = d.overlay := Dev.setReg_overlay ..
@[simp] theorem Dev.bump_stage (d : Dev) (f : Fld) (n : Nat) : (d.bump f n).stage = d.stage := Dev.setReg_stage ..
@[simp] theorem Dev.bump_moves (d : Dev) (f : Fld) (n : Nat) : (d.bump f n).moves = d.moves := Dev.setReg_moves ..
@[simp] theorem Dev.bump_capLimit (d : Dev) (f : Fld) (n : Nat) : (d.bump f n).capLimit = d.capLimit := Dev.setReg_capLimit ..
@[simp] theorem Dev.bump_thermLimit (d : Dev) (f : Fld) (n : Nat) : (d.bump f n).thermLimit = d.thermLimit := Dev.setReg_thermLimit ..
@[simp] theorem Dev.bump_calm (d : Dev) (f : Fld) (n : Nat) : (d.bump f n).calm = d.calm := Dev.setReg_calm ..
@[simp] theorem Dev.bump_snapshot (d : Dev) (f : Fld) (n : Nat) : (d.bump f n).snapshot = d.snapshot := Dev.setReg_snapshot ..
@[simp] theorem Dev.bump_faultLog (d : Dev) (f : Fld) (n : Nat) : (d.bump f n).faultLog = d.faultLog := Dev.setReg_faultLog ..
@[simp] theorem Dev.bump_trip (d : Dev) (f : Fld) (n : Nat) : (d.bump f n).trip = d.trip := Dev.setReg_trip ..
@[simp] theorem Dev.bump_inReset (d : Dev) (f : Fld) (n : Nat) : (d.bump f n).inReset = d.inReset := Dev.setReg_inReset ..
@[simp] theorem Dev.bump_remaps (d : Dev) (f : Fld) (n : Nat) : (d.bump f n).remaps = d.remaps := Dev.setReg_remaps ..
@[simp] theorem Dev.bump_jtag (d : Dev) (f : Fld) (n : Nat) : (d.bump f n).jtag = d.jtag := Dev.setReg_jtag ..
@[simp] theorem Dev.bump_pcie (d : Dev) (f : Fld) (n : Nat) : (d.bump f n).pcie = d.pcie := Dev.setReg_pcie ..
@[simp] theorem Dev.bump_paused (d : Dev) (f : Fld) (n : Nat) : (d.bump f n).paused = d.paused := Dev.setReg_paused ..
@[simp] theorem Dev.bump_sel (d : Dev) (f : Fld) (n : Nat) : (d.bump f n).sel = d.sel := Dev.setReg_sel ..
@[simp] theorem Dev.bump_bootStep (d : Dev) (f : Fld) (n : Nat) : (d.bump f n).bootStep = d.bootStep := Dev.setReg_bootStep ..
@[simp] theorem Dev.bump_naenoRuns (d : Dev) (f : Fld) (n : Nat) : (d.bump f n).naenoRuns = d.naenoRuns := Dev.setReg_naenoRuns ..
@[simp] theorem Dev.bump_windowed (d : Dev) (f : Fld) (n : Nat) : (d.bump f n).windowed = d.windowed := Dev.setReg_windowed ..

@[simp] theorem Dev.setCore_regs (d : Dev) (c : CoreId) (k : Core) : (d.setCore c k).regs = d.regs := rfl
@[simp] theorem Dev.setCore_fuse (d : Dev) (c : CoreId) (k : Core) : (d.setCore c k).fuse = d.fuse := rfl
@[simp] theorem Dev.setCore_ck (d : Dev) (c : CoreId) (k : Core) : (d.setCore c k).ck = d.ck := rfl
@[simp] theorem Dev.setCore_ms (d : Dev) (c : CoreId) (k : Core) : (d.setCore c k).ms = d.ms := rfl
@[simp] theorem Dev.setCore_freeCtr (d : Dev) (c : CoreId) (k : Core) : (d.setCore c k).freeCtr = d.freeCtr := rfl
@[simp] theorem Dev.setCore_out (d : Dev) (c : CoreId) (k : Core) : (d.setCore c k).out = d.out := rfl
@[simp] theorem Dev.setCore_flight (d : Dev) (c : CoreId) (k : Core) : (d.setCore c k).flight = d.flight := rfl
@[simp] theorem Dev.setCore_sched (d : Dev) (c : CoreId) (k : Core) : (d.setCore c k).sched = d.sched := rfl
@[simp] theorem Dev.setCore_schedFill (d : Dev) (c : CoreId) (k : Core) : (d.setCore c k).schedFill = d.schedFill := rfl
@[simp] theorem Dev.setCore_schedEmpty (d : Dev) (c : CoreId) (k : Core) : (d.setCore c k).schedEmpty = d.schedEmpty := rfl
@[simp] theorem Dev.setCore_links (d : Dev) (c : CoreId) (k : Core) : (d.setCore c k).links = d.links := rfl
@[simp] theorem Dev.setCore_delivered (d : Dev) (c : CoreId) (k : Core) : (d.setCore c k).delivered = d.delivered := rfl
@[simp] theorem Dev.setCore_turn (d : Dev) (c : CoreId) (k : Core) : (d.setCore c k).turn = d.turn := rfl
@[simp] theorem Dev.setCore_doneTurn (d : Dev) (c : CoreId) (k : Core) : (d.setCore c k).doneTurn = d.doneTurn := rfl
@[simp] theorem Dev.setCore_tasks (d : Dev) (c : CoreId) (k : Core) : (d.setCore c k).tasks = d.tasks := rfl
@[simp] theorem Dev.setCore_alert (d : Dev) (c : CoreId) (k : Core) : (d.setCore c k).alert = d.alert := rfl
@[simp] theorem Dev.setCore_ibiOn (d : Dev) (c : CoreId) (k : Core) : (d.setCore c k).ibiOn = d.ibiOn := rfl
@[simp] theorem Dev.setCore_arcades (d : Dev) (c : CoreId) (k : Core) : (d.setCore c k).arcades = d.arcades := rfl
@[simp] theorem Dev.setCore_devnum (d : Dev) (c : CoreId) (k : Core) : (d.setCore c k).devnum = d.devnum := rfl
@[simp] theorem Dev.setCore_counts (d : Dev) (c : CoreId) (k : Core) : (d.setCore c k).counts = d.counts := rfl
@[simp] theorem Dev.setCore_hbm (d : Dev) (c : CoreId) (k : Core) : (d.setCore c k).hbm = d.hbm := rfl
@[simp] theorem Dev.setCore_hbmPoison (d : Dev) (c : CoreId) (k : Core) : (d.setCore c k).hbmPoison = d.hbmPoison := rfl
@[simp] theorem Dev.setCore_pageReads (d : Dev) (c : CoreId) (k : Core) : (d.setCore c k).pageReads = d.pageReads := rfl
@[simp] theorem Dev.setCore_rowReads (d : Dev) (c : CoreId) (k : Core) : (d.setCore c k).rowReads = d.rowReads := rfl
@[simp] theorem Dev.setCore_badPages (d : Dev) (c : CoreId) (k : Core) : (d.setCore c k).badPages = d.badPages := rfl
@[simp] theorem Dev.setCore_badRows (d : Dev) (c : CoreId) (k : Core) : (d.setCore c k).badRows = d.badRows := rfl
@[simp] theorem Dev.setCore_coh (d : Dev) (c : CoreId) (k : Core) : (d.setCore c k).coh = d.coh := rfl
@[simp] theorem Dev.setCore_porters (d : Dev) (c : CoreId) (k : Core) : (d.setCore c k).porters = d.porters := rfl
@[simp] theorem Dev.setCore_lanePlan (d : Dev) (c : CoreId) (k : Core) : (d.setCore c k).lanePlan = d.lanePlan := rfl
@[simp] theorem Dev.setCore_fences (d : Dev) (c : CoreId) (k : Core) : (d.setCore c k).fences = d.fences := rfl
@[simp] theorem Dev.setCore_posts (d : Dev) (c : CoreId) (k : Core) : (d.setCore c k).posts = d.posts := rfl
@[simp] theorem Dev.setCore_routers (d : Dev) (c : CoreId) (k : Core) : (d.setCore c k).routers = d.routers := rfl
@[simp] theorem Dev.setCore_edgeRows (d : Dev) (c : CoreId) (k : Core) : (d.setCore c k).edgeRows = d.edgeRows := rfl
@[simp] theorem Dev.setCore_relays (d : Dev) (c : CoreId) (k : Core) : (d.setCore c k).relays = d.relays := rfl
@[simp] theorem Dev.setCore_ports (d : Dev) (c : CoreId) (k : Core) : (d.setCore c k).ports = d.ports := rfl
@[simp] theorem Dev.setCore_assaySteps (d : Dev) (c : CoreId) (k : Core) : (d.setCore c k).assaySteps = d.assaySteps := rfl
@[simp] theorem Dev.setCore_svc (d : Dev) (c : CoreId) (k : Core) : (d.setCore c k).svc = d.svc := rfl
@[simp] theorem Dev.setCore_mail (d : Dev) (c : CoreId) (k : Core) : (d.setCore c k).mail = d.mail := rfl
@[simp] theorem Dev.setCore_clerks (d : Dev) (c : CoreId) (k : Core) : (d.setCore c k).clerks = d.clerks := rfl
@[simp] theorem Dev.setCore_verdicts (d : Dev) (c : CoreId) (k : Core) : (d.setCore c k).verdicts = d.verdicts := rfl
@[simp] theorem Dev.setCore_clerkPrograms (d : Dev) (c : CoreId) (k : Core) : (d.setCore c k).clerkPrograms = d.clerkPrograms := rfl
@[simp] theorem Dev.setCore_slots (d : Dev) (c : CoreId) (k : Core) : (d.setCore c k).slots = d.slots := rfl
@[simp] theorem Dev.setCore_jobs (d : Dev) (c : CoreId) (k : Core) : (d.setCore c k).jobs = d.jobs := rfl
@[simp] theorem Dev.setCore_lastGen (d : Dev) (c : CoreId) (k : Core) : (d.setCore c k).lastGen = d.lastGen := rfl
@[simp] theorem Dev.setCore_quiet (d : Dev) (c : CoreId) (k : Core) : (d.setCore c k).quiet = d.quiet := rfl
@[simp] theorem Dev.setCore_cmds (d : Dev) (c : CoreId) (k : Core) : (d.setCore c k).cmds = d.cmds := rfl
@[simp] theorem Dev.setCore_fetched (d : Dev) (c : CoreId) (k : Core) : (d.setCore c k).fetched = d.fetched := rfl
@[simp] theorem Dev.setCore_waiters (d : Dev) (c : CoreId) (k : Core) : (d.setCore c k).waiters = d.waiters := rfl
@[simp] theorem Dev.setCore_gateJob (d : Dev) (c : CoreId) (k : Core) : (d.setCore c k).gateJob = d.gateJob := rfl
@[simp] theorem Dev.setCore_i3c (d : Dev) (c : CoreId) (k : Core) : (d.setCore c k).i3c = d.i3c := rfl
@[simp] theorem Dev.setCore_msixMask (d : Dev) (c : CoreId) (k : Core) : (d.setCore c k).msixMask = d.msixMask := rfl
@[simp] theorem Dev.setCore_msixPba (d : Dev) (c : CoreId) (k : Core) : (d.setCore c k).msixPba = d.msixPba := rfl
@[simp] theorem Dev.setCore_roster (d : Dev) (c : CoreId) (k : Core) : (d.setCore c k).roster = d.roster := rfl
@[simp] theorem Dev.setCore_lateNow (d : Dev) (c : CoreId) (k : Core) : (d.setCore c k).lateNow = d.lateNow := rfl
@[simp] theorem Dev.setCore_lateRun (d : Dev) (c : CoreId) (k : Core) : (d.setCore c k).lateRun = d.lateRun := rfl
@[simp] theorem Dev.setCore_receipts (d : Dev) (c : CoreId) (k : Core) : (d.setCore c k).receipts = d.receipts := rfl
@[simp] theorem Dev.setCore_firmware (d : Dev) (c : CoreId) (k : Core) : (d.setCore c k).firmware = d.firmware := rfl
@[simp] theorem Dev.setCore_lastServed (d : Dev) (c : CoreId) (k : Core) : (d.setCore c k).lastServed = d.lastServed := rfl
@[simp] theorem Dev.setCore_reserved (d : Dev) (c : CoreId) (k : Core) : (d.setCore c k).reserved = d.reserved := rfl
@[simp] theorem Dev.setCore_flash (d : Dev) (c : CoreId) (k : Core) : (d.setCore c k).flash = d.flash := rfl
@[simp] theorem Dev.setCore_challenge (d : Dev) (c : CoreId) (k : Core) : (d.setCore c k).challenge = d.challenge := rfl
@[simp] theorem Dev.setCore_overlay (d : Dev) (c : CoreId) (k : Core) : (d.setCore c k).overlay = d.overlay := rfl
@[simp] theorem Dev.setCore_stage (d : Dev) (c : CoreId) (k : Core) : (d.setCore c k).stage = d.stage := rfl
@[simp] theorem Dev.setCore_moves (d : Dev) (c : CoreId) (k : Core) : (d.setCore c k).moves = d.moves := rfl
@[simp] theorem Dev.setCore_capLimit (d : Dev) (c : CoreId) (k : Core) : (d.setCore c k).capLimit = d.capLimit := rfl
@[simp] theorem Dev.setCore_thermLimit (d : Dev) (c : CoreId) (k : Core) : (d.setCore c k).thermLimit = d.thermLimit := rfl
@[simp] theorem Dev.setCore_calm (d : Dev) (c : CoreId) (k : Core) : (d.setCore c k).calm = d.calm := rfl
@[simp] theorem Dev.setCore_snapshot (d : Dev) (c : CoreId) (k : Core) : (d.setCore c k).snapshot = d.snapshot := rfl
@[simp] theorem Dev.setCore_faultLog (d : Dev) (c : CoreId) (k : Core) : (d.setCore c k).faultLog = d.faultLog := rfl
@[simp] theorem Dev.setCore_trip (d : Dev) (c : CoreId) (k : Core) : (d.setCore c k).trip = d.trip := rfl
@[simp] theorem Dev.setCore_inReset (d : Dev) (c : CoreId) (k : Core) : (d.setCore c k).inReset = d.inReset := rfl
@[simp] theorem Dev.setCore_remaps (d : Dev) (c : CoreId) (k : Core) : (d.setCore c k).remaps = d.remaps := rfl
@[simp] theorem Dev.setCore_jtag (d : Dev) (c : CoreId) (k : Core) : (d.setCore c k).jtag = d.jtag := rfl
@[simp] theorem Dev.setCore_pcie (d : Dev) (c : CoreId) (k : Core) : (d.setCore c k).pcie = d.pcie := rfl
@[simp] theorem Dev.setCore_paused (d : Dev) (c : CoreId) (k : Core) : (d.setCore c k).paused = d.paused := rfl
@[simp] theorem Dev.setCore_sel (d : Dev) (c : CoreId) (k : Core) : (d.setCore c k).sel = d.sel := rfl
@[simp] theorem Dev.setCore_bootStep (d : Dev) (c : CoreId) (k : Core) : (d.setCore c k).bootStep = d.bootStep := rfl
@[simp] theorem Dev.setCore_naenoRuns (d : Dev) (c : CoreId) (k : Core) : (d.setCore c k).naenoRuns = d.naenoRuns := rfl
@[simp] theorem Dev.setCore_windowed (d : Dev) (c : CoreId) (k : Core) : (d.setCore c k).windowed = d.windowed := rfl

@[simp] theorem Dev.upd_regs (d : Dev) (c : CoreId) (f : Core → Core) : (d.upd c f).regs = d.regs := rfl
@[simp] theorem Dev.upd_fuse (d : Dev) (c : CoreId) (f : Core → Core) : (d.upd c f).fuse = d.fuse := rfl
@[simp] theorem Dev.upd_ck (d : Dev) (c : CoreId) (f : Core → Core) : (d.upd c f).ck = d.ck := rfl
@[simp] theorem Dev.upd_ms (d : Dev) (c : CoreId) (f : Core → Core) : (d.upd c f).ms = d.ms := rfl
@[simp] theorem Dev.upd_freeCtr (d : Dev) (c : CoreId) (f : Core → Core) : (d.upd c f).freeCtr = d.freeCtr := rfl
@[simp] theorem Dev.upd_out (d : Dev) (c : CoreId) (f : Core → Core) : (d.upd c f).out = d.out := rfl
@[simp] theorem Dev.upd_flight (d : Dev) (c : CoreId) (f : Core → Core) : (d.upd c f).flight = d.flight := rfl
@[simp] theorem Dev.upd_sched (d : Dev) (c : CoreId) (f : Core → Core) : (d.upd c f).sched = d.sched := rfl
@[simp] theorem Dev.upd_schedFill (d : Dev) (c : CoreId) (f : Core → Core) : (d.upd c f).schedFill = d.schedFill := rfl
@[simp] theorem Dev.upd_schedEmpty (d : Dev) (c : CoreId) (f : Core → Core) : (d.upd c f).schedEmpty = d.schedEmpty := rfl
@[simp] theorem Dev.upd_links (d : Dev) (c : CoreId) (f : Core → Core) : (d.upd c f).links = d.links := rfl
@[simp] theorem Dev.upd_delivered (d : Dev) (c : CoreId) (f : Core → Core) : (d.upd c f).delivered = d.delivered := rfl
@[simp] theorem Dev.upd_turn (d : Dev) (c : CoreId) (f : Core → Core) : (d.upd c f).turn = d.turn := rfl
@[simp] theorem Dev.upd_doneTurn (d : Dev) (c : CoreId) (f : Core → Core) : (d.upd c f).doneTurn = d.doneTurn := rfl
@[simp] theorem Dev.upd_tasks (d : Dev) (c : CoreId) (f : Core → Core) : (d.upd c f).tasks = d.tasks := rfl
@[simp] theorem Dev.upd_alert (d : Dev) (c : CoreId) (f : Core → Core) : (d.upd c f).alert = d.alert := rfl
@[simp] theorem Dev.upd_ibiOn (d : Dev) (c : CoreId) (f : Core → Core) : (d.upd c f).ibiOn = d.ibiOn := rfl
@[simp] theorem Dev.upd_arcades (d : Dev) (c : CoreId) (f : Core → Core) : (d.upd c f).arcades = d.arcades := rfl
@[simp] theorem Dev.upd_devnum (d : Dev) (c : CoreId) (f : Core → Core) : (d.upd c f).devnum = d.devnum := rfl
@[simp] theorem Dev.upd_counts (d : Dev) (c : CoreId) (f : Core → Core) : (d.upd c f).counts = d.counts := rfl
@[simp] theorem Dev.upd_hbm (d : Dev) (c : CoreId) (f : Core → Core) : (d.upd c f).hbm = d.hbm := rfl
@[simp] theorem Dev.upd_hbmPoison (d : Dev) (c : CoreId) (f : Core → Core) : (d.upd c f).hbmPoison = d.hbmPoison := rfl
@[simp] theorem Dev.upd_pageReads (d : Dev) (c : CoreId) (f : Core → Core) : (d.upd c f).pageReads = d.pageReads := rfl
@[simp] theorem Dev.upd_rowReads (d : Dev) (c : CoreId) (f : Core → Core) : (d.upd c f).rowReads = d.rowReads := rfl
@[simp] theorem Dev.upd_badPages (d : Dev) (c : CoreId) (f : Core → Core) : (d.upd c f).badPages = d.badPages := rfl
@[simp] theorem Dev.upd_badRows (d : Dev) (c : CoreId) (f : Core → Core) : (d.upd c f).badRows = d.badRows := rfl
@[simp] theorem Dev.upd_coh (d : Dev) (c : CoreId) (f : Core → Core) : (d.upd c f).coh = d.coh := rfl
@[simp] theorem Dev.upd_porters (d : Dev) (c : CoreId) (f : Core → Core) : (d.upd c f).porters = d.porters := rfl
@[simp] theorem Dev.upd_lanePlan (d : Dev) (c : CoreId) (f : Core → Core) : (d.upd c f).lanePlan = d.lanePlan := rfl
@[simp] theorem Dev.upd_fences (d : Dev) (c : CoreId) (f : Core → Core) : (d.upd c f).fences = d.fences := rfl
@[simp] theorem Dev.upd_posts (d : Dev) (c : CoreId) (f : Core → Core) : (d.upd c f).posts = d.posts := rfl
@[simp] theorem Dev.upd_routers (d : Dev) (c : CoreId) (f : Core → Core) : (d.upd c f).routers = d.routers := rfl
@[simp] theorem Dev.upd_edgeRows (d : Dev) (c : CoreId) (f : Core → Core) : (d.upd c f).edgeRows = d.edgeRows := rfl
@[simp] theorem Dev.upd_relays (d : Dev) (c : CoreId) (f : Core → Core) : (d.upd c f).relays = d.relays := rfl
@[simp] theorem Dev.upd_ports (d : Dev) (c : CoreId) (f : Core → Core) : (d.upd c f).ports = d.ports := rfl
@[simp] theorem Dev.upd_assaySteps (d : Dev) (c : CoreId) (f : Core → Core) : (d.upd c f).assaySteps = d.assaySteps := rfl
@[simp] theorem Dev.upd_svc (d : Dev) (c : CoreId) (f : Core → Core) : (d.upd c f).svc = d.svc := rfl
@[simp] theorem Dev.upd_mail (d : Dev) (c : CoreId) (f : Core → Core) : (d.upd c f).mail = d.mail := rfl
@[simp] theorem Dev.upd_clerks (d : Dev) (c : CoreId) (f : Core → Core) : (d.upd c f).clerks = d.clerks := rfl
@[simp] theorem Dev.upd_verdicts (d : Dev) (c : CoreId) (f : Core → Core) : (d.upd c f).verdicts = d.verdicts := rfl
@[simp] theorem Dev.upd_clerkPrograms (d : Dev) (c : CoreId) (f : Core → Core) : (d.upd c f).clerkPrograms = d.clerkPrograms := rfl
@[simp] theorem Dev.upd_slots (d : Dev) (c : CoreId) (f : Core → Core) : (d.upd c f).slots = d.slots := rfl
@[simp] theorem Dev.upd_jobs (d : Dev) (c : CoreId) (f : Core → Core) : (d.upd c f).jobs = d.jobs := rfl
@[simp] theorem Dev.upd_lastGen (d : Dev) (c : CoreId) (f : Core → Core) : (d.upd c f).lastGen = d.lastGen := rfl
@[simp] theorem Dev.upd_quiet (d : Dev) (c : CoreId) (f : Core → Core) : (d.upd c f).quiet = d.quiet := rfl
@[simp] theorem Dev.upd_cmds (d : Dev) (c : CoreId) (f : Core → Core) : (d.upd c f).cmds = d.cmds := rfl
@[simp] theorem Dev.upd_fetched (d : Dev) (c : CoreId) (f : Core → Core) : (d.upd c f).fetched = d.fetched := rfl
@[simp] theorem Dev.upd_waiters (d : Dev) (c : CoreId) (f : Core → Core) : (d.upd c f).waiters = d.waiters := rfl
@[simp] theorem Dev.upd_gateJob (d : Dev) (c : CoreId) (f : Core → Core) : (d.upd c f).gateJob = d.gateJob := rfl
@[simp] theorem Dev.upd_i3c (d : Dev) (c : CoreId) (f : Core → Core) : (d.upd c f).i3c = d.i3c := rfl
@[simp] theorem Dev.upd_msixMask (d : Dev) (c : CoreId) (f : Core → Core) : (d.upd c f).msixMask = d.msixMask := rfl
@[simp] theorem Dev.upd_msixPba (d : Dev) (c : CoreId) (f : Core → Core) : (d.upd c f).msixPba = d.msixPba := rfl
@[simp] theorem Dev.upd_roster (d : Dev) (c : CoreId) (f : Core → Core) : (d.upd c f).roster = d.roster := rfl
@[simp] theorem Dev.upd_lateNow (d : Dev) (c : CoreId) (f : Core → Core) : (d.upd c f).lateNow = d.lateNow := rfl
@[simp] theorem Dev.upd_lateRun (d : Dev) (c : CoreId) (f : Core → Core) : (d.upd c f).lateRun = d.lateRun := rfl
@[simp] theorem Dev.upd_receipts (d : Dev) (c : CoreId) (f : Core → Core) : (d.upd c f).receipts = d.receipts := rfl
@[simp] theorem Dev.upd_firmware (d : Dev) (c : CoreId) (f : Core → Core) : (d.upd c f).firmware = d.firmware := rfl
@[simp] theorem Dev.upd_lastServed (d : Dev) (c : CoreId) (f : Core → Core) : (d.upd c f).lastServed = d.lastServed := rfl
@[simp] theorem Dev.upd_reserved (d : Dev) (c : CoreId) (f : Core → Core) : (d.upd c f).reserved = d.reserved := rfl
@[simp] theorem Dev.upd_flash (d : Dev) (c : CoreId) (f : Core → Core) : (d.upd c f).flash = d.flash := rfl
@[simp] theorem Dev.upd_challenge (d : Dev) (c : CoreId) (f : Core → Core) : (d.upd c f).challenge = d.challenge := rfl
@[simp] theorem Dev.upd_overlay (d : Dev) (c : CoreId) (f : Core → Core) : (d.upd c f).overlay = d.overlay := rfl
@[simp] theorem Dev.upd_stage (d : Dev) (c : CoreId) (f : Core → Core) : (d.upd c f).stage = d.stage := rfl
@[simp] theorem Dev.upd_moves (d : Dev) (c : CoreId) (f : Core → Core) : (d.upd c f).moves = d.moves := rfl
@[simp] theorem Dev.upd_capLimit (d : Dev) (c : CoreId) (f : Core → Core) : (d.upd c f).capLimit = d.capLimit := rfl
@[simp] theorem Dev.upd_thermLimit (d : Dev) (c : CoreId) (f : Core → Core) : (d.upd c f).thermLimit = d.thermLimit := rfl
@[simp] theorem Dev.upd_calm (d : Dev) (c : CoreId) (f : Core → Core) : (d.upd c f).calm = d.calm := rfl
@[simp] theorem Dev.upd_snapshot (d : Dev) (c : CoreId) (f : Core → Core) : (d.upd c f).snapshot = d.snapshot := rfl
@[simp] theorem Dev.upd_faultLog (d : Dev) (c : CoreId) (f : Core → Core) : (d.upd c f).faultLog = d.faultLog := rfl
@[simp] theorem Dev.upd_trip (d : Dev) (c : CoreId) (f : Core → Core) : (d.upd c f).trip = d.trip := rfl
@[simp] theorem Dev.upd_inReset (d : Dev) (c : CoreId) (f : Core → Core) : (d.upd c f).inReset = d.inReset := rfl
@[simp] theorem Dev.upd_remaps (d : Dev) (c : CoreId) (f : Core → Core) : (d.upd c f).remaps = d.remaps := rfl
@[simp] theorem Dev.upd_jtag (d : Dev) (c : CoreId) (f : Core → Core) : (d.upd c f).jtag = d.jtag := rfl
@[simp] theorem Dev.upd_pcie (d : Dev) (c : CoreId) (f : Core → Core) : (d.upd c f).pcie = d.pcie := rfl
@[simp] theorem Dev.upd_paused (d : Dev) (c : CoreId) (f : Core → Core) : (d.upd c f).paused = d.paused := rfl
@[simp] theorem Dev.upd_sel (d : Dev) (c : CoreId) (f : Core → Core) : (d.upd c f).sel = d.sel := rfl
@[simp] theorem Dev.upd_bootStep (d : Dev) (c : CoreId) (f : Core → Core) : (d.upd c f).bootStep = d.bootStep := rfl
@[simp] theorem Dev.upd_naenoRuns (d : Dev) (c : CoreId) (f : Core → Core) : (d.upd c f).naenoRuns = d.naenoRuns := rfl
@[simp] theorem Dev.upd_windowed (d : Dev) (c : CoreId) (f : Core → Core) : (d.upd c f).windowed = d.windowed := rfl

@[simp] theorem Dev.emit_cores (d : Dev) (x : Out) : (d.emit x).cores = d.cores := rfl
@[simp] theorem Dev.emit_regs (d : Dev) (x : Out) : (d.emit x).regs = d.regs := rfl
@[simp] theorem Dev.emit_fuse (d : Dev) (x : Out) : (d.emit x).fuse = d.fuse := rfl
@[simp] theorem Dev.emit_ck (d : Dev) (x : Out) : (d.emit x).ck = d.ck := rfl
@[simp] theorem Dev.emit_ms (d : Dev) (x : Out) : (d.emit x).ms = d.ms := rfl
@[simp] theorem Dev.emit_freeCtr (d : Dev) (x : Out) : (d.emit x).freeCtr = d.freeCtr := rfl
@[simp] theorem Dev.emit_flight (d : Dev) (x : Out) : (d.emit x).flight = d.flight := rfl
@[simp] theorem Dev.emit_sched (d : Dev) (x : Out) : (d.emit x).sched = d.sched := rfl
@[simp] theorem Dev.emit_schedFill (d : Dev) (x : Out) : (d.emit x).schedFill = d.schedFill := rfl
@[simp] theorem Dev.emit_schedEmpty (d : Dev) (x : Out) : (d.emit x).schedEmpty = d.schedEmpty := rfl
@[simp] theorem Dev.emit_links (d : Dev) (x : Out) : (d.emit x).links = d.links := rfl
@[simp] theorem Dev.emit_delivered (d : Dev) (x : Out) : (d.emit x).delivered = d.delivered := rfl
@[simp] theorem Dev.emit_turn (d : Dev) (x : Out) : (d.emit x).turn = d.turn := rfl
@[simp] theorem Dev.emit_doneTurn (d : Dev) (x : Out) : (d.emit x).doneTurn = d.doneTurn := rfl
@[simp] theorem Dev.emit_tasks (d : Dev) (x : Out) : (d.emit x).tasks = d.tasks := rfl
@[simp] theorem Dev.emit_alert (d : Dev) (x : Out) : (d.emit x).alert = d.alert := rfl
@[simp] theorem Dev.emit_ibiOn (d : Dev) (x : Out) : (d.emit x).ibiOn = d.ibiOn := rfl
@[simp] theorem Dev.emit_arcades (d : Dev) (x : Out) : (d.emit x).arcades = d.arcades := rfl
@[simp] theorem Dev.emit_devnum (d : Dev) (x : Out) : (d.emit x).devnum = d.devnum := rfl
@[simp] theorem Dev.emit_counts (d : Dev) (x : Out) : (d.emit x).counts = d.counts := rfl
@[simp] theorem Dev.emit_hbm (d : Dev) (x : Out) : (d.emit x).hbm = d.hbm := rfl
@[simp] theorem Dev.emit_hbmPoison (d : Dev) (x : Out) : (d.emit x).hbmPoison = d.hbmPoison := rfl
@[simp] theorem Dev.emit_pageReads (d : Dev) (x : Out) : (d.emit x).pageReads = d.pageReads := rfl
@[simp] theorem Dev.emit_rowReads (d : Dev) (x : Out) : (d.emit x).rowReads = d.rowReads := rfl
@[simp] theorem Dev.emit_badPages (d : Dev) (x : Out) : (d.emit x).badPages = d.badPages := rfl
@[simp] theorem Dev.emit_badRows (d : Dev) (x : Out) : (d.emit x).badRows = d.badRows := rfl
@[simp] theorem Dev.emit_coh (d : Dev) (x : Out) : (d.emit x).coh = d.coh := rfl
@[simp] theorem Dev.emit_porters (d : Dev) (x : Out) : (d.emit x).porters = d.porters := rfl
@[simp] theorem Dev.emit_lanePlan (d : Dev) (x : Out) : (d.emit x).lanePlan = d.lanePlan := rfl
@[simp] theorem Dev.emit_fences (d : Dev) (x : Out) : (d.emit x).fences = d.fences := rfl
@[simp] theorem Dev.emit_posts (d : Dev) (x : Out) : (d.emit x).posts = d.posts := rfl
@[simp] theorem Dev.emit_routers (d : Dev) (x : Out) : (d.emit x).routers = d.routers := rfl
@[simp] theorem Dev.emit_edgeRows (d : Dev) (x : Out) : (d.emit x).edgeRows = d.edgeRows := rfl
@[simp] theorem Dev.emit_relays (d : Dev) (x : Out) : (d.emit x).relays = d.relays := rfl
@[simp] theorem Dev.emit_ports (d : Dev) (x : Out) : (d.emit x).ports = d.ports := rfl
@[simp] theorem Dev.emit_assaySteps (d : Dev) (x : Out) : (d.emit x).assaySteps = d.assaySteps := rfl
@[simp] theorem Dev.emit_svc (d : Dev) (x : Out) : (d.emit x).svc = d.svc := rfl
@[simp] theorem Dev.emit_mail (d : Dev) (x : Out) : (d.emit x).mail = d.mail := rfl
@[simp] theorem Dev.emit_clerks (d : Dev) (x : Out) : (d.emit x).clerks = d.clerks := rfl
@[simp] theorem Dev.emit_verdicts (d : Dev) (x : Out) : (d.emit x).verdicts = d.verdicts := rfl
@[simp] theorem Dev.emit_clerkPrograms (d : Dev) (x : Out) : (d.emit x).clerkPrograms = d.clerkPrograms := rfl
@[simp] theorem Dev.emit_slots (d : Dev) (x : Out) : (d.emit x).slots = d.slots := rfl
@[simp] theorem Dev.emit_jobs (d : Dev) (x : Out) : (d.emit x).jobs = d.jobs := rfl
@[simp] theorem Dev.emit_lastGen (d : Dev) (x : Out) : (d.emit x).lastGen = d.lastGen := rfl
@[simp] theorem Dev.emit_quiet (d : Dev) (x : Out) : (d.emit x).quiet = d.quiet := rfl
@[simp] theorem Dev.emit_cmds (d : Dev) (x : Out) : (d.emit x).cmds = d.cmds := rfl
@[simp] theorem Dev.emit_fetched (d : Dev) (x : Out) : (d.emit x).fetched = d.fetched := rfl
@[simp] theorem Dev.emit_waiters (d : Dev) (x : Out) : (d.emit x).waiters = d.waiters := rfl
@[simp] theorem Dev.emit_gateJob (d : Dev) (x : Out) : (d.emit x).gateJob = d.gateJob := rfl
@[simp] theorem Dev.emit_i3c (d : Dev) (x : Out) : (d.emit x).i3c = d.i3c := rfl
@[simp] theorem Dev.emit_msixMask (d : Dev) (x : Out) : (d.emit x).msixMask = d.msixMask := rfl
@[simp] theorem Dev.emit_msixPba (d : Dev) (x : Out) : (d.emit x).msixPba = d.msixPba := rfl
@[simp] theorem Dev.emit_roster (d : Dev) (x : Out) : (d.emit x).roster = d.roster := rfl
@[simp] theorem Dev.emit_lateNow (d : Dev) (x : Out) : (d.emit x).lateNow = d.lateNow := rfl
@[simp] theorem Dev.emit_lateRun (d : Dev) (x : Out) : (d.emit x).lateRun = d.lateRun := rfl
@[simp] theorem Dev.emit_receipts (d : Dev) (x : Out) : (d.emit x).receipts = d.receipts := rfl
@[simp] theorem Dev.emit_firmware (d : Dev) (x : Out) : (d.emit x).firmware = d.firmware := rfl
@[simp] theorem Dev.emit_lastServed (d : Dev) (x : Out) : (d.emit x).lastServed = d.lastServed := rfl
@[simp] theorem Dev.emit_reserved (d : Dev) (x : Out) : (d.emit x).reserved = d.reserved := rfl
@[simp] theorem Dev.emit_flash (d : Dev) (x : Out) : (d.emit x).flash = d.flash := rfl
@[simp] theorem Dev.emit_challenge (d : Dev) (x : Out) : (d.emit x).challenge = d.challenge := rfl
@[simp] theorem Dev.emit_overlay (d : Dev) (x : Out) : (d.emit x).overlay = d.overlay := rfl
@[simp] theorem Dev.emit_stage (d : Dev) (x : Out) : (d.emit x).stage = d.stage := rfl
@[simp] theorem Dev.emit_moves (d : Dev) (x : Out) : (d.emit x).moves = d.moves := rfl
@[simp] theorem Dev.emit_capLimit (d : Dev) (x : Out) : (d.emit x).capLimit = d.capLimit := rfl
@[simp] theorem Dev.emit_thermLimit (d : Dev) (x : Out) : (d.emit x).thermLimit = d.thermLimit := rfl
@[simp] theorem Dev.emit_calm (d : Dev) (x : Out) : (d.emit x).calm = d.calm := rfl
@[simp] theorem Dev.emit_snapshot (d : Dev) (x : Out) : (d.emit x).snapshot = d.snapshot := rfl
@[simp] theorem Dev.emit_faultLog (d : Dev) (x : Out) : (d.emit x).faultLog = d.faultLog := rfl
@[simp] theorem Dev.emit_trip (d : Dev) (x : Out) : (d.emit x).trip = d.trip := rfl
@[simp] theorem Dev.emit_inReset (d : Dev) (x : Out) : (d.emit x).inReset = d.inReset := rfl
@[simp] theorem Dev.emit_remaps (d : Dev) (x : Out) : (d.emit x).remaps = d.remaps := rfl
@[simp] theorem Dev.emit_jtag (d : Dev) (x : Out) : (d.emit x).jtag = d.jtag := rfl
@[simp] theorem Dev.emit_pcie (d : Dev) (x : Out) : (d.emit x).pcie = d.pcie := rfl
@[simp] theorem Dev.emit_paused (d : Dev) (x : Out) : (d.emit x).paused = d.paused := rfl
@[simp] theorem Dev.emit_sel (d : Dev) (x : Out) : (d.emit x).sel = d.sel := rfl
@[simp] theorem Dev.emit_bootStep (d : Dev) (x : Out) : (d.emit x).bootStep = d.bootStep := rfl
@[simp] theorem Dev.emit_naenoRuns (d : Dev) (x : Out) : (d.emit x).naenoRuns = d.naenoRuns := rfl
@[simp] theorem Dev.emit_windowed (d : Dev) (x : Out) : (d.emit x).windowed = d.windowed := rfl

@[simp] theorem Dev.send_cores (d : Dev) (p : Packet) : (d.send p).cores = d.cores := rfl
@[simp] theorem Dev.send_regs (d : Dev) (p : Packet) : (d.send p).regs = d.regs := rfl
@[simp] theorem Dev.send_fuse (d : Dev) (p : Packet) : (d.send p).fuse = d.fuse := rfl
@[simp] theorem Dev.send_ck (d : Dev) (p : Packet) : (d.send p).ck = d.ck := rfl
@[simp] theorem Dev.send_ms (d : Dev) (p : Packet) : (d.send p).ms = d.ms := rfl
@[simp] theorem Dev.send_freeCtr (d : Dev) (p : Packet) : (d.send p).freeCtr = d.freeCtr := rfl
@[simp] theorem Dev.send_out (d : Dev) (p : Packet) : (d.send p).out = d.out := rfl
@[simp] theorem Dev.send_sched (d : Dev) (p : Packet) : (d.send p).sched = d.sched := rfl
@[simp] theorem Dev.send_schedFill (d : Dev) (p : Packet) : (d.send p).schedFill = d.schedFill := rfl
@[simp] theorem Dev.send_schedEmpty (d : Dev) (p : Packet) : (d.send p).schedEmpty = d.schedEmpty := rfl
@[simp] theorem Dev.send_links (d : Dev) (p : Packet) : (d.send p).links = d.links := rfl
@[simp] theorem Dev.send_delivered (d : Dev) (p : Packet) : (d.send p).delivered = d.delivered := rfl
@[simp] theorem Dev.send_turn (d : Dev) (p : Packet) : (d.send p).turn = d.turn := rfl
@[simp] theorem Dev.send_doneTurn (d : Dev) (p : Packet) : (d.send p).doneTurn = d.doneTurn := rfl
@[simp] theorem Dev.send_tasks (d : Dev) (p : Packet) : (d.send p).tasks = d.tasks := rfl
@[simp] theorem Dev.send_alert (d : Dev) (p : Packet) : (d.send p).alert = d.alert := rfl
@[simp] theorem Dev.send_ibiOn (d : Dev) (p : Packet) : (d.send p).ibiOn = d.ibiOn := rfl
@[simp] theorem Dev.send_arcades (d : Dev) (p : Packet) : (d.send p).arcades = d.arcades := rfl
@[simp] theorem Dev.send_devnum (d : Dev) (p : Packet) : (d.send p).devnum = d.devnum := rfl
@[simp] theorem Dev.send_counts (d : Dev) (p : Packet) : (d.send p).counts = d.counts := rfl
@[simp] theorem Dev.send_hbm (d : Dev) (p : Packet) : (d.send p).hbm = d.hbm := rfl
@[simp] theorem Dev.send_hbmPoison (d : Dev) (p : Packet) : (d.send p).hbmPoison = d.hbmPoison := rfl
@[simp] theorem Dev.send_pageReads (d : Dev) (p : Packet) : (d.send p).pageReads = d.pageReads := rfl
@[simp] theorem Dev.send_rowReads (d : Dev) (p : Packet) : (d.send p).rowReads = d.rowReads := rfl
@[simp] theorem Dev.send_badPages (d : Dev) (p : Packet) : (d.send p).badPages = d.badPages := rfl
@[simp] theorem Dev.send_badRows (d : Dev) (p : Packet) : (d.send p).badRows = d.badRows := rfl
@[simp] theorem Dev.send_coh (d : Dev) (p : Packet) : (d.send p).coh = d.coh := rfl
@[simp] theorem Dev.send_porters (d : Dev) (p : Packet) : (d.send p).porters = d.porters := rfl
@[simp] theorem Dev.send_lanePlan (d : Dev) (p : Packet) : (d.send p).lanePlan = d.lanePlan := rfl
@[simp] theorem Dev.send_fences (d : Dev) (p : Packet) : (d.send p).fences = d.fences := rfl
@[simp] theorem Dev.send_posts (d : Dev) (p : Packet) : (d.send p).posts = d.posts := rfl
@[simp] theorem Dev.send_routers (d : Dev) (p : Packet) : (d.send p).routers = d.routers := rfl
@[simp] theorem Dev.send_edgeRows (d : Dev) (p : Packet) : (d.send p).edgeRows = d.edgeRows := rfl
@[simp] theorem Dev.send_relays (d : Dev) (p : Packet) : (d.send p).relays = d.relays := rfl
@[simp] theorem Dev.send_ports (d : Dev) (p : Packet) : (d.send p).ports = d.ports := rfl
@[simp] theorem Dev.send_assaySteps (d : Dev) (p : Packet) : (d.send p).assaySteps = d.assaySteps := rfl
@[simp] theorem Dev.send_svc (d : Dev) (p : Packet) : (d.send p).svc = d.svc := rfl
@[simp] theorem Dev.send_mail (d : Dev) (p : Packet) : (d.send p).mail = d.mail := rfl
@[simp] theorem Dev.send_clerks (d : Dev) (p : Packet) : (d.send p).clerks = d.clerks := rfl
@[simp] theorem Dev.send_verdicts (d : Dev) (p : Packet) : (d.send p).verdicts = d.verdicts := rfl
@[simp] theorem Dev.send_clerkPrograms (d : Dev) (p : Packet) : (d.send p).clerkPrograms = d.clerkPrograms := rfl
@[simp] theorem Dev.send_slots (d : Dev) (p : Packet) : (d.send p).slots = d.slots := rfl
@[simp] theorem Dev.send_jobs (d : Dev) (p : Packet) : (d.send p).jobs = d.jobs := rfl
@[simp] theorem Dev.send_lastGen (d : Dev) (p : Packet) : (d.send p).lastGen = d.lastGen := rfl
@[simp] theorem Dev.send_quiet (d : Dev) (p : Packet) : (d.send p).quiet = d.quiet := rfl
@[simp] theorem Dev.send_cmds (d : Dev) (p : Packet) : (d.send p).cmds = d.cmds := rfl
@[simp] theorem Dev.send_fetched (d : Dev) (p : Packet) : (d.send p).fetched = d.fetched := rfl
@[simp] theorem Dev.send_waiters (d : Dev) (p : Packet) : (d.send p).waiters = d.waiters := rfl
@[simp] theorem Dev.send_gateJob (d : Dev) (p : Packet) : (d.send p).gateJob = d.gateJob := rfl
@[simp] theorem Dev.send_i3c (d : Dev) (p : Packet) : (d.send p).i3c = d.i3c := rfl
@[simp] theorem Dev.send_msixMask (d : Dev) (p : Packet) : (d.send p).msixMask = d.msixMask := rfl
@[simp] theorem Dev.send_msixPba (d : Dev) (p : Packet) : (d.send p).msixPba = d.msixPba := rfl
@[simp] theorem Dev.send_roster (d : Dev) (p : Packet) : (d.send p).roster = d.roster := rfl
@[simp] theorem Dev.send_lateNow (d : Dev) (p : Packet) : (d.send p).lateNow = d.lateNow := rfl
@[simp] theorem Dev.send_lateRun (d : Dev) (p : Packet) : (d.send p).lateRun = d.lateRun := rfl
@[simp] theorem Dev.send_receipts (d : Dev) (p : Packet) : (d.send p).receipts = d.receipts := rfl
@[simp] theorem Dev.send_firmware (d : Dev) (p : Packet) : (d.send p).firmware = d.firmware := rfl
@[simp] theorem Dev.send_lastServed (d : Dev) (p : Packet) : (d.send p).lastServed = d.lastServed := rfl
@[simp] theorem Dev.send_reserved (d : Dev) (p : Packet) : (d.send p).reserved = d.reserved := rfl
@[simp] theorem Dev.send_flash (d : Dev) (p : Packet) : (d.send p).flash = d.flash := rfl
@[simp] theorem Dev.send_challenge (d : Dev) (p : Packet) : (d.send p).challenge = d.challenge := rfl
@[simp] theorem Dev.send_overlay (d : Dev) (p : Packet) : (d.send p).overlay = d.overlay := rfl
@[simp] theorem Dev.send_stage (d : Dev) (p : Packet) : (d.send p).stage = d.stage := rfl
@[simp] theorem Dev.send_moves (d : Dev) (p : Packet) : (d.send p).moves = d.moves := rfl
@[simp] theorem Dev.send_capLimit (d : Dev) (p : Packet) : (d.send p).capLimit = d.capLimit := rfl
@[simp] theorem Dev.send_thermLimit (d : Dev) (p : Packet) : (d.send p).thermLimit = d.thermLimit := rfl
@[simp] theorem Dev.send_calm (d : Dev) (p : Packet) : (d.send p).calm = d.calm := rfl
@[simp] theorem Dev.send_snapshot (d : Dev) (p : Packet) : (d.send p).snapshot = d.snapshot := rfl
@[simp] theorem Dev.send_faultLog (d : Dev) (p : Packet) : (d.send p).faultLog = d.faultLog := rfl
@[simp] theorem Dev.send_trip (d : Dev) (p : Packet) : (d.send p).trip = d.trip := rfl
@[simp] theorem Dev.send_inReset (d : Dev) (p : Packet) : (d.send p).inReset = d.inReset := rfl
@[simp] theorem Dev.send_remaps (d : Dev) (p : Packet) : (d.send p).remaps = d.remaps := rfl
@[simp] theorem Dev.send_jtag (d : Dev) (p : Packet) : (d.send p).jtag = d.jtag := rfl
@[simp] theorem Dev.send_pcie (d : Dev) (p : Packet) : (d.send p).pcie = d.pcie := rfl
@[simp] theorem Dev.send_paused (d : Dev) (p : Packet) : (d.send p).paused = d.paused := rfl
@[simp] theorem Dev.send_sel (d : Dev) (p : Packet) : (d.send p).sel = d.sel := rfl
@[simp] theorem Dev.send_bootStep (d : Dev) (p : Packet) : (d.send p).bootStep = d.bootStep := rfl
@[simp] theorem Dev.send_naenoRuns (d : Dev) (p : Packet) : (d.send p).naenoRuns = d.naenoRuns := rfl
@[simp] theorem Dev.send_windowed (d : Dev) (p : Packet) : (d.send p).windowed = d.windowed := rfl

@[simp] theorem Dev.count_cores (d : Dev) (f : StepCounts → StepCounts) : (d.count f).cores = d.cores := rfl
@[simp] theorem Dev.count_regs (d : Dev) (f : StepCounts → StepCounts) : (d.count f).regs = d.regs := rfl
@[simp] theorem Dev.count_fuse (d : Dev) (f : StepCounts → StepCounts) : (d.count f).fuse = d.fuse := rfl
@[simp] theorem Dev.count_ck (d : Dev) (f : StepCounts → StepCounts) : (d.count f).ck = d.ck := rfl
@[simp] theorem Dev.count_ms (d : Dev) (f : StepCounts → StepCounts) : (d.count f).ms = d.ms := rfl
@[simp] theorem Dev.count_freeCtr (d : Dev) (f : StepCounts → StepCounts) : (d.count f).freeCtr = d.freeCtr := rfl
@[simp] theorem Dev.count_out (d : Dev) (f : StepCounts → StepCounts) : (d.count f).out = d.out := rfl
@[simp] theorem Dev.count_flight (d : Dev) (f : StepCounts → StepCounts) : (d.count f).flight = d.flight := rfl
@[simp] theorem Dev.count_sched (d : Dev) (f : StepCounts → StepCounts) : (d.count f).sched = d.sched := rfl
@[simp] theorem Dev.count_schedFill (d : Dev) (f : StepCounts → StepCounts) : (d.count f).schedFill = d.schedFill := rfl
@[simp] theorem Dev.count_schedEmpty (d : Dev) (f : StepCounts → StepCounts) : (d.count f).schedEmpty = d.schedEmpty := rfl
@[simp] theorem Dev.count_links (d : Dev) (f : StepCounts → StepCounts) : (d.count f).links = d.links := rfl
@[simp] theorem Dev.count_delivered (d : Dev) (f : StepCounts → StepCounts) : (d.count f).delivered = d.delivered := rfl
@[simp] theorem Dev.count_turn (d : Dev) (f : StepCounts → StepCounts) : (d.count f).turn = d.turn := rfl
@[simp] theorem Dev.count_doneTurn (d : Dev) (f : StepCounts → StepCounts) : (d.count f).doneTurn = d.doneTurn := rfl
@[simp] theorem Dev.count_tasks (d : Dev) (f : StepCounts → StepCounts) : (d.count f).tasks = d.tasks := rfl
@[simp] theorem Dev.count_alert (d : Dev) (f : StepCounts → StepCounts) : (d.count f).alert = d.alert := rfl
@[simp] theorem Dev.count_ibiOn (d : Dev) (f : StepCounts → StepCounts) : (d.count f).ibiOn = d.ibiOn := rfl
@[simp] theorem Dev.count_arcades (d : Dev) (f : StepCounts → StepCounts) : (d.count f).arcades = d.arcades := rfl
@[simp] theorem Dev.count_devnum (d : Dev) (f : StepCounts → StepCounts) : (d.count f).devnum = d.devnum := rfl
@[simp] theorem Dev.count_hbm (d : Dev) (f : StepCounts → StepCounts) : (d.count f).hbm = d.hbm := rfl
@[simp] theorem Dev.count_hbmPoison (d : Dev) (f : StepCounts → StepCounts) : (d.count f).hbmPoison = d.hbmPoison := rfl
@[simp] theorem Dev.count_pageReads (d : Dev) (f : StepCounts → StepCounts) : (d.count f).pageReads = d.pageReads := rfl
@[simp] theorem Dev.count_rowReads (d : Dev) (f : StepCounts → StepCounts) : (d.count f).rowReads = d.rowReads := rfl
@[simp] theorem Dev.count_badPages (d : Dev) (f : StepCounts → StepCounts) : (d.count f).badPages = d.badPages := rfl
@[simp] theorem Dev.count_badRows (d : Dev) (f : StepCounts → StepCounts) : (d.count f).badRows = d.badRows := rfl
@[simp] theorem Dev.count_coh (d : Dev) (f : StepCounts → StepCounts) : (d.count f).coh = d.coh := rfl
@[simp] theorem Dev.count_porters (d : Dev) (f : StepCounts → StepCounts) : (d.count f).porters = d.porters := rfl
@[simp] theorem Dev.count_lanePlan (d : Dev) (f : StepCounts → StepCounts) : (d.count f).lanePlan = d.lanePlan := rfl
@[simp] theorem Dev.count_fences (d : Dev) (f : StepCounts → StepCounts) : (d.count f).fences = d.fences := rfl
@[simp] theorem Dev.count_posts (d : Dev) (f : StepCounts → StepCounts) : (d.count f).posts = d.posts := rfl
@[simp] theorem Dev.count_routers (d : Dev) (f : StepCounts → StepCounts) : (d.count f).routers = d.routers := rfl
@[simp] theorem Dev.count_edgeRows (d : Dev) (f : StepCounts → StepCounts) : (d.count f).edgeRows = d.edgeRows := rfl
@[simp] theorem Dev.count_relays (d : Dev) (f : StepCounts → StepCounts) : (d.count f).relays = d.relays := rfl
@[simp] theorem Dev.count_ports (d : Dev) (f : StepCounts → StepCounts) : (d.count f).ports = d.ports := rfl
@[simp] theorem Dev.count_assaySteps (d : Dev) (f : StepCounts → StepCounts) : (d.count f).assaySteps = d.assaySteps := rfl
@[simp] theorem Dev.count_svc (d : Dev) (f : StepCounts → StepCounts) : (d.count f).svc = d.svc := rfl
@[simp] theorem Dev.count_mail (d : Dev) (f : StepCounts → StepCounts) : (d.count f).mail = d.mail := rfl
@[simp] theorem Dev.count_clerks (d : Dev) (f : StepCounts → StepCounts) : (d.count f).clerks = d.clerks := rfl
@[simp] theorem Dev.count_verdicts (d : Dev) (f : StepCounts → StepCounts) : (d.count f).verdicts = d.verdicts := rfl
@[simp] theorem Dev.count_clerkPrograms (d : Dev) (f : StepCounts → StepCounts) : (d.count f).clerkPrograms = d.clerkPrograms := rfl
@[simp] theorem Dev.count_slots (d : Dev) (f : StepCounts → StepCounts) : (d.count f).slots = d.slots := rfl
@[simp] theorem Dev.count_jobs (d : Dev) (f : StepCounts → StepCounts) : (d.count f).jobs = d.jobs := rfl
@[simp] theorem Dev.count_lastGen (d : Dev) (f : StepCounts → StepCounts) : (d.count f).lastGen = d.lastGen := rfl
@[simp] theorem Dev.count_quiet (d : Dev) (f : StepCounts → StepCounts) : (d.count f).quiet = d.quiet := rfl
@[simp] theorem Dev.count_cmds (d : Dev) (f : StepCounts → StepCounts) : (d.count f).cmds = d.cmds := rfl
@[simp] theorem Dev.count_fetched (d : Dev) (f : StepCounts → StepCounts) : (d.count f).fetched = d.fetched := rfl
@[simp] theorem Dev.count_waiters (d : Dev) (f : StepCounts → StepCounts) : (d.count f).waiters = d.waiters := rfl
@[simp] theorem Dev.count_gateJob (d : Dev) (f : StepCounts → StepCounts) : (d.count f).gateJob = d.gateJob := rfl
@[simp] theorem Dev.count_i3c (d : Dev) (f : StepCounts → StepCounts) : (d.count f).i3c = d.i3c := rfl
@[simp] theorem Dev.count_msixMask (d : Dev) (f : StepCounts → StepCounts) : (d.count f).msixMask = d.msixMask := rfl
@[simp] theorem Dev.count_msixPba (d : Dev) (f : StepCounts → StepCounts) : (d.count f).msixPba = d.msixPba := rfl
@[simp] theorem Dev.count_roster (d : Dev) (f : StepCounts → StepCounts) : (d.count f).roster = d.roster := rfl
@[simp] theorem Dev.count_lateNow (d : Dev) (f : StepCounts → StepCounts) : (d.count f).lateNow = d.lateNow := rfl
@[simp] theorem Dev.count_lateRun (d : Dev) (f : StepCounts → StepCounts) : (d.count f).lateRun = d.lateRun := rfl
@[simp] theorem Dev.count_receipts (d : Dev) (f : StepCounts → StepCounts) : (d.count f).receipts = d.receipts := rfl
@[simp] theorem Dev.count_firmware (d : Dev) (f : StepCounts → StepCounts) : (d.count f).firmware = d.firmware := rfl
@[simp] theorem Dev.count_lastServed (d : Dev) (f : StepCounts → StepCounts) : (d.count f).lastServed = d.lastServed := rfl
@[simp] theorem Dev.count_reserved (d : Dev) (f : StepCounts → StepCounts) : (d.count f).reserved = d.reserved := rfl
@[simp] theorem Dev.count_flash (d : Dev) (f : StepCounts → StepCounts) : (d.count f).flash = d.flash := rfl
@[simp] theorem Dev.count_challenge (d : Dev) (f : StepCounts → StepCounts) : (d.count f).challenge = d.challenge := rfl
@[simp] theorem Dev.count_overlay (d : Dev) (f : StepCounts → StepCounts) : (d.count f).overlay = d.overlay := rfl
@[simp] theorem Dev.count_stage (d : Dev) (f : StepCounts → StepCounts) : (d.count f).stage = d.stage := rfl
@[simp] theorem Dev.count_moves (d : Dev) (f : StepCounts → StepCounts) : (d.count f).moves = d.moves := rfl
@[simp] theorem Dev.count_capLimit (d : Dev) (f : StepCounts → StepCounts) : (d.count f).capLimit = d.capLimit := rfl
@[simp] theorem Dev.count_thermLimit (d : Dev) (f : StepCounts → StepCounts) : (d.count f).thermLimit = d.thermLimit := rfl
@[simp] theorem Dev.count_calm (d : Dev) (f : StepCounts → StepCounts) : (d.count f).calm = d.calm := rfl
@[simp] theorem Dev.count_snapshot (d : Dev) (f : StepCounts → StepCounts) : (d.count f).snapshot = d.snapshot := rfl
@[simp] theorem Dev.count_faultLog (d : Dev) (f : StepCounts → StepCounts) : (d.count f).faultLog = d.faultLog := rfl
@[simp] theorem Dev.count_trip (d : Dev) (f : StepCounts → StepCounts) : (d.count f).trip = d.trip := rfl
@[simp] theorem Dev.count_inReset (d : Dev) (f : StepCounts → StepCounts) : (d.count f).inReset = d.inReset := rfl
@[simp] theorem Dev.count_remaps (d : Dev) (f : StepCounts → StepCounts) : (d.count f).remaps = d.remaps := rfl
@[simp] theorem Dev.count_jtag (d : Dev) (f : StepCounts → StepCounts) : (d.count f).jtag = d.jtag := rfl
@[simp] theorem Dev.count_pcie (d : Dev) (f : StepCounts → StepCounts) : (d.count f).pcie = d.pcie := rfl
@[simp] theorem Dev.count_paused (d : Dev) (f : StepCounts → StepCounts) : (d.count f).paused = d.paused := rfl
@[simp] theorem Dev.count_sel (d : Dev) (f : StepCounts → StepCounts) : (d.count f).sel = d.sel := rfl
@[simp] theorem Dev.count_bootStep (d : Dev) (f : StepCounts → StepCounts) : (d.count f).bootStep = d.bootStep := rfl
@[simp] theorem Dev.count_naenoRuns (d : Dev) (f : StepCounts → StepCounts) : (d.count f).naenoRuns = d.naenoRuns := rfl
@[simp] theorem Dev.count_windowed (d : Dev) (f : StepCounts → StepCounts) : (d.count f).windowed = d.windowed := rfl

end Sys2Proof.Machine
end

