-- ==== Sys2Proof/Laws/Table.lean ====
section
/-! SUPPORT. The laws of finite tables, of byte memories and of bit fields: a read after a write, the canonical forms, and fields that do not
meet. -/

namespace Sys2Proof

/-! Reads after writes. -/

theorem Tab.get_erase {α : Type} (dflt : Nat → α) (t : Tab α) (k j : Nat) :
    Tab.get dflt (Tab.erase t k) j = if j = k then dflt j else Tab.get dflt t j := by
  induction t with
  | nil => simp [Tab.erase, Tab.get]
  | cons p t ih =>
    obtain ⟨a, v⟩ := p
    by_cases h : a = k
    · subst h
      simp only [Tab.erase, if_true, ih, Tab.get]
      by_cases hj : j = a
      · simp [hj]
      · simp [hj, Ne.symm hj]
    · simp only [Tab.erase, h, if_false, Tab.get, ih]
      by_cases hj : a = j
      · subst hj; simp [h]
      · simp [hj]

theorem Tab.get_insert {α : Type} (dflt : Nat → α) (t : Tab α) (k j : Nat) (v : α) :
    Tab.get dflt (Tab.insert t k v) j = if j = k then v else Tab.get dflt t j := by
  induction t with
  | nil =>
    by_cases h : j = k
    · simp [Tab.insert, Tab.get, h]
    · simp [Tab.insert, Tab.get, h, Ne.symm h]
  | cons p t ih =>
    obtain ⟨a, x⟩ := p
    simp only [Tab.insert]
    by_cases h1 : k < a
    · by_cases h : j = k
      · simp [h1, Tab.get, h]
      · simp [h1, Tab.get, h, Ne.symm h]
    · by_cases h2 : k = a
      · subst h2
        by_cases h : j = k
        · simp [Tab.get, h]
        · simp [Tab.get, h, Ne.symm h]
      · simp only [h1, h2, if_false, Tab.get, ih]
        by_cases h : a = j
        · subst h; simp [Ne.symm h2]
        · simp [h]

/-- A table after a write: the key holds the value, every other key what it held. -/
theorem Tab.get_set {α : Type} [DecidableEq α] (dflt : Nat → α) (t : Tab α) (k j : Nat) (v : α) :
    Tab.get dflt (Tab.set dflt t k v) j = if j = k then v else Tab.get dflt t j := by
  unfold Tab.set
  split
  · rw [Tab.get_erase]
    split
    · next h hj => rw [hj, h]
    · rfl
  · exact Tab.get_insert dflt t k j v

@[simp] theorem Tab.get_set_same {α : Type} [DecidableEq α] (dflt : Nat → α) (t : Tab α) (k : Nat) (v : α) :
    Tab.get dflt (Tab.set dflt t k v) k = v := by rw [Tab.get_set, if_pos rfl]

theorem Tab.get_set_ne {α : Type} [DecidableEq α] (dflt : Nat → α) (t : Tab α) {k j : Nat} (v : α) (h : j ≠ k) :
    Tab.get dflt (Tab.set dflt t k v) j = Tab.get dflt t j := by rw [Tab.get_set, if_neg h]

/-- A span that is cleared holds its defaults. -/
theorem Tab.get_clear {α : Type} (dflt : Nat → α) (t : Tab α) (lo n j : Nat) :
    Tab.get dflt (Tab.clear t lo n) j = if lo ≤ j ∧ j < lo + n then dflt j else Tab.get dflt t j := by
  induction t with
  | nil => simp [Tab.clear, Tab.get]
  | cons p t ih =>
    obtain ⟨a, v⟩ := p
    unfold Tab.clear at ih ⊢
    by_cases h : lo ≤ a ∧ a < lo + n
    · rw [List.filter_cons_of_neg (by simp [h.1, h.2]), ih]
      by_cases hj : a = j
      · subst hj; rw [if_pos h, if_pos h]
      · simp only [Tab.get, if_neg hj]
    · rw [List.filter_cons_of_pos (by simp; omega)]
      by_cases hj : a = j
      · subst hj; simp only [Tab.get, if_true, if_neg h]
      · simp only [Tab.get, if_neg hj, ih]

/-- Of two tables one after the other the second gives what the first does not list. -/
theorem Tab.get_append {α : Type} (dflt : Nat → α) (t u : Tab α) (j : Nat) :
    Tab.get dflt (t ++ u) j = Tab.get (Tab.get dflt u) t j := by
  induction t with
  | nil => rfl
  | cons p t ih => simp only [List.cons_append, Tab.get, ih]

/-- The keys that a test keeps hold their values, the others their defaults. -/
theorem Tab.get_filter {α : Type} (dflt : Nat → α) (q : Nat → Bool) (t : Tab α) (j : Nat) :
    Tab.get dflt (t.filter (fun p => q p.1)) j = if q j then Tab.get dflt t j else dflt j := by
  induction t with
  | nil => simp [Tab.get]
  | cons p t ih =>
    simp only [List.filter_cons]
    by_cases hj : p.1 = j
    · subst hj
      by_cases hq : q p.1 = true
      · simp [Tab.get, hq]
      · simp [hq, ih]
    · split <;> simp only [Tab.get, if_neg hj, ih]

/-- A list of keys that hold one value, those left out for which it is the default. -/
theorem Tab.get_const {α : Type} [DecidableEq α] (dflt u : Nat → α) (v : α) (l : List Nat) (j : Nat) :
    Tab.get u ((l.map (fun k => (k, v))).filter (fun p => decide (p.2 ≠ dflt p.1))) j = if j ∈ l ∧ v ≠ dflt j then v else u j := by
  induction l with
  | nil => simp [Tab.get]
  | cons k l ih =>
    rw [List.map_cons]
    by_cases hv : v = dflt k
    · rw [List.filter_cons_of_neg (by simp [hv]), ih]
      by_cases hj : j = k
      · subst hj; simp [hv]
      · simp [hj]
    · rw [List.filter_cons_of_pos (by simp [hv])]
      by_cases hj : k = j
      · subst hj; simp [Tab.get, hv]
      · simp only [Tab.get, if_neg hj, ih]
        have : ¬ j = k := fun h => hj h.symm
        simp [this]

/-- What a table gives for a key depends on the default of that key alone. -/
theorem Tab.get_congr {α : Type} {u w : Nat → α} (t : Tab α) {j : Nat} (h : u j = w j) : Tab.get u t j = Tab.get w t j := by
  induction t with
  | nil => exact h
  | cons p t ih => simp only [Tab.get, ih]

/-- A span that is filled holds the value, the rest what it held. -/
theorem Tab.get_fill {α : Type} [DecidableEq α] (dflt : Nat → α) (t : Tab α) (lo n : Nat) (v : α) (j : Nat) :
    Tab.get dflt (Tab.fill dflt t lo n v) j = if lo ≤ j ∧ j < lo + n then v else Tab.get dflt t j := by
  have hm : j ∈ (List.range n).map (lo + ·) ↔ lo ≤ j ∧ j < lo + n := by
    simp only [List.mem_map, List.mem_range]
    exact ⟨fun ⟨a, h, e⟩ => by omega, fun h => ⟨j - lo, by omega, by omega⟩⟩
  have hu : Tab.get dflt ((((List.range n).map (lo + ·)).map (fun k => (k, v))).filter (fun p => decide (p.2 ≠ dflt p.1))
      ++ t.filter (fun p => decide (lo + n ≤ p.1))) j =
      if lo ≤ j ∧ j < lo + n then v else if lo + n ≤ j then Tab.get dflt t j else dflt j := by
    rw [Tab.get_append, Tab.get_const, Tab.get_filter _ (fun k => decide (lo + n ≤ k))]
    simp only [hm, decide_eq_true_eq]
    by_cases h : lo ≤ j ∧ j < lo + n
    · have h4 : ¬ lo + n ≤ j := by omega
      simp only [h, if_neg h4, if_true, and_self, true_and]
      split
      · rfl
      · rename_i hv; exact (Decidable.not_not.mp hv).symm
    · simp only [h, false_and, if_false]
  unfold Tab.fill
  rw [Tab.get_append, Tab.get_filter _ (fun k => decide (k < lo)), hu]
  simp only [decide_eq_true_eq]
  by_cases h1 : j < lo
  · have h2 : ¬ (lo ≤ j ∧ j < lo + n) := by omega
    have h3 : ¬ lo + n ≤ j := by omega
    rw [if_pos h1, if_neg h2]
    exact Tab.get_congr t (by rw [hu, if_neg h2, if_neg h3])
  · rw [if_neg h1]
    by_cases h2 : lo ≤ j ∧ j < lo + n
    · rw [if_pos h2, if_pos h2]
    · rw [if_neg h2, if_neg h2, if_pos (by omega)]

/-! The canonical form. -/

theorem Tab.erase_sub {α : Type} (t : Tab α) (k : Nat) : (Tab.erase t k).Sublist t := by
  induction t with
  | nil => exact .slnil
  | cons p t ih =>
    obtain ⟨a, v⟩ := p
    by_cases h : a = k
    · simpa [Tab.erase, h] using ih.cons (a, v)
    · simpa [Tab.erase, h] using ih.cons_cons (a, v)

theorem Tab.wf_sub {α : Type} [DecidableEq α] {dflt : Nat → α} {t u : Tab α} (h : u.Sublist t) (w : Tab.wf dflt t) : Tab.wf dflt u :=
  ⟨w.1.sublist h, fun p hp => w.2 p (h.subset hp)⟩

theorem Tab.mem_insert {α : Type} {t : Tab α} {k : Nat} {v : α} {p : Nat × α} (h : p ∈ Tab.insert t k v) : p = (k, v) ∨ p ∈ t := by
  induction t with
  | nil => simpa [Tab.insert] using h
  | cons q t ih =>
    obtain ⟨a, x⟩ := q
    simp only [Tab.insert] at h
    split at h
    · simpa using h
    · split at h
      · rcases List.mem_cons.mp h with h | h
        · exact .inl h
        · exact .inr (List.mem_cons_of_mem _ h)
      · rcases List.mem_cons.mp h with h | h
        · exact .inr (h ▸ List.mem_cons_self ..)
        · exact (ih h).imp id (List.mem_cons_of_mem _)

theorem Tab.wf_insert {α : Type} [DecidableEq α] {dflt : Nat → α} {t : Tab α} {k : Nat} {v : α} (hv : v ≠ dflt k) (w : Tab.wf dflt t) :
    Tab.wf dflt (Tab.insert t k v) := by
  refine ⟨?_, fun p hp => ?_⟩
  · induction t with
    | nil => simp [Tab.insert]
    | cons q t ih =>
      obtain ⟨a, x⟩ := q
      have wt : Tab.wf dflt t := Tab.wf_sub (List.sublist_cons_self _ _) w
      have ha := (List.pairwise_cons.mp w.1).1
      simp only [Tab.insert]
      split
      · next h =>
        refine List.pairwise_cons.mpr ⟨fun p hp => ?_, w.1⟩
        rcases List.mem_cons.mp hp with rfl | hp
        · exact h
        · exact Nat.lt_trans h (ha p hp)
      · split
        · next h1 h2 => exact List.pairwise_cons.mpr ⟨fun p hp => by subst h2; exact ha p hp, wt.1⟩
        · next h1 h2 =>
          refine List.pairwise_cons.mpr ⟨fun p hp => ?_, ih wt⟩
          rcases Tab.mem_insert hp with rfl | hp
          · exact Nat.lt_of_le_of_ne (Nat.le_of_not_lt h1) (Ne.symm h2)
          · exact ha p hp
  · rcases Tab.mem_insert hp with rfl | hp
    · exact hv
    · exact w.2 p hp

/-- Every table operation keeps the canonical form. -/
theorem Tab.wf_set {α : Type} [DecidableEq α] {dflt : Nat → α} {t : Tab α} (k : Nat) (v : α) (w : Tab.wf dflt t) :
    Tab.wf dflt (Tab.set dflt t k v) := by
  unfold Tab.set
  split
  · exact Tab.wf_sub (Tab.erase_sub t k) w
  · next h => exact Tab.wf_insert h w

theorem Tab.wf_clear {α : Type} [DecidableEq α] {dflt : Nat → α} {t : Tab α} (lo n : Nat) (w : Tab.wf dflt t) :
    Tab.wf dflt (Tab.clear t lo n) := Tab.wf_sub List.filter_sublist w

theorem Tab.wf_setAll {α : Type} [DecidableEq α] {dflt : Nat → α} (vs : List α) : ∀ {t : Tab α} (k : Nat), Tab.wf dflt t →
    Tab.wf dflt (Tab.setAll dflt t k vs) := by
  induction vs with
  | nil => exact fun _ w => w
  | cons v vs ih => exact fun k w => ih (k + 1) (Tab.wf_set k v w)

theorem Tab.wf_fill {α : Type} [DecidableEq α] {dflt : Nat → α} {t : Tab α} (lo n : Nat) (v : α) (w : Tab.wf dflt t) :
    Tab.wf dflt (Tab.fill dflt t lo n v) := by
  obtain ⟨hp, hv⟩ := w
  have hmid : ∀ p ∈ (((List.range n).map (lo + ·)).map (fun k => (k, v))).filter (fun p => decide (p.2 ≠ dflt p.1)),
      (lo ≤ p.1 ∧ p.1 < lo + n) ∧ p.2 ≠ dflt p.1 := by
    intro p h
    simp only [List.mem_filter, List.mem_map, List.mem_range, decide_eq_true_eq] at h
    obtain ⟨⟨k, ⟨a, ha, rfl⟩, rfl⟩, hne⟩ := h
    exact ⟨⟨by simp, by simpa using ha⟩, hne⟩
  refine ⟨?_, ?_⟩
  · unfold Tab.fill
    refine List.pairwise_append.mpr ⟨hp.filter _, List.pairwise_append.mpr ⟨?_, hp.filter _, ?_⟩, ?_⟩
    · refine List.Pairwise.filter _ (List.pairwise_map.mpr (List.pairwise_map.mpr ?_))
      exact List.pairwise_lt_range.imp (fun h => by simpa using h)
    · intro p h q h'
      have := (hmid p h).1
      simp only [List.mem_filter, decide_eq_true_eq] at h'
      omega
    · intro p h q h'
      simp only [List.mem_filter, decide_eq_true_eq] at h
      rcases List.mem_append.mp h' with h' | h'
      · have := (hmid q h').1; omega
      · simp only [List.mem_filter, decide_eq_true_eq] at h'; omega
  · intro p h
    rcases List.mem_append.mp h with h | h
    · exact hv p (List.mem_filter.mp h).1
    · rcases List.mem_append.mp h with h | h
      · exact (hmid p h).2
      · exact hv p (List.mem_filter.mp h).1

theorem Tab.wf_nil {α : Type} [DecidableEq α] (dflt : Nat → α) : Tab.wf dflt ([] : Tab α) := ⟨.nil, nofun⟩

/-! Memories. -/

/-- A byte after a write of one byte. -/
theorem Memory.read_write (m : Memory) (a b : Nat) (v : Byte) : (m.write a v).read b = if b = a then v else m.read b :=
  Tab.get_set Memory.unlisted m a b v

theorem Memory.read_zero (m : Memory) (a n b : Nat) : (m.zero a n).read b = if a ≤ b ∧ b < a + n then 0 else m.read b :=
  Tab.get_clear Memory.unlisted m a n b

/-- A write of `n` bytes changes no other byte. -/
theorem Memory.read_writeN_out (n : Nat) : ∀ (m : Memory) (a v b : Nat), b < a ∨ a + n ≤ b → (m.writeN a n v).read b = m.read b := by
  induction n with
  | zero => exact fun _ _ _ _ _ => rfl
  | succ n ih =>
    intro m a v b h
    rw [Memory.writeN, ih _ _ _ _ (by omega), Memory.read_write, if_neg (by omega)]

/-- A write of `n` bytes puts byte `i` of the value at offset `i` (R6). -/
theorem Memory.read_writeN_in (n : Nat) : ∀ (m : Memory) (a v i : Nat), i < n →
    (m.writeN a n v).read (a + i) = BitVec.ofNat 8 (v / 256 ^ i) := by
  induction n with
  | zero => exact fun _ _ _ _ h => absurd h (Nat.not_lt_zero _)
  | succ n ih =>
    intro m a v i h
    rw [Memory.writeN]
    cases i with
    | zero => rw [Memory.read_writeN_out n _ _ _ _ (by omega), Memory.read_write, if_pos (Nat.add_zero a), Nat.pow_zero, Nat.div_one]
    | succ i =>
      have := ih (m.write a (BitVec.ofNat 8 v)) (a + 1) (v / 256) i (by omega)
      rw [Nat.add_assoc, Nat.add_comm 1 i] at this
      rw [this, Nat.div_div_eq_div_mul, Nat.pow_succ, Nat.mul_comm]

/-- A write of a list of bytes changes no other byte. -/
theorem Memory.read_writeBytes_out (bs : List Byte) : ∀ (m : Memory) (a b : Nat), b < a ∨ a + bs.length ≤ b →
    (m.writeBytes a bs).read b = m.read b := by
  induction bs with
  | nil => exact fun _ _ _ _ => rfl
  | cons x bs ih =>
    intro m a b h
    simp only [List.length_cons] at h
    rw [Memory.writeBytes, ih _ _ _ (by omega), Memory.read_write, if_neg (by omega)]

/-- A write of a list of bytes puts each byte in its place. -/
theorem Memory.read_writeBytes_in (bs : List Byte) : ∀ (m : Memory) (a i : Nat), i < bs.length →
    (m.writeBytes a bs).read (a + i) = bs.getD i 0 := by
  induction bs with
  | nil => exact fun _ _ _ h => absurd h (Nat.not_lt_zero _)
  | cons x bs ih =>
    intro m a i h
    rw [Memory.writeBytes]
    cases i with
    | zero => rw [Memory.read_writeBytes_out _ _ _ _ (by omega), Memory.read_write, if_pos (Nat.add_zero a)]; rfl
    | succ i =>
      have := ih (m.write a x) (a + 1) i (by simpa using h)
      rw [Nat.add_assoc, Nat.add_comm 1 i] at this
      simpa using this

/-- Every memory operation keeps the canonical form. -/
theorem Memory.wf_write {m : Memory} (a : Nat) (v : Byte) (w : m.wf) : (m.write a v).wf := Tab.wf_set a v w

theorem Memory.wf_writeN (n : Nat) : ∀ {m : Memory} (a v : Nat), m.wf → (m.writeN a n v).wf := by
  induction n with
  | zero => exact fun _ _ w => w
  | succ n ih => exact fun a v w => ih (a + 1) (v / 256) (Memory.wf_write a _ w)

theorem Memory.wf_writeBytes (bs : List Byte) : ∀ {m : Memory} (a : Nat), m.wf → (m.writeBytes a bs).wf := by
  induction bs with
  | nil => exact fun _ w => w
  | cons b bs ih => exact fun a w => ih (a + 1) (Memory.wf_write a b w)

theorem Memory.wf_zero {m : Memory} (a n : Nat) (w : m.wf) : (m.zero a n).wf := Tab.wf_clear a n w

theorem Memory.wf_nil : Memory.wf [] := Tab.wf_nil _

namespace Machine

/-! Bit fields. -/

theorem bits_testBit (v lo w i : Nat) : (bits v lo w).testBit i = (decide (i < w) && v.testBit (lo + i)) := by
  unfold bits
  rw [Nat.testBit_mod_two_pow, Nat.testBit_div_two_pow, Nat.add_comm]

theorem setBits_eq (v lo w x : Nat) : setBits v lo w x = v % 2 ^ lo + 2 ^ lo * (x % 2 ^ w + 2 ^ w * (v / 2 ^ (lo + w))) := by
  unfold setBits
  rw [Nat.pow_add, Nat.mul_add, Nat.mul_comm (x % 2 ^ w), Nat.add_assoc, Nat.mul_comm (v / (2 ^ lo * 2 ^ w)), Nat.mul_assoc]

theorem setBits_testBit (v lo w x i : Nat) :
    (setBits v lo w x).testBit i = if i < lo then v.testBit i else if i < lo + w then x.testBit (i - lo) else v.testBit i := by
  rw [setBits_eq, Nat.add_comm, Nat.testBit_two_pow_mul_add _ (Nat.mod_lt _ (Nat.two_pow_pos lo))]
  by_cases h : i < lo
  · simp [h, Nat.testBit_mod_two_pow]
  · rw [if_neg h, if_neg h, Nat.add_comm, Nat.testBit_two_pow_mul_add _ (Nat.mod_lt _ (Nat.two_pow_pos w))]
    by_cases h2 : i < lo + w
    · rw [if_pos (by omega), if_pos h2, Nat.testBit_mod_two_pow]; simp; omega
    · rw [if_neg (by omega), if_neg h2, Nat.testBit_div_two_pow]; congr 1; omega

/-- A field after it is written. -/
theorem bits_setBits_same (v lo w x : Nat) : bits (setBits v lo w x) lo w = x % 2 ^ w := by
  apply Nat.eq_of_testBit_eq
  intro i
  rw [bits_testBit, setBits_testBit, Nat.testBit_mod_two_pow]
  by_cases h : i < w
  · rw [if_neg (by omega), if_pos (by omega)]; congr 2; omega
  · simp [h]

/-- A field that the write does not meet. -/
theorem bits_setBits_apart (v lo w x a n : Nat) (h : a + n ≤ lo ∨ lo + w ≤ a) : bits (setBits v lo w x) a n = bits v a n := by
  apply Nat.eq_of_testBit_eq
  intro i
  rw [bits_testBit, bits_testBit]
  by_cases hi : i < n
  · rw [setBits_testBit]
    rcases h with h | h
    · rw [if_pos (by omega)]
    · rw [if_neg (by omega), if_neg (by omega)]
  · simp [hi]

end Machine
end Sys2Proof
end

