-- ==== Sys2Proof/Laws/Ops.lean ====
section
/-! SUPPORT. The laws of the shared operations: registers and fields, cores, the frames in which commands run, and what presenting, retiring and
blocking an instruction can do. -/

namespace Sys2Proof.Machine

/-! Registers and fields. -/

@[simp] theorem Dev.fuse_setReg (d : Dev) (a v : Nat) : (d.setReg a v).fuse = d.fuse := Dev.setReg_fuse d a v

/-- A register after another one, or itself, is stored. -/
theorem Dev.reg_setReg (d : Dev) (a v b : Nat) : (d.setReg a v).reg b = if b = a ∧ isFuse a = false then v else d.reg b := by
  unfold Dev.setReg
  cases ha : isFuse a
  · simp only [Bool.false_eq_true, if_false, Dev.reg, and_true]
    by_cases h : b = a
    · subst h; simp [ha]
    · simp [h, Tab.get_set_ne _ _ _ h]
  · simp

/-- A field that was written holds the low bits of the value. -/
theorem Dev.get_put_same (d : Dev) (f : Fld) (v : Nat) (h : isFuse f.key = false) : (d.put f v).get f = v % 2 ^ f.w := by
  rw [Dev.get, Dev.put, Dev.reg_setReg, if_pos ⟨rfl, h⟩, bits_setBits_same]

/-- A field that the write does not meet keeps its value. -/
theorem Dev.get_put_apart (d : Dev) (f g : Fld) (v : Nat) (h : g.key ≠ f.key ∨ g.lo + g.w ≤ f.lo ∨ f.lo + f.w ≤ g.lo) :
    (d.put f v).get g = d.get g := by
  rw [Dev.get, Dev.put, Dev.reg_setReg]
  split
  · next hk =>
    obtain ⟨hk, _⟩ := hk
    rcases h with h | h
    · exact absurd hk h
    · rw [bits_setBits_apart _ _ _ _ _ _ h, Dev.get, hk]
  · rfl

/-- No write changes a fuse or a factory calibration register (R392). -/
theorem Dev.get_put_fuse (d : Dev) (f g : Fld) (v : Nat) (h : isFuse g.key = true) : (d.put f v).get g = d.get g := by
  rw [Dev.get, Dev.put, Dev.reg_setReg]
  split
  · next hk => rw [hk.1] at h; rw [hk.2] at h; exact absurd h (by decide)
  · rfl

@[simp] theorem Dev.reg_setCore (d : Dev) (c : CoreId) (k : Core) (a : Nat) : (d.setCore c k).reg a = d.reg a := rfl
@[simp] theorem Dev.get_setCore (d : Dev) (c : CoreId) (k : Core) (f : Fld) : (d.setCore c k).get f = d.get f := rfl
@[simp] theorem Dev.get_emit (d : Dev) (x : Out) (f : Fld) : (d.emit x).get f = d.get f := rfl
@[simp] theorem Dev.get_send (d : Dev) (p : Packet) (f : Fld) : (d.send p).get f = d.get f := rfl

/-! Cores. -/

/-- A table key names one core. -/
theorem CoreId.key_inj {a b : CoreId} (h : a.key = b.key) : a = b := by
  obtain ⟨ax, ay⟩ := a
  obtain ⟨bx, by'⟩ := b
  simp only [CoreId.key] at h
  have h1 := ax.isLt
  have h2 := bx.isLt
  have hx : ax.toNat = bx.toNat := by omega
  have hy : ay.toNat = by'.toNat := by omega
  rw [BitVec.eq_of_toNat_eq hx, BitVec.eq_of_toNat_eq hy]

@[simp] theorem Dev.core_setCore_same (d : Dev) (c : CoreId) (k : Core) : (d.setCore c k).core c = k := Tab.get_set_same ..

theorem Dev.core_setCore_ne (d : Dev) {c x : CoreId} (k : Core) (h : x ≠ c) : (d.setCore c k).core x = d.core x :=
  Tab.get_set_ne _ _ _ (fun e => h (CoreId.key_inj e))

@[simp] theorem Dev.core_setReg (d : Dev) (a v : Nat) (c : CoreId) : (d.setReg a v).core c = d.core c := by
  unfold Dev.core; rw [Dev.setReg_cores]
@[simp] theorem Dev.core_put (d : Dev) (f : Fld) (v : Nat) (c : CoreId) : (d.put f v).core c = d.core c := Dev.core_setReg ..
@[simp] theorem Dev.core_emit (d : Dev) (x : Out) (c : CoreId) : (d.emit x).core c = d.core c := rfl
@[simp] theorem Dev.core_send (d : Dev) (p : Packet) (c : CoreId) : (d.send p).core c = d.core c := rfl

/-! General registers of a core. -/

/-- g0 reads as zero whatever is written. -/
@[simp] theorem Core.gr_zero (k : Core) : k.gr 0 = 0 := rfl

/-- A general register after a write: g0 discards it. -/
theorem Core.gr_setGr (k : Core) (r x : Nat) (v : BitVec 64) (lat : Nat) :
    (k.setGr r v lat).gr x = if x = r ∧ r ≠ 0 then v else k.gr x := by
  unfold Core.setGr
  by_cases hr : r = 0
  · simp [hr]
  · simp only [hr, if_false, Core.gr, Tab.get_set]
    by_cases hx : x = r
    · subst hx; simp [hr]
    · simp [hx]

/-- A counter after a write. -/
theorem Core.cr_setCr (k : Core) (n x : Nat) (v : BitVec 32) : (k.setCr n v).cr x = if x = n then v else k.cr x := Tab.get_set ..

/-- A descriptor register after a write. -/
theorem Core.dr_setDr (k : Core) (r x : Nat) (v : BitVec 128) (lat : Nat) : (k.setDr r v lat).dr x = if x = r then v else k.dr x :=
  Tab.get_set ..

/-- A register of a core's window after a write of a field. -/
theorem Core.get_put_same (k : Core) (f : Fld) (v : Nat) : (k.put f v).get f = v % 2 ^ f.w := by
  rw [Core.get, Core.put, Core.reg, Tab.get_set_same, bits_setBits_same]

theorem Core.get_put_apart (k : Core) (f g : Fld) (v : Nat) (h : g.key ≠ f.key ∨ g.lo + g.w ≤ f.lo ∨ f.lo + f.w ≤ g.lo) :
    (k.put f v).get g = k.get g := by
  rw [Core.get, Core.put, Core.reg, Tab.get_set]
  split
  · next hk =>
    rcases h with h | h
    · exact absurd hk h
    · rw [bits_setBits_apart _ _ _ _ _ _ h, Core.get, hk]
  · rfl

/-! The frames in which commands run. -/

/-- A change of the device answers a next state with the queue and the fuses as they were (R392). -/
theorem State.onAlways_next (s : State) (f : Dev → Dev) :
    s.onAlways f = .next ⟨s.pending, { (f s.dev).settle with fuse := s.dev.fuse }⟩ := rfl

/-- A stopped device changes nothing (R374, R461, R469, R470). -/
theorem State.onDev_dead (s : State) (f : Dev → Dev) (h : s.dev.dead = true) : s.onDev f = .next s := by
  unfold State.onDev; rw [if_pos h]

theorem State.onDev_live (s : State) (f : Dev → Dev) (h : s.dev.dead = false) : s.onDev f = s.onAlways f := by
  unfold State.onDev; rw [h]; rfl

theorem State.onLive_live (s : State) (f : Dev → Dev) (h : s.dev.inReset = false) : s.onLive f = s.onAlways f := by
  unfold State.onLive; rw [h]; rfl

theorem State.onCore_live (s : State) (c : CoreId) (f : Dev → Dev) (hc : s.dev.logical c = true) (h : s.dev.dead = false) :
    s.onCore c f = s.onAlways f := by
  unfold State.onCore; rw [hc, if_pos rfl]; exact State.onDev_live s f h

/-- What a command's frame leaves alone, whatever it runs: the queue and the fuses. -/
def Keeps (s : State) (o : Host.Outcome State Fault Refusal) : Prop := ∀ t, o = .next t → t.pending = s.pending ∧ t.dev.fuse = s.dev.fuse

theorem State.onAlways_keeps (s : State) (f : Dev → Dev) : Keeps s (s.onAlways f) := by
  intro t h
  rw [State.onAlways_next] at h
  cases h
  exact ⟨rfl, rfl⟩

theorem State.onDev_keeps (s : State) (f : Dev → Dev) : Keeps s (s.onDev f) := by
  unfold State.onDev
  split
  · intro t h; cases h; exact ⟨rfl, rfl⟩
  · exact State.onAlways_keeps s f

theorem State.onLive_keeps (s : State) (f : Dev → Dev) : Keeps s (s.onLive f) := by
  unfold State.onLive
  split
  · intro t h; cases h; exact ⟨rfl, rfl⟩
  · exact State.onAlways_keeps s f

theorem State.onCore_keeps (s : State) (c : CoreId) (f : Dev → Dev) : Keeps s (s.onCore c f) := by
  unfold State.onCore
  split
  · exact State.onDev_keeps s f
  · intro t h; cases h


/-! Presenting and retiring. -/

/-- A core that does not take the instruction: nothing changes. -/
theorem Dev.present_idle (d : Dev) (c : CoreId) (op : Nat) (f : BitVec 26) (body : Core → Dev) (h : (d.core c).takes (wordOf op f) = false) :
    d.present c op f body = d := by unfold Dev.present; rw [h]; rfl

/-- A core that takes a legal instruction runs it after its register interlock. -/
theorem Dev.instr_takes (d : Dev) (c : CoreId) (op : Nat) (f : BitVec 26) (gs ds : List Nat) (body : Core → Dev)
    (h : (d.core c).takes (wordOf op f) = true) : d.instr c op f false gs ds body = body ((d.core c).interlock gs ds) := by
  unfold Dev.instr Dev.present; rw [h]; rfl

/-- A core that takes an instruction with a reserved encoding stops with ILLEGAL and the word (R36). -/
theorem Dev.instr_illegal (d : Dev) (c : CoreId) (op : Nat) (f : BitVec 26) (gs ds : List Nat) (body : Core → Dev)
    (h : (d.core c).takes (wordOf op f) = true) :
    d.instr c op f true gs ds body = d.fault c (d.core c) (.illegal, (wordOf op f).toNat) := by
  unfold Dev.instr Dev.present; rw [h]; rfl

/-- Retiring inside the instruction memory: the next index, one more instruction, no wait, and the ck of the issue. -/
theorem Dev.retire_next (d : Dev) (c : CoreId) (k : Core) (cost : Nat) (h : k.pc + 1 < 4096) :
    d.retire c k cost = d.setCore c { k.spendIssue cost with pc := k.pc + 1, instret := k.instret + 1, wait := none } := by
  unfold Dev.retire Dev.retireTo; rw [if_pos h]; rfl

/-- Retiring at index 4,095: the effect stays, and PC_FAULT comes in place of the next fetch (R37). -/
theorem Dev.retire_last (d : Dev) (c : CoreId) (k : Core) (cost : Nat) (h : ¬k.pc + 1 < 4096) :
    d.retire c k cost =
      d.faultAt c { k.spendIssue cost with pc := k.pc + 1, instret := k.instret + 1, wait := none } 4095 (.pc, 4096) := by
  unfold Dev.retire Dev.retireTo; rw [if_neg h]; rfl

/-- A fault stops the core at once and sends one REPORT (R49). -/
theorem Dev.fault_core (d : Dev) (c : CoreId) (k : Core) (e : CoreFault) :
    (d.fault c k e).core c = k.faulted k.pc e ∧ (d.fault c k e).flight = d.flight ++ [(k.faulted k.pc e).report c (k.faulted k.pc e).fault.toBits] :=
  ⟨Dev.core_setCore_same .., rfl⟩

/-- Blocking changes the wait alone. -/
theorem Dev.block_core (d : Dev) (c : CoreId) (k : Core) (word : BitVec 32) (kind : WaitKind) :
    (d.block c k word kind).core c = { k with wait := some ⟨word, kind, k.stallWaited⟩ } := Dev.core_setCore_same ..

/-- What the frame of an error record leaves to the end of the command. -/
theorem Dev.settle_idle (d : Dev) (h : d.tasks = []) : d.settle = d := by
  unfold Dev.settle Dev.settleOnce
  cases d
  subst h
  rfl

end Sys2Proof.Machine
end

