-- ==== Sys2Proof/Laws/PerInstr.lean ====
section
/-! SUPPORT. What well-formedness says of every command: the core or router and the optical port that it names exist on the largest grade. -/

namespace Sys2Proof.Laws

/-- The core and the port that a well-formed command names are in range. -/
def OperandsFit.Statement (i : Instr) : Prop :=
  i.wellFormed = true →
    (∀ c, i.core = some c → c.x.toNat < 96 ∧ c.y.toNat < 96) ∧ (∀ p, i.port = some p → p.toNat < 96)

/-- A command that names no core and no port. -/
theorem of_none (i : Instr) (hc : i.core = none) (hp : i.port = none) : OperandsFit.Statement i := fun _ =>
  ⟨fun _ e => (nomatch hc.symm.trans e), fun _ e => nomatch hp.symm.trans e⟩

/-- A command that names a core. -/
theorem of_core (i : Instr) (c : CoreId) (hc : i.core = some c) (hp : i.port = none) (hw : i.wellFormed = true → c.fits = true) :
    OperandsFit.Statement i := fun h =>
  ⟨fun x e => by
    have := hw h
    simp only [CoreId.fits, Bool.and_eq_true, decide_eq_true_eq] at this
    rw [← Option.some.inj (hc.symm.trans e)]; exact this,
   fun _ e => nomatch hp.symm.trans e⟩

/-- A command that names a port. -/
theorem of_port (i : Instr) (p : BitVec 7) (hc : i.core = none) (hp : i.port = some p) (hw : i.wellFormed = true → fitsPort p = true) :
    OperandsFit.Statement i := fun h =>
  ⟨fun _ e => (nomatch hc.symm.trans e), fun x e => by
    have := hw h
    simp only [fitsPort, decide_eq_true_eq] at this
    rw [← Option.some.inj (hp.symm.trans e)]; exact this⟩

theorem OperandsFit.alu (c : CoreId) (f : BitVec 26) : OperandsFit.Statement (.alu c f) := of_core _ c rfl rfl (fun h => h)
theorem OperandsFit.addi (c : CoreId) (f : BitVec 26) : OperandsFit.Statement (.addi c f) := of_core _ c rfl rfl (fun h => h)
theorem OperandsFit.andi (c : CoreId) (f : BitVec 26) : OperandsFit.Statement (.andi c f) := of_core _ c rfl rfl (fun h => h)
theorem OperandsFit.ori (c : CoreId) (f : BitVec 26) : OperandsFit.Statement (.ori c f) := of_core _ c rfl rfl (fun h => h)
theorem OperandsFit.xori (c : CoreId) (f : BitVec 26) : OperandsFit.Statement (.xori c f) := of_core _ c rfl rfl (fun h => h)
theorem OperandsFit.shi (c : CoreId) (f : BitVec 26) : OperandsFit.Statement (.shi c f) := of_core _ c rfl rfl (fun h => h)
theorem OperandsFit.lui (c : CoreId) (f : BitVec 26) : OperandsFit.Statement (.lui c f) := of_core _ c rfl rfl (fun h => h)
theorem OperandsFit.slti (c : CoreId) (f : BitVec 26) : OperandsFit.Statement (.slti c f) := of_core _ c rfl rfl (fun h => h)
theorem OperandsFit.beq (c : CoreId) (f : BitVec 26) : OperandsFit.Statement (.beq c f) := of_core _ c rfl rfl (fun h => h)
theorem OperandsFit.bne (c : CoreId) (f : BitVec 26) : OperandsFit.Statement (.bne c f) := of_core _ c rfl rfl (fun h => h)
theorem OperandsFit.blt (c : CoreId) (f : BitVec 26) : OperandsFit.Statement (.blt c f) := of_core _ c rfl rfl (fun h => h)
theorem OperandsFit.bge (c : CoreId) (f : BitVec 26) : OperandsFit.Statement (.bge c f) := of_core _ c rfl rfl (fun h => h)
theorem OperandsFit.bltu (c : CoreId) (f : BitVec 26) : OperandsFit.Statement (.bltu c f) := of_core _ c rfl rfl (fun h => h)
theorem OperandsFit.bgeu (c : CoreId) (f : BitVec 26) : OperandsFit.Statement (.bgeu c f) := of_core _ c rfl rfl (fun h => h)
theorem OperandsFit.jal (c : CoreId) (f : BitVec 26) : OperandsFit.Statement (.jal c f) := of_core _ c rfl rfl (fun h => h)
theorem OperandsFit.jalr (c : CoreId) (f : BitVec 26) : OperandsFit.Statement (.jalr c f) := of_core _ c rfl rfl (fun h => h)
theorem OperandsFit.lb (c : CoreId) (f : BitVec 26) (w : Nat) : OperandsFit.Statement (.lb c f w) := of_core _ c rfl rfl (fun h => h)
theorem OperandsFit.lbu (c : CoreId) (f : BitVec 26) (w : Nat) : OperandsFit.Statement (.lbu c f w) := of_core _ c rfl rfl (fun h => h)
theorem OperandsFit.lh (c : CoreId) (f : BitVec 26) (w : Nat) : OperandsFit.Statement (.lh c f w) := of_core _ c rfl rfl (fun h => h)
theorem OperandsFit.lhu (c : CoreId) (f : BitVec 26) (w : Nat) : OperandsFit.Statement (.lhu c f w) := of_core _ c rfl rfl (fun h => h)
theorem OperandsFit.lw (c : CoreId) (f : BitVec 26) (w : Nat) : OperandsFit.Statement (.lw c f w) := of_core _ c rfl rfl (fun h => h)
theorem OperandsFit.lwu (c : CoreId) (f : BitVec 26) (w : Nat) : OperandsFit.Statement (.lwu c f w) := of_core _ c rfl rfl (fun h => h)
theorem OperandsFit.ld (c : CoreId) (f : BitVec 26) (w : Nat) : OperandsFit.Statement (.ld c f w) := of_core _ c rfl rfl (fun h => h)
theorem OperandsFit.sb (c : CoreId) (f : BitVec 26) (w : Nat) : OperandsFit.Statement (.sb c f w) := of_core _ c rfl rfl (fun h => h)
theorem OperandsFit.sh (c : CoreId) (f : BitVec 26) (w : Nat) : OperandsFit.Statement (.sh c f w) := of_core _ c rfl rfl (fun h => h)
theorem OperandsFit.sw (c : CoreId) (f : BitVec 26) (w : Nat) : OperandsFit.Statement (.sw c f w) := of_core _ c rfl rfl (fun h => h)
theorem OperandsFit.sd (c : CoreId) (f : BitVec 26) (w : Nat) : OperandsFit.Statement (.sd c f w) := of_core _ c rfl rfl (fun h => h)
theorem OperandsFit.storeRetire (c : CoreId) : OperandsFit.Statement (.storeRetire c) := of_core _ c rfl rfl (fun h => h)
theorem OperandsFit.dld (c : CoreId) (f : BitVec 26) (w : Nat) : OperandsFit.Statement (.dld c f w) := of_core _ c rfl rfl (fun h => h)
theorem OperandsFit.dst (c : CoreId) (f : BitVec 26) (w : Nat) : OperandsFit.Statement (.dst c f w) := of_core _ c rfl rfl (fun h => h)
theorem OperandsFit.dset (c : CoreId) (f : BitVec 26) : OperandsFit.Statement (.dset c f) := of_core _ c rfl rfl (fun h => h)
theorem OperandsFit.vop (c : CoreId) (f : BitVec 26) (w : Nat) : OperandsFit.Statement (.vop c f w) := of_core _ c rfl rfl (fun h => h)
theorem OperandsFit.tmm (c : CoreId) (f : BitVec 26) (w : Nat) : OperandsFit.Statement (.tmm c f w) := of_core _ c rfl rfl (fun h => h)
theorem OperandsFit.tmmComplete (c : CoreId) : OperandsFit.Statement (.tmmComplete c) := of_core _ c rfl rfl (fun h => h)
theorem OperandsFit.tcvt (c : CoreId) (f : BitVec 26) (w : Nat) : OperandsFit.Statement (.tcvt c f w) := of_core _ c rfl rfl (fun h => h)
theorem OperandsFit.tcvtComplete (c : CoreId) : OperandsFit.Statement (.tcvtComplete c) := of_core _ c rfl rfl (fun h => h)
theorem OperandsFit.tscat (c : CoreId) (f : BitVec 26) (w : Nat) : OperandsFit.Statement (.tscat c f w) := of_core _ c rfl rfl (fun h => h)
theorem OperandsFit.scatterRowAdd (c : CoreId) (portFree : Bool) : OperandsFit.Statement (.scatterRowAdd c portFree) := of_core _ c rfl rfl (fun h => h)
theorem OperandsFit.tscatComplete (c : CoreId) : OperandsFit.Statement (.tscatComplete c) := of_core _ c rfl rfl (fun h => h)
theorem OperandsFit.send (c : CoreId) (f : BitVec 26) (w : Nat) : OperandsFit.Statement (.send c f w) := of_core _ c rfl rfl (fun h => h)
theorem OperandsFit.recv (c : CoreId) (f : BitVec 26) (w : Nat) : OperandsFit.Statement (.recv c f w) := of_core _ c rfl rfl (fun h => h)
theorem OperandsFit.rrel (c : CoreId) (f : BitVec 26) (w : Nat) : OperandsFit.Statement (.rrel c f w) := of_core _ c rfl rfl (fun h => h)
theorem OperandsFit.poll (c : CoreId) (f : BitVec 26) : OperandsFit.Statement (.poll c f) := of_core _ c rfl rfl (fun h => h)
theorem OperandsFit.waitc (c : CoreId) (f : BitVec 26) : OperandsFit.Statement (.waitc c f) := of_core _ c rfl rfl (fun h => h)
theorem OperandsFit.waitcr (c : CoreId) (f : BitVec 26) : OperandsFit.Statement (.waitcr c f) := of_core _ c rfl rfl (fun h => h)
theorem OperandsFit.counterWaitRetire (c : CoreId) (w : Nat) : OperandsFit.Statement (.counterWaitRetire c w) := of_core _ c rfl rfl (fun h => h)
theorem OperandsFit.csetc (c : CoreId) (f : BitVec 26) : OperandsFit.Statement (.csetc c f) := of_core _ c rfl rfl (fun h => h)
theorem OperandsFit.crd (c : CoreId) (f : BitVec 26) : OperandsFit.Statement (.crd c f) := of_core _ c rfl rfl (fun h => h)
theorem OperandsFit.preq (c : CoreId) (f : BitVec 26) (w : Nat) : OperandsFit.Statement (.preq c f w) := of_core _ c rfl rfl (fun h => h)
theorem OperandsFit.fence (c : CoreId) (f : BitVec 26) (w : Nat) : OperandsFit.Statement (.fence c f w) := of_core _ c rfl rfl (fun h => h)
theorem OperandsFit.rankup (c : CoreId) (f : BitVec 26) : OperandsFit.Statement (.rankup c f) := of_core _ c rfl rfl (fun h => h)
theorem OperandsFit.slotnext (c : CoreId) (f : BitVec 26) : OperandsFit.Statement (.slotnext c f) := of_core _ c rfl rfl (fun h => h)
theorem OperandsFit.csrr (c : CoreId) (f : BitVec 26) : OperandsFit.Statement (.csrr c f) := of_core _ c rfl rfl (fun h => h)
theorem OperandsFit.csrw (c : CoreId) (f : BitVec 26) : OperandsFit.Statement (.csrw c f) := of_core _ c rfl rfl (fun h => h)
theorem OperandsFit.errinc (c : CoreId) (f : BitVec 26) (w : Nat) : OperandsFit.Statement (.errinc c f w) := of_core _ c rfl rfl (fun h => h)
theorem OperandsFit.halt (c : CoreId) (f : BitVec 26) (w : Nat) : OperandsFit.Statement (.halt c f w) := of_core _ c rfl rfl (fun h => h)
theorem OperandsFit.rowArrival (c : CoreId) (r : Row) (portFree : Bool) : OperandsFit.Statement (.rowArrival c r portFree) := of_core _ c rfl rfl (fun h => h)
theorem OperandsFit.remoteQueueRetire (c : CoreId) (m : BitVec 2) : OperandsFit.Statement (.remoteQueueRetire c m) := of_core _ c rfl rfl (fun h => h)
theorem OperandsFit.tallyHeaderClassify (c : CoreId) (q : BitVec 3) (t : Nat) : OperandsFit.Statement (.tallyHeaderClassify c q t) := of_core _ c rfl rfl (fun h => h)
theorem OperandsFit.tallyRowAdd (c : CoreId) : OperandsFit.Statement (.tallyRowAdd c) := of_core _ c rfl rfl (fun h => h)
theorem OperandsFit.tallyDeadline (c : CoreId) (q : BitVec 3) (t : Nat) : OperandsFit.Statement (.tallyDeadline c q t) := of_core _ c rfl rfl (fun h => h)
theorem OperandsFit.tallyRelease (c : CoreId) (q : BitVec 3) : OperandsFit.Statement (.tallyRelease c q) := of_core _ c rfl rfl (fun h => h)
theorem OperandsFit.tallyReleaseEnd (c : CoreId) (q : BitVec 3) : OperandsFit.Statement (.tallyReleaseEnd c q) := of_core _ c rfl rfl (fun h => h)
theorem OperandsFit.creditArrival (p : Packet) : OperandsFit.Statement (.creditArrival p) := of_none _ rfl rfl
theorem OperandsFit.receiptArrival (p : Packet) : OperandsFit.Statement (.receiptArrival p) := of_none _ rfl rfl
theorem OperandsFit.errincArrival (p : Packet) : OperandsFit.Statement (.errincArrival p) := of_none _ rfl rfl
theorem OperandsFit.doneArrival (p : Packet) : OperandsFit.Statement (.doneArrival p) := of_none _ rfl rfl
theorem OperandsFit.routerSlot (r : CoreId) (ck : Nat) (e : Ecc) : OperandsFit.Statement (.routerSlot r ck e) := of_core _ r rfl rfl (fun h => h)
theorem OperandsFit.scheduleFill (c : CoreId) (r : Row) : OperandsFit.Statement (.scheduleFill c r) := of_core _ c rfl rfl (fun h => h)
theorem OperandsFit.epochVote (p : Packet) (ck : Nat) : OperandsFit.Statement (.epochVote p ck) := of_none _ rfl rfl
theorem OperandsFit.turn (c : CoreId) (ck : Nat) : OperandsFit.Statement (.turn c ck) := of_core _ c rfl rfl (fun h => h)
theorem OperandsFit.turnDrainStart : OperandsFit.Statement (.turnDrainStart) := of_none _ rfl rfl
theorem OperandsFit.bankTurn : OperandsFit.Statement (.bankTurn) := of_none _ rfl rfl
theorem OperandsFit.spotCheckSelect (c : CoreId) : OperandsFit.Statement (.spotCheckSelect c) := of_core _ c rfl rfl (fun h => h)
theorem OperandsFit.checkEngineRequest (arcade : BitVec 10) : OperandsFit.Statement (.checkEngineRequest arcade) := of_none _ rfl rfl
theorem OperandsFit.spotCheckCompare (c : CoreId) (ok : Bool) : OperandsFit.Statement (.spotCheckCompare c ok) := of_core _ c rfl rfl (fun h => h)
theorem OperandsFit.patrolRead (c : CoreId) (row : Nat) (e : Ecc) : OperandsFit.Statement (.patrolRead c row e) := of_core _ c rfl rfl (fun h => h)
theorem OperandsFit.hbmPatrol (k : BitVec 3) (line : Nat) (e : Ecc) : OperandsFit.Statement (.hbmPatrol k line e) := of_none _ rfl rfl
theorem OperandsFit.descriptorAccept (p : Packet) : OperandsFit.Statement (.descriptorAccept p) := of_none _ rfl rfl
theorem OperandsFit.porterCredit (p : Packet) : OperandsFit.Statement (.porterCredit p) := of_none _ rfl rfl
theorem OperandsFit.transferStart (p : BitVec 5) (st : BitVec 2) : OperandsFit.Statement (.transferStart p st) := of_none _ rfl rfl
theorem OperandsFit.tagGrant (p : BitVec 5) : OperandsFit.Statement (.tagGrant p) := of_none _ rfl rfl
theorem OperandsFit.pieceReturn (p : BitVec 5) (t : Nat) (n : Nat) (e : Ecc) : OperandsFit.Statement (.pieceReturn p t n e) := of_none _ rfl rfl
theorem OperandsFit.pieceTimeout (p : BitVec 5) (t : Nat) (n : Nat) : OperandsFit.Statement (.pieceTimeout p t n) := of_none _ rfl rfl
theorem OperandsFit.gatedCreditTake (p : BitVec 5) (st : BitVec 2) : OperandsFit.Statement (.gatedCreditTake p st) := of_none _ rfl rfl
theorem OperandsFit.storeCmd (p : Packet) (portFree : Bool) : OperandsFit.Statement (.storeCmd p portFree) := of_none _ rfl rfl
theorem OperandsFit.storeRowArrival (k : BitVec 3) (r : Row) : OperandsFit.Statement (.storeRowArrival k r) := of_none _ rfl rfl
theorem OperandsFit.pieceWriteAck (p : BitVec 5) (t : Nat) (n : Nat) : OperandsFit.Statement (.pieceWriteAck p t n) := of_none _ rfl rfl
theorem OperandsFit.fencePostArrival (k : BitVec 3) : OperandsFit.Statement (.fencePostArrival k) := of_none _ rfl rfl
theorem OperandsFit.stackFail (k : BitVec 3) : OperandsFit.Statement (.stackFail k) := of_none _ rfl rfl
theorem OperandsFit.clerkRequest (p : Packet) : OperandsFit.Statement (.clerkRequest p) := of_none _ rfl rfl
theorem OperandsFit.update (k : BitVec 4) : OperandsFit.Statement (.update k) := of_none _ rfl rfl
theorem OperandsFit.scan (k : BitVec 4) : OperandsFit.Statement (.scan k) := of_none _ rfl rfl
theorem OperandsFit.norm (k : BitVec 4) : OperandsFit.Statement (.norm k) := of_none _ rfl rfl
theorem OperandsFit.exportRecord (k : BitVec 4) : OperandsFit.Statement (.exportRecord k) := of_none _ rfl rfl
theorem OperandsFit.clerkRowCommit (k : BitVec 4) : OperandsFit.Statement (.clerkRowCommit k) := of_none _ rfl rfl
theorem OperandsFit.clerkWatchdog (k : BitVec 4) : OperandsFit.Statement (.clerkWatchdog k) := of_none _ rfl rfl
theorem OperandsFit.clerkFail (k : BitVec 4) : OperandsFit.Statement (.clerkFail k) := of_none _ rfl rfl
theorem OperandsFit.clerkTakeback (k : BitVec 4) : OperandsFit.Statement (.clerkTakeback k) := of_none _ rfl rfl
theorem OperandsFit.egressTransmit (p : BitVec 7) (f : BitVec 6) : OperandsFit.Statement (.egressTransmit p f) := of_port _ p rfl rfl (fun h => h)
theorem OperandsFit.egressMessageSent (p : BitVec 7) (f : BitVec 6) : OperandsFit.Statement (.egressMessageSent p f) := of_port _ p rfl rfl (fun h => h)
theorem OperandsFit.ingressMessage (p : BitVec 7) (f : BitVec 6) : OperandsFit.Statement (.ingressMessage p f) := of_port _ p rfl rfl (fun h => h)
theorem OperandsFit.nullMessage (p : BitVec 7) (f : BitVec 6) : OperandsFit.Statement (.nullMessage p f) := of_port _ p rfl rfl (fun h => h)
theorem OperandsFit.flitReceive (p : BitVec 7) (x : BitVec 2048) (e : Ecc) : OperandsFit.Statement (.flitReceive p x e) := of_port _ p rfl rfl (fun h => h)
theorem OperandsFit.linkMessage (p : BitVec 7) (vl : BitVec 2) : OperandsFit.Statement (.linkMessage p vl) := of_port _ p rfl rfl (fun h => h)
theorem OperandsFit.nopSymbol (p : BitVec 7) (y : BitVec 40) (chk : BitVec 16) : OperandsFit.Statement (.nopSymbol p y chk) := of_port _ p rfl rfl (fun h => h)
theorem OperandsFit.ack (p : BitVec 7) (y : BitVec 40) (chk : BitVec 16) : OperandsFit.Statement (.ack p y chk) := of_port _ p rfl rfl (fun h => h)
theorem OperandsFit.nak (p : BitVec 7) (y : BitVec 40) (chk : BitVec 16) : OperandsFit.Statement (.nak p y chk) := of_port _ p rfl rfl (fun h => h)
theorem OperandsFit.laneCredit (p : BitVec 7) (y : BitVec 40) (chk : BitVec 16) : OperandsFit.Statement (.laneCredit p y chk) := of_port _ p rfl rfl (fun h => h)
theorem OperandsFit.flowCredit (p : BitVec 7) (y : BitVec 40) (chk : BitVec 16) : OperandsFit.Statement (.flowCredit p y chk) := of_port _ p rfl rfl (fun h => h)
theorem OperandsFit.epochTurn (p : BitVec 7) (y : BitVec 40) (chk : BitVec 16) : OperandsFit.Statement (.epochTurn p y chk) := of_port _ p rfl rfl (fun h => h)
theorem OperandsFit.assay (p : BitVec 7) (y : BitVec 40) (chk : BitVec 16) : OperandsFit.Statement (.assay p y chk) := of_port _ p rfl rfl (fun h => h)
theorem OperandsFit.goingDown (p : BitVec 7) (y : BitVec 40) (chk : BitVec 16) : OperandsFit.Statement (.goingDown p y chk) := of_port _ p rfl rfl (fun h => h)
theorem OperandsFit.discover (p : BitVec 7) (y : BitVec 40) (chk : BitVec 16) : OperandsFit.Statement (.discover p y chk) := of_port _ p rfl rfl (fun h => h)
theorem OperandsFit.spareReq (p : BitVec 7) (y : BitVec 40) (chk : BitVec 16) (cw : BitVec 32) : OperandsFit.Statement (.spareReq p y chk cw) := of_port _ p rfl rfl (fun h => h)
theorem OperandsFit.swap (p : BitVec 7) (y : BitVec 40) (chk : BitVec 16) (cw : BitVec 32) : OperandsFit.Statement (.swap p y chk cw) := of_port _ p rfl rfl (fun h => h)
theorem OperandsFit.align (p : BitVec 7) (y : BitVec 40) (chk : BitVec 16) : OperandsFit.Statement (.align p y chk) := of_port _ p rfl rfl (fun h => h)
theorem OperandsFit.train (p : BitVec 7) (y : BitVec 40) (chk : BitVec 16) : OperandsFit.Statement (.train p y chk) := of_port _ p rfl rfl (fun h => h)
theorem OperandsFit.ackTimer (p : BitVec 7) : OperandsFit.Statement (.ackTimer p) := of_port _ p rfl rfl (fun h => h)
theorem OperandsFit.nakRepeat (p : BitVec 7) : OperandsFit.Statement (.nakRepeat p) := of_port _ p rfl rfl (fun h => h)
theorem OperandsFit.creditRefresh (p : BitVec 7) : OperandsFit.Statement (.creditRefresh p) := of_port _ p rfl rfl (fun h => h)
theorem OperandsFit.assayRepeat (p : BitVec 7) : OperandsFit.Statement (.assayRepeat p) := of_port _ p rfl rfl (fun h => h)
theorem OperandsFit.discoverRepeat (p : BitVec 7) : OperandsFit.Statement (.discoverRepeat p) := of_port _ p rfl rfl (fun h => h)
theorem OperandsFit.laneSpareTrigger (p : BitVec 7) (lane : BitVec 4) (tx : Bool) (cw : BitVec 32) : OperandsFit.Statement (.laneSpareTrigger p lane tx cw) := of_port _ p rfl rfl (fun h => h)
theorem OperandsFit.swapAtK (p : BitVec 7) (lane : BitVec 4) : OperandsFit.Statement (.swapAtK p lane) := of_port _ p rfl rfl (fun h => h)
theorem OperandsFit.spareOldStop (p : BitVec 7) (lane : BitVec 4) : OperandsFit.Statement (.spareOldStop p lane) := of_port _ p rfl rfl (fun h => h)
theorem OperandsFit.ringLockLoss (p : BitVec 7) (tx : Bool) (wl : BitVec 5) (cw : BitVec 32) : OperandsFit.Statement (.ringLockLoss p tx wl cw) := of_port _ p rfl rfl (fun h => (Bool.and_eq_true_iff.mp h).1)
theorem OperandsFit.linkStateDone (p : BitVec 7) (rings : BitVec 18) : OperandsFit.Statement (.linkStateDone p rings) := of_port _ p rfl rfl (fun h => h)
theorem OperandsFit.linkStateTimeout (p : BitVec 7) : OperandsFit.Statement (.linkStateTimeout p) := of_port _ p rfl rfl (fun h => h)
theorem OperandsFit.lostRetry (p : BitVec 7) : OperandsFit.Statement (.lostRetry p) := of_port _ p rfl rfl (fun h => h)
theorem OperandsFit.pcieConfigRequest (f : BitVec 4) (r : ConfigReq) : OperandsFit.Statement (.pcieConfigRequest f r) := of_none _ rfl rfl
theorem OperandsFit.bar0Access (a : BitVec 26) (n : BitVec 7) (w : Option (BitVec 64)) : OperandsFit.Statement (.bar0Access a n w) := of_none _ rfl rfl
theorem OperandsFit.bar2Access (f : BitVec 4) (o : BitVec 36) (n : BitVec 13) (w : Option (List Byte × Bool)) : OperandsFit.Statement (.bar2Access f o n w) := of_none _ rfl rfl
theorem OperandsFit.doorbell (f : BitVec 4) (q : BitVec 6) (o : BitVec 12) (v : BitVec 32) : OperandsFit.Statement (.doorbell f q o v) := of_none _ rfl rfl
theorem OperandsFit.flr (f : BitVec 4) : OperandsFit.Statement (.flr f) := of_none _ rfl rfl
theorem OperandsFit.hotReset (down : Bool) : OperandsFit.Statement (.hotReset down) := of_none _ rfl rfl
theorem OperandsFit.perstN (high : Bool) : OperandsFit.Statement (.perstN high) := of_none _ rfl rfl
theorem OperandsFit.ethFrameReceive (p : BitVec 1) (frame : List Byte) (good : Bool) : OperandsFit.Statement (.ethFrameReceive p frame good) := of_none _ rfl rfl
theorem OperandsFit.ethFrameTransmit (p : BitVec 1) (q : BitVec 4) : OperandsFit.Statement (.ethFrameTransmit p q) := of_none _ rfl rfl
theorem OperandsFit.ethRingWrite (who : Requester) (p : BitVec 1) (tx : Bool) (q : BitVec 4) (upper : Bool) (v : BitVec 64) : OperandsFit.Statement (.ethRingWrite who p tx q upper v) := of_none _ rfl rfl
theorem OperandsFit.enec : OperandsFit.Statement (.enec) := of_none _ rfl rfl
theorem OperandsFit.disec : OperandsFit.Statement (.disec) := of_none _ rfl rfl
theorem OperandsFit.rstdaa : OperandsFit.Statement (.rstdaa) := of_none _ rfl rfl
theorem OperandsFit.setdasa (a : BitVec 7) : OperandsFit.Statement (.setdasa a) := of_none _ rfl rfl
theorem OperandsFit.setaasa : OperandsFit.Statement (.setaasa) := of_none _ rfl rfl
theorem OperandsFit.getpid : OperandsFit.Statement (.getpid) := of_none _ rfl rfl
theorem OperandsFit.getbcr : OperandsFit.Statement (.getbcr) := of_none _ rfl rfl
theorem OperandsFit.getdcr : OperandsFit.Statement (.getdcr) := of_none _ rfl rfl
theorem OperandsFit.getstatus : OperandsFit.Statement (.getstatus) := of_none _ rfl rfl
theorem OperandsFit.getmxds : OperandsFit.Statement (.getmxds) := of_none _ rfl rfl
theorem OperandsFit.i3cRegisterAccess (ptr : Option (BitVec 8)) (bs : List Byte) (n : BitVec 9) : OperandsFit.Statement (.i3cRegisterAccess ptr bs n) := of_none _ rfl rfl
theorem OperandsFit.mboxGo : OperandsFit.Statement (.mboxGo) := of_none _ rfl rfl
theorem OperandsFit.idcode : OperandsFit.Statement (.idcode) := of_none _ rfl rfl
theorem OperandsFit.samplePreload (pins : BitVec 33) : OperandsFit.Statement (.samplePreload pins) := of_none _ rfl rfl
theorem OperandsFit.extest : OperandsFit.Statement (.extest) := of_none _ rfl rfl
theorem OperandsFit.clamp : OperandsFit.Statement (.clamp) := of_none _ rfl rfl
theorem OperandsFit.highz : OperandsFit.Statement (.highz) := of_none _ rfl rfl
theorem OperandsFit.bypass : OperandsFit.Statement (.bypass) := of_none _ rfl rfl
theorem OperandsFit.commandFetch (x : BitVec 512) : OperandsFit.Statement (.commandFetch x) := of_none _ rfl rfl
theorem OperandsFit.commandStart (n : Nat) : OperandsFit.Statement (.commandStart n) := of_none _ rfl rfl
theorem OperandsFit.resourceGrant : OperandsFit.Statement (.resourceGrant) := of_none _ rfl rfl
theorem OperandsFit.commandTimeout (n : Nat) : OperandsFit.Statement (.commandTimeout n) := of_none _ rfl rfl
theorem OperandsFit.delegateResult (n : Nat) (status : BitVec 16) (detail : BitVec 32) (result : BitVec 192) : OperandsFit.Statement (.delegateResult n status detail result) := of_none _ rfl rfl
theorem OperandsFit.nop (n : Nat) : OperandsFit.Statement (.nop n) := of_none _ rfl rfl
theorem OperandsFit.devInfo (n : Nat) : OperandsFit.Statement (.devInfo n) := of_none _ rfl rfl
theorem OperandsFit.setDevnum (n : Nat) : OperandsFit.Statement (.setDevnum n) := of_none _ rfl rfl
theorem OperandsFit.warmReset (n : Nat) : OperandsFit.Statement (.warmReset n) := of_none _ rfl rfl
theorem OperandsFit.memAlloc (n : Nat) : OperandsFit.Statement (.memAlloc n) := of_none _ rfl rfl
theorem OperandsFit.memFree (n : Nat) : OperandsFit.Statement (.memFree n) := of_none _ rfl rfl
theorem OperandsFit.memFill (n : Nat) : OperandsFit.Statement (.memFill n) := of_none _ rfl rfl
theorem OperandsFit.memCopy (n : Nat) : OperandsFit.Statement (.memCopy n) := of_none _ rfl rfl
theorem OperandsFit.winSet (n : Nat) : OperandsFit.Statement (.winSet n) := of_none _ rfl rfl
theorem OperandsFit.quotaSet (n : Nat) : OperandsFit.Statement (.quotaSet n) := of_none _ rfl rfl
theorem OperandsFit.jobCreate (n : Nat) : OperandsFit.Statement (.jobCreate n) := of_none _ rfl rfl
theorem OperandsFit.imageLoad (n : Nat) (img : Image) : OperandsFit.Statement (.imageLoad n img) := of_none _ rfl rfl
theorem OperandsFit.jobStart (n : Nat) : OperandsFit.Statement (.jobStart n) := of_none _ rfl rfl
theorem OperandsFit.stepLaunch (n : Nat) : OperandsFit.Statement (.stepLaunch n) := of_none _ rfl rfl
theorem OperandsFit.stepVerdict (n : Nat) : OperandsFit.Statement (.stepVerdict n) := of_none _ rfl rfl
theorem OperandsFit.jobKill (n : Nat) : OperandsFit.Statement (.jobKill n) := of_none _ rfl rfl
theorem OperandsFit.jobRelease (n : Nat) : OperandsFit.Statement (.jobRelease n) := of_none _ rfl rfl
theorem OperandsFit.jobStatus (n : Nat) : OperandsFit.Statement (.jobStatus n) := of_none _ rfl rfl
theorem OperandsFit.coreReset (n : Nat) : OperandsFit.Statement (.coreReset n) := of_none _ rfl rfl
theorem OperandsFit.planLoad (n : Nat) : OperandsFit.Statement (.planLoad n) := of_none _ rfl rfl
theorem OperandsFit.linkUp (n : Nat) : OperandsFit.Statement (.linkUp n) := of_none _ rfl rfl
theorem OperandsFit.linkDown (n : Nat) : OperandsFit.Statement (.linkDown n) := of_none _ rfl rfl
theorem OperandsFit.flowLoad (n : Nat) : OperandsFit.Statement (.flowLoad n) := of_none _ rfl rfl
theorem OperandsFit.linkStatus (n : Nat) : OperandsFit.Statement (.linkStatus n) := of_none _ rfl rfl
theorem OperandsFit.telSnapshot (n : Nat) : OperandsFit.Statement (.telSnapshot n) := of_none _ rfl rfl
theorem OperandsFit.telErrors (n : Nat) : OperandsFit.Statement (.telErrors n) := of_none _ rfl rfl
theorem OperandsFit.ckptExport (n : Nat) (staging : List (BitVec 4 × BitVec 40)) (refused : Option (BitVec 16)) : OperandsFit.Statement (.ckptExport n staging refused) := of_none _ rfl rfl
theorem OperandsFit.stateImport (n : Nat) (records : List (BitVec 4 × List Byte)) : OperandsFit.Statement (.stateImport n records) := of_none _ rfl rfl
theorem OperandsFit.dbgRead (n : Nat) : OperandsFit.Statement (.dbgRead n) := of_none _ rfl rfl
theorem OperandsFit.dbgWrite (n : Nat) : OperandsFit.Statement (.dbgWrite n) := of_none _ rfl rfl
theorem OperandsFit.dbgChallenge (n : Nat) : OperandsFit.Statement (.dbgChallenge n) := of_none _ rfl rfl
theorem OperandsFit.dbgResponse (n : Nat) : OperandsFit.Statement (.dbgResponse n) := of_none _ rfl rfl
theorem OperandsFit.pwrCap (n : Nat) : OperandsFit.Statement (.pwrCap n) := of_none _ rfl rfl
theorem OperandsFit.pwrDomain (n : Nat) : OperandsFit.Statement (.pwrDomain n) := of_none _ rfl rfl
theorem OperandsFit.pwrStatus (n : Nat) : OperandsFit.Statement (.pwrStatus n) := of_none _ rfl rfl
theorem OperandsFit.flashWrite (n : Nat) : OperandsFit.Statement (.flashWrite n) := of_none _ rfl rfl
theorem OperandsFit.overlayLoad (n : Nat) : OperandsFit.Statement (.overlayLoad n) := of_none _ rfl rfl
theorem OperandsFit.brokerImage (n : Nat) : OperandsFit.Statement (.brokerImage n) := of_none _ rfl rfl
theorem OperandsFit.ownerKeySet (n : Nat) : OperandsFit.Statement (.ownerKeySet n) := of_none _ rfl rfl
theorem OperandsFit.wardenHeartbeat : OperandsFit.Statement (.wardenHeartbeat) := of_none _ rfl rfl
theorem OperandsFit.wardenTakeover : OperandsFit.Statement (.wardenTakeover) := of_none _ rfl rfl
theorem OperandsFit.stepStart (job : BitVec 16) (ck : Nat) : OperandsFit.Statement (.stepStart job ck) := of_none _ rfl rfl
theorem OperandsFit.variantLoad (job : BitVec 16) : OperandsFit.Statement (.variantLoad job) := of_none _ rfl rfl
theorem OperandsFit.stepResolve (job : BitVec 16) : OperandsFit.Statement (.stepResolve job) := of_none _ rfl rfl
theorem OperandsFit.coreFaultReport (p : Packet) : OperandsFit.Statement (.coreFaultReport p) := of_none _ rfl rfl
theorem OperandsFit.remap (c : CoreId) : OperandsFit.Statement (.remap c) := of_core _ c rfl rfl (fun h => h)
theorem OperandsFit.remapEnd (row : BitVec 8) : OperandsFit.Statement (.remapEnd row) := of_none _ rfl rfl
theorem OperandsFit.stepReceipt (job : BitVec 16) : OperandsFit.Statement (.stepReceipt job) := of_none _ rfl rfl
theorem OperandsFit.killDrainEnd (job : BitVec 16) : OperandsFit.Statement (.killDrainEnd job) := of_none _ rfl rfl
theorem OperandsFit.sramScrubEnd (job : BitVec 16) : OperandsFit.Statement (.sramScrubEnd job) := of_none _ rfl rfl
theorem OperandsFit.hbmScrubEnd (job : BitVec 16) : OperandsFit.Statement (.hbmScrubEnd job) := of_none _ rfl rfl
theorem OperandsFit.quietEnd (job : BitVec 16) : OperandsFit.Statement (.quietEnd job) := of_none _ rfl rfl
theorem OperandsFit.rejoinPause (job : BitVec 16) (sends : List StateRows) (into : List StateRows) : OperandsFit.Statement (.rejoinPause job sends into) := of_none _ rfl rfl
theorem OperandsFit.rdS (cpx : BitVec 2) (line : BitVec 34) : OperandsFit.Statement (.rdS cpx line) := of_none _ rfl rfl
theorem OperandsFit.rdO (cpx : BitVec 2) (line : BitVec 34) : OperandsFit.Statement (.rdO cpx line) := of_none _ rfl rfl
theorem OperandsFit.evictC (cpx : BitVec 2) (line : BitVec 34) (home : Bool) : OperandsFit.Statement (.evictC cpx line home) := of_none _ rfl rfl
theorem OperandsFit.evictD (cpx : BitVec 2) (line : BitVec 34) (data : RowData) (home : Bool) : OperandsFit.Statement (.evictD cpx line data home) := of_none _ rfl rfl
theorem OperandsFit.snpS (cpx : BitVec 2) (line : BitVec 34) (dirty : Option RowData) : OperandsFit.Statement (.snpS cpx line dirty) := of_none _ rfl rfl
theorem OperandsFit.snpI (cpx : BitVec 2) (line : BitVec 34) (dirty : Option RowData) : OperandsFit.Statement (.snpI cpx line dirty) := of_none _ rfl rfl
theorem OperandsFit.wbAck (cpx : BitVec 2) (line : BitVec 34) : OperandsFit.Statement (.wbAck cpx line) := of_none _ rfl rfl
theorem OperandsFit.snoopResponse (cpx : BitVec 2) (line : BitVec 34) : OperandsFit.Statement (.snoopResponse cpx line) := of_none _ rfl rfl
theorem OperandsFit.errandSend (h : BitVec 6) : OperandsFit.Statement (.errandSend h) := of_none _ rfl rfl
theorem OperandsFit.inputEntryReady (x : InputEntry) : OperandsFit.Statement (.inputEntryReady x) := of_none _ rfl rfl
theorem OperandsFit.absent : OperandsFit.Statement (.absent) := of_none _ rfl rfl
theorem OperandsFit.rejoin : OperandsFit.Statement (.rejoin) := of_none _ rfl rfl
theorem OperandsFit.accept : OperandsFit.Statement (.accept) := of_none _ rfl rfl
theorem OperandsFit.nfsum : OperandsFit.Statement (.nfsum) := of_none _ rfl rfl
theorem OperandsFit.verdict : OperandsFit.Statement (.verdict) := of_none _ rfl rfl
theorem OperandsFit.telemetryCopy (c : Option CoreId) : OperandsFit.Statement (.telemetryCopy c) := of_none _ rfl rfl
theorem OperandsFit.accountRelease (who : Requester) : OperandsFit.Statement (.accountRelease who) := of_none _ rfl rfl
theorem OperandsFit.queueEnable (who : Requester) (q : BitVec 6) (v : BitVec 64) : OperandsFit.Statement (.queueEnable who q v) := of_none _ rfl rfl
theorem OperandsFit.queueTailWrite (h : BitVec 6) (q : BitVec 6) (tail : BitVec 16) : OperandsFit.Statement (.queueTailWrite h q tail) := of_none _ rfl rfl
theorem OperandsFit.errAck (who : Requester) (v : BitVec 32) : OperandsFit.Statement (.errAck who v) := of_none _ rfl rfl
theorem OperandsFit.rcRead (who : Requester) (a : BitVec 26) (wide : Bool) : OperandsFit.Statement (.rcRead who a wide) := of_none _ rfl rfl
theorem OperandsFit.scheduleWindowWrite (a : BitVec 26) (wide : Bool) (v : BitVec 64) : OperandsFit.Statement (.scheduleWindowWrite a wide v) := of_none _ rfl rfl
theorem OperandsFit.registerWrite (who : Requester) (a : BitVec 26) (wide : Bool) (v : BitVec 64) : OperandsFit.Statement (.registerWrite who a wide v) := of_none _ rfl rfl
theorem OperandsFit.bootStepClocks (ms : BitVec 32) (fail : Option (BitVec 8)) : OperandsFit.Statement (.bootStepClocks ms fail) := of_none _ rfl rfl
theorem OperandsFit.bootStepSram (ms : BitVec 32) (fail : Option (BitVec 8)) : OperandsFit.Statement (.bootStepSram ms fail) := of_none _ rfl rfl
theorem OperandsFit.bootStepHbm (ms : BitVec 32) (fail : Option (BitVec 3)) : OperandsFit.Statement (.bootStepHbm ms fail) := of_none _ rfl rfl
theorem OperandsFit.bootStepLinks (ms : BitVec 32) : OperandsFit.Statement (.bootStepLinks ms) := of_none _ rfl rfl
theorem OperandsFit.bootStepCores (ms : BitVec 32) (engines : List (BitVec 10)) (bad : List (BitVec 8 × BitVec 6)) : OperandsFit.Statement (.bootStepCores ms engines bad) := of_none _ rfl rfl
theorem OperandsFit.bootStepWarden (ms : BitVec 32) (x : FlashProbe) : OperandsFit.Statement (.bootStepWarden ms x) := of_none _ rfl rfl
theorem OperandsFit.bootStageWrite (o : BitVec 23) (bs : List Byte) : OperandsFit.Statement (.bootStageWrite o bs) := of_none _ rfl rfl
theorem OperandsFit.bootRom (x : FlashProbe) : OperandsFit.Statement (.bootRom x) := of_none _ rfl rfl
theorem OperandsFit.bootClocks (fail : Option (BitVec 8)) : OperandsFit.Statement (.bootClocks fail) := of_none _ rfl rfl
theorem OperandsFit.bootSram (fail : Option (BitVec 8)) : OperandsFit.Statement (.bootSram fail) := of_none _ rfl rfl
theorem OperandsFit.bootHbm (fail : Option (BitVec 3)) : OperandsFit.Statement (.bootHbm fail) := of_none _ rfl rfl
theorem OperandsFit.bootLinks : OperandsFit.Statement (.bootLinks) := of_none _ rfl rfl
theorem OperandsFit.bootCores (engines : List (BitVec 10)) (bad : List (BitVec 8 × BitVec 6)) (warden : Option (BitVec 2)) : OperandsFit.Statement (.bootCores engines bad warden) := of_none _ rfl rfl
theorem OperandsFit.bootReady : OperandsFit.Statement (.bootReady) := of_none _ rfl rfl
theorem OperandsFit.bootStageTimeout : OperandsFit.Statement (.bootStageTimeout) := of_none _ rfl rfl
theorem OperandsFit.coldReset (straps : Option (Bool × Bool)) : OperandsFit.Statement (.coldReset straps) := of_none _ rfl rfl
theorem OperandsFit.railFault (ao : Bool) : OperandsFit.Statement (.railFault ao) := of_none _ rfl rfl
theorem OperandsFit.thermalTrip (n : BitVec 6) (a : BitVec 16) (b : BitVec 16) : OperandsFit.Statement (.thermalTrip n a b) := of_none _ rfl rfl
theorem OperandsFit.tripDomainsOff : OperandsFit.Statement (.tripDomainsOff) := of_none _ rfl rfl
theorem OperandsFit.powerSample (w : BitVec 12) : OperandsFit.Statement (.powerSample w) := of_none _ rfl rfl
theorem OperandsFit.capLimitRaise : OperandsFit.Statement (.capLimitRaise) := of_none _ rfl rfl
theorem OperandsFit.thermalLimitStep (raw : List (BitVec 16)) (slow : Bool) : OperandsFit.Statement (.thermalLimitStep raw slow) := of_none _ rfl rfl
theorem OperandsFit.clockStep (reached : Bool) : OperandsFit.Statement (.clockStep reached) := of_none _ rfl rfl
theorem OperandsFit.voltageUpdate (die : BitVec 2) (want : List (BitVec 12)) (failed : BitVec 3) (status : BitVec 8) : OperandsFit.Statement (.voltageUpdate die want failed status) := of_none _ rfl rfl
theorem OperandsFit.droopTrip : OperandsFit.Statement (.droopTrip) := of_none _ rfl rfl
theorem OperandsFit.domainTransitionEnd (n : BitVec 7) : OperandsFit.Statement (.domainTransitionEnd n) := of_none _ rfl rfl
theorem OperandsFit.bellFire (job : BitVec 16) (since : List (BitVec 32)) : OperandsFit.Statement (.bellFire job since) := of_none _ rfl rfl
theorem OperandsFit.unlockExpire (job : BitVec 16) : OperandsFit.Statement (.unlockExpire job) := of_none _ rfl rfl
theorem OperandsFit.challengeExpire : OperandsFit.Statement (.challengeExpire) := of_none _ rfl rfl
theorem OperandsFit.errandInject (c : CoreId) : OperandsFit.Statement (.errandInject c) := of_core _ c rfl rfl (fun h => h)
theorem OperandsFit.vopComplete (c : CoreId) : OperandsFit.Statement (.vopComplete c) := of_core _ c rfl rfl (fun h => h)
theorem OperandsFit.pcieLinkUp (rate : BitVec 3) (width : BitVec 5) (flit : Bool) : OperandsFit.Statement (.pcieLinkUp rate width flit) := of_none _ rfl rfl
theorem OperandsFit.ethLink (p : BitVec 1) (up : Bool) : OperandsFit.Statement (.ethLink p up) := of_none _ rfl rfl
theorem OperandsFit.clerkSelfCheck (k : BitVec 4) (ok : Bool) : OperandsFit.Statement (.clerkSelfCheck k ok) := of_none _ rfl rfl

end Sys2Proof.Laws
end

