-- ==== Sys2Proof/Laws/Run.lean ====
section
/-! SUPPORT. How a command runs on a live device, and what retiring an instruction gives in the terms of Safety.lean. -/

namespace Sys2Proof.Machine

/-- A command whose change leaves no task and touches no fuse answers exactly that change. -/
theorem onAlways_calm (s : State) (f : Dev → Dev) (ht : (f s.dev).tasks = []) (hf : (f s.dev).fuse = s.dev.fuse) :
    s.onAlways f = .next ⟨s.pending, f s.dev⟩ := by
  rw [State.onAlways_next, Dev.settle_idle _ ht, ← hf]

theorem onDev_calm (s : State) (f : Dev → Dev) (hl : Live s) (ht : (f s.dev).tasks = []) (hf : (f s.dev).fuse = s.dev.fuse) :
    s.onDev f = .next ⟨s.pending, f s.dev⟩ := by
  rw [State.onDev_live s f hl.up]; exact onAlways_calm s f ht hf

theorem onLive_calm (s : State) (f : Dev → Dev) (hl : Awake s) (ht : (f s.dev).tasks = []) (hf : (f s.dev).fuse = s.dev.fuse) :
    s.onLive f = .next ⟨s.pending, f s.dev⟩ := by
  rw [State.onLive_live s f hl.up]; exact onAlways_calm s f ht hf

theorem onCore_calm (s : State) (c : CoreId) (f : Dev → Dev) (hl : Live s) (hc : s.dev.logical c = true) (ht : (f s.dev).tasks = [])
    (hf : (f s.dev).fuse = s.dev.fuse) : s.onCore c f = .next ⟨s.pending, f s.dev⟩ := by
  rw [State.onCore_live s c f hc hl.up]; exact onAlways_calm s f ht hf

/-- A live device is out of reset. -/
theorem Live.awake {s : State} (h : Live s) : Awake s := by
  refine ⟨?_, h.calm⟩
  have := h.up
  unfold Dev.dead at this
  cases hi : s.dev.inReset
  · rfl
  · rw [hi] at this; exact absurd this (by simp)

/-- A change of one core alone. -/
theorem onCore_setCore (s : State) (c : CoreId) (f : Dev → Dev) (k : Core) (hl : Live s) (hc : s.dev.logical c = true)
    (hf : f s.dev = s.dev.setCore c k) :
    s.onCore c f = .next ⟨s.pending, s.dev.setCore c k⟩ ∧ OnlyCore s ⟨s.pending, s.dev.setCore c k⟩ c
      ∧ (s.dev.setCore c k).core c = k := by
  refine ⟨?_, ⟨rfl, rfl, fun x hx => Dev.core_setCore_ne _ _ hx⟩, Dev.core_setCore_same ..⟩
  rw [onCore_calm s c f hl hc (by rw [hf]; exact hl.calm) (by rw [hf]; rfl), hf]

/-- What a core is after it retires an instruction that left it as `k`. -/
def Core.retired (k : Core) (cost : Nat) : Core := { k.spendIssue cost with pc := k.pc + 1, instret := k.instret + 1, wait := none }

theorem Core.retired_still (k : Core) (cost : Nat) : (k.retired cost).still = k.still := rfl
theorem Core.retired_stillGr (k : Core) (cost : Nat) : (k.retired cost).stillGr = k.stillGr := rfl
theorem Core.retired_gr (k : Core) (cost r : Nat) : (k.retired cost).gr r = k.gr r := rfl
theorem Core.retired_dr (k : Core) (cost r : Nat) : (k.retired cost).dr r = k.dr r := rfl
theorem Core.retired_cr (k : Core) (cost r : Nat) : (k.retired cost).cr r = k.cr r := rfl

/-- The register interlock moves the ck and their account alone. -/
theorem Core.interlock_still (k : Core) (gs ds : List Nat) : (k.interlock gs ds).still = k.still := rfl
theorem Core.interlock_gr (k : Core) (gs ds : List Nat) (r : Nat) : (k.interlock gs ds).gr r = k.gr r := rfl
theorem Core.interlock_dr (k : Core) (gs ds : List Nat) (r : Nat) : (k.interlock gs ds).dr r = k.dr r := rfl
theorem Core.interlock_cr (k : Core) (gs ds : List Nat) (r : Nat) : (k.interlock gs ds).cr r = k.cr r := rfl

/-- The account of a wait moves the wait, the ck and their account alone. -/
theorem Core.settleWait_still (k : Core) (w : Nat) : (k.settleWait w).still = k.still := by
  unfold Core.settleWait; split <;> first | (split <;> simp [Core.still, Core.unitWait]) | rfl
theorem Core.settleWait_gr (k : Core) (w r : Nat) : (k.settleWait w).gr r = k.gr r := by
  unfold Core.gr; rw [Core.settleWait_g]
theorem Core.settleWait_dr (k : Core) (w r : Nat) : (k.settleWait w).dr r = k.dr r := by
  unfold Core.dr; rw [Core.settleWait_d]

/-- A register write leaves the rest of the core. -/
theorem Core.setGr_stillGr (k : Core) (r : Nat) (v : BitVec 64) (lat : Nat) : (k.setGr r v lat).stillGr = k.stillGr := by
  unfold Core.setGr; split <;> rfl

/-- An instruction that writes `rd` and retires. -/
theorem writes_gr (k k1 : Core) (rd lat cost : Nat) (v : BitVec 64) (hs : k1.stillGr = k.stillGr) (hg : ∀ r, k1.gr r = k.gr r)
    (hp : k1.pc = k.pc) (hi : k1.instret = k.instret) :
    WritesGr k ((k1.setGr rd v lat).retired cost) rd v (k.pc + 1) := by
  refine ⟨⟨?_, ?_, rfl⟩, fun r => ?_, ?_⟩
  · simp [Core.retired, hp]
  · simp [Core.retired, hi]
  · rw [Core.retired_gr, Core.gr_setGr, hg]
  · rw [Core.retired_stillGr, Core.setGr_stillGr, hs]

/-- A fault of the instruction at the pc, with its REPORT. -/
theorem stops_with (s : State) (c : CoreId) (k : Core) (e : CoreFault) (hs : k.still = (s.dev.core c).still) (hp : k.pc = (s.dev.core c).pc)
    (hi : k.instret = (s.dev.core c).instret) :
    StopsWith s ⟨s.pending, s.dev.fault c k e⟩ c e.1.code e.2 := by
  have hr : (⟨s.pending, s.dev.fault c k e⟩ : State).dev.core c = k.faulted k.pc e := (Dev.fault_core s.dev c k e).1
  refine ⟨⟨?_, ?_, ?_, ?_, ?_⟩, (k.faulted k.pc e).report c (k.faulted k.pc e).fault.toBits, ⟨rfl, rfl, ?_, rfl⟩, rfl, ?_, ?_, rfl, ?_⟩
  · rw [hr]; rfl
  · rw [hr, ← hp]; rfl
  · rw [hr, ← hs]
    have : k.run = (s.dev.core c).run := show k.still.run = (s.dev.core c).still.run by rw [hs]
    have h2 : k.fault = (s.dev.core c).fault := show k.still.fault = (s.dev.core c).still.fault by rw [hs]
    rw [← this, ← h2]; rfl
  · rw [hr, ← hp]; rfl
  · rw [hr, ← hi]; rfl
  · exact fun x hx => Dev.core_setCore_ne _ _ hx
  · simp [Core.report, Core.packet]
  · simp [Core.report, Core.packet]
  · rw [← hp]; simp [Core.report, Core.packet, CsrFault.toBits, Core.faulted, BitVec.toNat_ofNat]

end Sys2Proof.Machine
end

