-- ==== Sys2Proof/Tests/Slice0.lean ====
section
/-! SUPPORT. Tests: what WellFormed refuses, what single commands do on small states, and states that meet the hypotheses of the statements. -/

namespace Sys2Proof.Tests
open Sys2Proof Sys2Proof.Machine
set_option Elab.async false

/-- The core at (0, 0). -/
def c0 : CoreId := ⟨0, 0⟩

/-- The machine after reset, with its device changed. -/
def dev (f : Dev → Dev) : State := ⟨[], f Dev.reset⟩

/-- The machine after reset with core (0, 0) running and changed. -/
def core (f : Core → Core) : State := dev (fun d => d.upd c0 (fun k => f { k with run := .run }))

/-- The state after a command that goes on. -/
def after (i : Instr) (s : State) : State := match exec i s with | .next t => t | _ => s

/-- What holds after a command that goes on. -/
def holds (i : Instr) (s : State) (p : Dev → Bool) : Bool := match exec i s with | .next t => p t.dev | _ => false

/-- A descriptor register: first byte, format, columns, rows, 64-byte rows from one tensor row to the next (R27). -/
def tile (base fmt cols rows stride : Nat) : BitVec 128 :=
  BitVec.ofNat 128 (base + fmt * 2 ^ 24 + cols * 2 ^ 32 + rows * 2 ^ 48 + stride * 2 ^ 64)

/-- The field part of an instruction with registers at [25:21], [20:16] and the low bits `x`. -/
def word (a b x : Nat) : BitVec 26 := BitVec.ofNat 26 (a * 2 ^ 21 + b * 2 ^ 16 + x)

/-- The field part of a tensor instruction: dD, dA, dB at [25:22], [21:18], [17:14]. -/
def word3 (a b d x : Nat) : BitVec 26 := BitVec.ofNat 26 (a * 2 ^ 22 + b * 2 ^ 18 + d * 2 ^ 14 + x)

/-- The conditions Live and Ready as truth values. -/
def live (s : State) : Bool := !s.dev.dead && s.dev.tasks.isEmpty
def ready (s : State) (c : CoreId) (op : Nat) (f : BitVec 26) : Bool := live s && s.dev.logical c && (s.dev.core c).takes (wordOf op f)

theorem live_of {s : State} (h : live s = true) : Live s := by
  simp only [live, Bool.and_eq_true, Bool.not_eq_true', List.isEmpty_iff] at h
  exact ⟨h.1, h.2⟩

theorem ready_of {s : State} {c : CoreId} {op : Nat} {f : BitVec 26} (h : ready s c op f = true) : Ready s c op f := by
  simp only [ready, Bool.and_eq_true] at h
  exact ⟨live_of h.1.1, h.1.2, h.2⟩

/-! Instructions of a core. -/

/-- A running core with g1 = 5, g2 = -7, g3 = 0x40040, g4 = 0x80000, at index 4,094. -/
def scalar : State := core (fun k => { k with g := [(1, 5), (2, 0xFFFFFFFFFFFFFFF9), (3, 0x40040), (4, 0x80000)], pc := 4094 })

theorem ready_scalar (op : Nat) (f : BitVec 26) : Ready scalar c0 op f := ⟨⟨rfl, rfl⟩, rfl, rfl⟩

theorem test_alu : holds (.alu c0 (word 5 1 (2 * 2 ^ 11 + 0x001)) ) scalar (fun d => (d.core c0).gr 5 == 12) = true ∧
    holds (.alu c0 (word 5 2 (1 * 2 ^ 11 + 0x008))) scalar (fun d => (d.core c0).gr 5 == 1) = true ∧
    holds (.alu c0 (word 5 2 (1 * 2 ^ 11 + 0x011))) scalar (fun d => (d.core c0).gr 5 == 0xFFFFFFFFFFFFFFFF) = true ∧
    holds (.alu c0 (word 5 2 (1 * 2 ^ 11 + 0x012))) scalar (fun d => (d.core c0).gr 5 == 4) = true := by decide

theorem witness_AluResults : (scalar.dev.core c0).pc < 4095 ∧
    ∀ n ∈ [0x000, 0x012], ∃ p ∈ aluTable ((scalar.dev.core c0).gr 1) ((scalar.dev.core c0).gr 2), fld (word 5 1 (2 * 2 ^ 11 + n)) 0 11 = p.1 := by
  decide

theorem witness_ImmediateResults : (scalar.dev.core c0).pc < 4095 ∧
    (immTable c0 (word 5 1 0xFFFF) 5).all (fun p => p.2.2.1 || p.2.1 == 5 || p.2.1 == 6) = true ∧
    [(4, 63), (5, 64 + 63), (6, 128)].all (fun n => ((immTable c0 (word 5 1 n.2) 5).map (fun p => p.2.2.1)).getD n.1 false) = true ∧
    ((immTable c0 (word 5 0 0xFFFF) 5).map (fun p => p.2.2.1)).getD 7 false = true := by decide

/-- For each row of `illegalTable` a field part that is ILLEGAL. -/
def illegal : List Nat :=
  [0x013, 0x0C0, 0x10000, 0x200000, 0x200000, 0x6, 0x1, 0x1, 0x80, 0xFFF, 0x1, 0x1, 0x20000, 0x1, 0x4000, 0x7FFF, 0x10, 0x10000, 0x1, 0x1000,
    0xF000, 0x3FF0000]

theorem witness_IllegalWordsStop : (List.range 22).all (fun i =>
    ((illegalTable c0 (BitVec.ofNat 26 (illegal.getD i 0)) 0).map (fun p => p.2.2)).getD i false) = true := by decide

/-- The running core at index 1, where a branch back can leave the program. -/
def early : State := core (fun k => { k with g := [(1, 5), (2, 4096)], pc := 1 })

theorem ready_early (op : Nat) (f : BitVec 26) : Ready early c0 op f := ⟨⟨rfl, rfl⟩, rfl, rfl⟩

theorem witness_BranchesGo :
    ((branchTable c0 (word 1 2 0xFFFF) 5 4096).map (fun p => p.2.2)) = [false, true, true, false, true, false] ∧
    (1 : Int) + ((word 1 2 0xFFFF).setWidth 16).toInt = (0 : Nat) ∧ (1 : Int) + ((word 1 2 0xFFFE).setWidth 16).toInt < 0 ∧
    (1 : Int) + ((word 1 2 4094).setWidth 16).toInt = (4095 : Nat) ∧ 4096 ≤ (1 : Int) + ((word 1 2 4095).setWidth 16).toInt := by decide

theorem test_branch : holds (.bne c0 (word 1 2 0xFFFF)) early (fun d => (d.core c0).pc == 0) = true ∧
    holds (.bltu c0 (word 2 1 4095)) early (fun d => (d.core c0).pc == 2) = true ∧
    holds (.blt c0 (word 1 2 4095)) early (fun d => (d.core c0).fault == ⟨8, 1, 4096⟩) = true := by decide

theorem witness_JumpsLink : (jumpTable c0 (word 7 2 0xFFFF) (early.dev.core c0)).map (fun p => p.2.2) = [196608, 4095] ∧
    (jumpTable c0 (word 7 2 0) (early.dev.core c0)).map (fun p => p.2.2) = [131073, 4096] ∧
    (jumpTable c0 (word 7 0x1F 0xFFFF) (early.dev.core c0)).map (fun p => p.2.2) = [0, 18446744073709551615] ∧
    (jumpTable c0 (word 7 0x1F 0xFFFE) (early.dev.core c0)).map (fun p => p.2.2) = [-1, 18446744073709551614] := by decide

/-- A running core with bytes at the end of AM and of its last stock tier; its mask lets no stock tier in. -/
def loads : State := core (fun k => { k with
  g := [(1, 0x5FFF8), (2, 0x93FFFF)], mem := [(0x5FFF8, 0x81), (0x5FFF9, 0x92), (0x5FFFF, 0xF0)], pc := 4094 })

theorem ready_loads (op : Nat) (f : BitVec 26) : Ready loads c0 op f := ⟨⟨rfl, rfl⟩, rfl, rfl⟩

/-- The region of an address that has one. -/
theorem region_some {a : Nat} {x : Nat × Nat × Nat} (h : regionOf a = some x) (p : Bool) (q : p = true → x.1 ≠ 3) :
    ∃ r lo size, regionOf a = some (r, lo, size) ∧ (p = true → r ≠ 3) := ⟨x.1, x.2.1, x.2.2, h, q⟩

theorem witness_LoadsRead : accessOk (loads.dev.core c0) 0x5FFF8 8 false ∧ accessOk (loads.dev.core c0) 0x5FFFF 1 false ∧
    accessOk (loads.dev.core c0) 0x93FFFF 1 false ∧ accessOk (loads.dev.core c0) 0x5FFF0 16 false ∧
    (loads.dev.core c0).rowPoisoned 0x5FFF8 = false ∧ (loads.dev.core c0).storePending 0x93FFFF = false ∧ (loads.dev.core c0).addrOff 0x93FFFF = true :=
  ⟨⟨rfl, region_some rfl _ nofun, rfl⟩, ⟨rfl, region_some rfl _ nofun, rfl⟩, ⟨rfl, region_some rfl _ nofun, rfl⟩,
    ⟨rfl, region_some rfl _ nofun, rfl⟩, rfl, rfl, rfl⟩

theorem test_loads : holds (.ld c0 (word 5 1 0) 0) loads (fun d => (d.core c0).gr 5 == 0xF000000000009281) = true ∧
    holds (.lb c0 (word 5 1 7) 0) loads (fun d => (d.core c0).gr 5 == 0xFFFFFFFFFFFFFFF0) = true ∧
    holds (.lhu c0 (word 5 1 0) 0) loads (fun d => (d.core c0).gr 5 == 0x9281) = true ∧
    holds (.lw c0 (word 5 1 2) 0) loads (fun d => (d.core c0).fault.code == 3) = true := by decide

/-- The core after a store of d1's 16 bytes at the start of PM. -/
def stored : State := after (.dst c0 (BitVec.ofNat 26 (1 * 2 ^ 22 + 4 * 2 ^ 16)) 0)
  (core (fun k => { k with g := [(4, 0x80000)], d := [(1, 0x11 * 2 ^ 120 + 0x22)], mem := [(0x7FFFF, 1), (0x80000, 7), (0x80010, 9)] }))

theorem witness_Stores : accessOk (scalar.dev.core c0) 0x80000 16 true ∧ accessOk (scalar.dev.core c0) 0x80007 1 true ∧
    (storeTable c0 (word 2 4 0) 0 (scalar.dev.core c0)).all (fun p => p.2.2.1) = true ∧ (scalar.dev.core c0).pc < 4095 :=
  ⟨⟨rfl, region_some rfl _ nofun, rfl⟩, ⟨rfl, region_some rfl _ nofun, rfl⟩, rfl, by decide⟩

theorem witness_StoreRetires : live stored = true ∧ (stored.dev.core c0).stores = [⟨0x80000, 16, 0x11 * 2 ^ 120 + 0x22⟩] ∧
    (stored.dev.core c0).addrOff 0x80000 = false := by decide +kernel

theorem test_store : holds (.storeRetire c0) stored (fun d => (d.core c0).mem == [(0x7FFFF, 1), (0x80000, 0x22), (0x8000F, 0x11), (0x80010, 9)])
    = true := by decide +kernel

theorem witness_Dset : (scalar.dev.core c0).pc < 4095 ∧ (List.range 6).all (fun n => fld (word 2 1 n) 0 16 == n && fld (word 2 1 n) 21 1 == 0) = true := by
  decide

/-- A core whose counter 63 stands at 2^31 - 1 and counter 1 is poisoned. -/
def counters : State := core (fun k => { k with
  g := [(1, 0xFFFFFFFFF), (2, 0xFFFFFFFF)], c := [(63, 0x7FFFFFFF)], cPoison := [(1, some 1)], pc := 4094 })

theorem ready_counters (op : Nat) (f : BitVec 26) : Ready counters c0 op f := ⟨⟨rfl, rfl⟩, rfl, rfl⟩

theorem witness_Counters : fld (BitVec.ofNat 26 (63 * 2 ^ 20 + 1 * 2 ^ 15)) 0 15 = 0 ∧
    Tab.get (fun _ => (none : CtrPoison)) (counters.dev.core c0).cPoison 63 = none ∧
    (((counters.dev.core c0).cr 63 - 0).toNat < 2 ^ 31) ∧ ¬(((counters.dev.core c0).cr 63 - 0xFFFFFFFF).toNat < 2 ^ 31) := by decide

/-- Counter 63 waited for: at target 0x80000000 by WAITCR, and the counter has reached it. -/
def waiting : State := dev (fun d => d.upd c0 (fun k => { k with
  run := .run, c := [(63, 0xFFFFFFFF)], wait := some ⟨wordOf 0x35 0, .counter 63 0x80000000, 3⟩, pc := 4094 }))

theorem witness_CounterWait : Live waiting ∧ (waiting.dev.core c0).run = .run ∧
    ((waiting.dev.core c0).cr (63 : BitVec 6).toNat - 0x80000000).toNat < 2 ^ 31 := ⟨⟨rfl, rfl⟩, rfl, by decide⟩

theorem witness_Csrs : (csrTable scalar.dev c0 (scalar.dev.core c0)).length = 18 ∧ 0x017 < fld (word 5 0 0x018) 0 12 ∧
    0x00A < fld (word 5 0 0x010) 0 12 ∧ fld (word 0 1 5) 0 12 = 5 ∧ (((scalar.dev.core c0).gr 1).setWidth 3).toNat = 5 ∧
    (((scalar.dev.core c0).gr 2).setWidth 3).toNat = 1 := by decide

theorem witness_Ranks : rankGt 0x3F00 0 = true ∧ rankGt 0x4000 0 = false ∧ rankGt 0x0101 0x0100 = true ∧ rankGt 0 0xFF05 = true ∧
    fld (word 0 0 0x3F00) 16 10 = 0 := by decide

/-! Channels, errands and tensor units of a core. -/

/-- Fields of the core's window, one after the other. -/
def fields (l : List (Fld × Nat)) (k : Core) : Core := l.foldl (fun k p => k.put p.1 p.2) k

/-- Send endpoint 31 of stage 2, slot 255, slot step 1, one credit, and a 2 x 16 FP32 tensor in d1. -/
def sender (more : List (Fld × Nat)) : State := core (fun k => fields ([(CORE_EP_valid 31, 1), (CORE_EP_stage 31, 2), (CORE_EP_slot 31, 255),
  (CORE_EP_sstep 31, 1), (CORE_EP_credits 31, 1), (CORE_EP_cap_rows 31, 2), (CORE_EP_dst 31, 4), (CORE_EP_tag 31, 9)] ++ more)
  { k with d := [(1, tile 0x40000 0 16 2 1)], rank := 0xFF01, mem := [(0x40000, 1), (0x40040, 2)], pc := 7 })

/-- SEND of endpoint 31 and d1 into g5. -/
def sendF : BitVec 26 := BitVec.ofNat 26 (31 * 2 ^ 21 + 1 * 2 ^ 17 + 5 * 2 ^ 12)

theorem witness_SendHandsOver :
    [[], [(CORE_EP_gone 31, 1)], [(CORE_EP_credits 31, 0)]].all (fun m => ready (sender m) c0 0x30 sendF
      && ((sender m).dev.core c0).sendFault 31 1 == none) = true ∧
    (sendRows ((sender []).dev.core c0) c0 31 (Desc.ofBits (tile 0x40000 0 16 2 1))).length = 3 := by decide +kernel

theorem test_send : holds (.send c0 sendF 0) (sender []) (fun d => (d.core c0).inj.length == 3 && (d.core c0).get (CORE_EP_slot 31) == 0
    && (d.core c0).get (CORE_EP_credits 31) == 0) = true ∧
    holds (.send c0 sendF 0) (sender [(CORE_EP_gone 31, 1)]) (fun d => (d.core c0).gr 5 == 9 && (d.core c0).inj.isEmpty) = true := by decide +kernel

/-- A core at index 7 whose booking entry of cause LINK_LATE books 50 ck there, with a lag of `lag`. -/
def booked (lag : Nat) : State := core (fun k => fields [(CORE_BOOK_cause 3, 7), (CORE_BOOK_pc 3, 7), (CORE_BOOK_booked 3, 50)]
  { k with pc := 7, c := [(63, 9)], acct := { k.acct with lag := lag } })

theorem witness_WaitRetires : Ready (booked 49) c0 0x34 (BitVec.ofNat 26 (63 * 2 ^ 20 + 9)) ∧ ((booked 49).dev.core c0).wait = none ∧
    ((booked 49).dev.core c0).booking 7 = some (7, 0, false, 50) ∧ ((booked 49).dev.core c0).waitMisses 0 = true ∧
    ((booked 50).dev.core c0).waitMisses 0 = false := ⟨⟨⟨rfl, rfl⟩, rfl, rfl⟩, rfl, by decide +kernel, by decide +kernel, by decide +kernel⟩

theorem test_acct_miss : holds (.waitc c0 (BitVec.ofNat 26 (63 * 2 ^ 20 + 9))) (booked 49) (fun d => (d.core c0).pc == 8 &&
    (d.core c0).acct.miss && (d.core c0).acct.lag == 0 && (d.core c0).acct.recovered == 49) = true ∧
    holds (.waitc c0 (BitVec.ofNat 26 (63 * 2 ^ 20 + 9))) (booked 50) (fun d => (d.core c0).acct.miss == false &&
    (d.core c0).acct.recovered == 50 && d.get ERR_STAT_seq == 0) = true := by decide +kernel

/-- Receive endpoint 0 with `held` messages of 3 rows in a queue of 2; the head holds 16 elements of FP32 in one row. -/
def receiver (held : Nat) : State := core (fun k => fields [(CORE_EP_valid 0, 1), (CORE_EP_dir 0, 1), (CORE_EP_stage 0, 3), (CORE_EP_slot 0, 254),
  (CORE_EP_sstep 0, 2), (CORE_EP_qdepth 0, 1), (CORE_EP_entry_rows 0, 3), (CORE_EP_qbase 0, 2), (CORE_EP_held 0, held), (CORE_EP_peer_x 0, 5)]
  { k with ep := [(0, ⟨0, [], held != 0, 0, 1⟩)], mem := [(0x40148, 1), (0x4014A, 16), (0x40150, 16)] })

theorem witness_ReceiveReturns : ((receiver 2).dev.core c0).isRecv 0 = true ∧ ((receiver 2).dev.core c0).get (CORE_EP_held 0) ≠ 0 ∧
    ((receiver 0).dev.core c0).isRecv 0 = true ∧ ((receiver 0).dev.core c0).get (CORE_EP_held 0) = 0 ∧
    (((receiver 2).dev.core c0).epRun 0).headGiven = true ∧
    ((receiver 2).dev.core c0).holds [(((receiver 2).dev.core c0).entryBase 0 1, 192)] = false ∧
    ready (receiver 2) c0 0x32 0 = true ∧ ready (receiver 0) c0 0x31 0 = true := by decide +kernel

theorem test_recv : holds (.recv c0 (BitVec.ofNat 26 (1 * 2 ^ 17 + 5 * 2 ^ 12)) 0) (receiver 2) (fun d => (d.core c0).gr 5 == 16
    && (d.core c0).dr 1 == tile 0x40180 0 16 1 1 && (d.core c0).rank == 0xFE03) = true ∧
    holds (.rrel c0 0 0) (receiver 2) (fun d => (d.core c0).get (CORE_EP_slot 0) == 0 && (d.core c0).get (CORE_EP_held 0) == 1
      && d.flight.map (fun p => (p.type, p.dstX)) == [(0x01, 5)]) = true := by decide +kernel

/-- A core with a packet in its injection queue, a descriptor at the end of AM, and PREQ and ERRINC targets: Porter 47, core (0, 0), the epoch. -/
def errands : State := dev (fun d => ((d.put MESH_EPOCH_CTL_owner_valid 1).put MESH_EPOCH_CTL_owner_job 3).upd c0 (fun k => { k with
  run := .run, job := 3, image := ⟨true, 0, [], [], []⟩, g := [(1, 47), (2, 0x5FFE0), (4, 0xFEFE)], mem := [(0x5FFE0, 0xAB)],
  errand := [k.packet c0 0x01 1 1 0 0 1 0 []], pc := 9 }))

theorem ready_errands (op : Nat) (f : BitVec 26) : Ready errands c0 op f := ⟨⟨rfl, rfl⟩, rfl, rfl⟩

theorem witness_ErrandRequestsQueue : (errands.dev.core c0).errand.length < 8 ∧ ((errands.dev.core c0).gr 1).toNat / 8 < 6 ∧
    ((errands.dev.core c0).gr 2).toNat % 32 = 0 ∧ ((errands.dev.core c0).gr 2).toNat < 0x60000 ∧
    errands.dev.inJob (errands.dev.core c0) ⟨0, 0⟩ = true ∧ ((errands.dev.core c0).gr 4).toNat = 0xFEFE ∧ errands.dev.ownsEpoch 3 0 = true ∧
    bit 8 3 = true ∧ (errands.dev.core c0).errand ≠ [] ∧ (errands.dev.core c0).tmm = [] := by decide +kernel

theorem test_preq : holds (.preq c0 (word 1 2 0) 0) errands (fun d => (d.core c0).errand.map (fun p => (p.type, p.dstX.toNat, p.dstSub.toNat,
    p.payload.length)) == [(1, 1, 0, 0), (4, 84, 5, 2)]) = true ∧
    holds (.errinc c0 (word 0 0 0) 0) errands (fun d => (d.core c0).errand.map (fun p => p.type) == [1, 3]) = true := by decide +kernel

theorem witness_HaltEndsTheProgram : ready (receiver 2) c0 0x3F 0xFFFF = true ∧ ((receiver 2).dev.core c0).stores = [] ∧ fld 0xFFFF 16 10 = 0 ∧
    ready stored c0 0x3F 0 = true ∧ (stored.dev.core c0).stores ≠ [] := by decide +kernel

theorem test_halt : holds (.halt c0 0xFFFF 0) (receiver 2) (fun d => (d.core c0).run == .halted && (d.core c0).exit == 0xFFFF
    && d.flight.map (fun p => p.type) == [0x02, 0x07]) = true := by decide +kernel

/-- A core at the last index. -/
def last : State := core (fun k => { k with pc := 4095, rank := 0xFF07, c := [(63, 9)] })

theorem witness_NoFetchPast4095 : Ready last c0 0x3B 0 ∧ Ready last c0 0x37 (BitVec.ofNat 26 (63 * 2 ^ 20 + 1 * 2 ^ 15)) ∧
    (last.dev.core c0).pc = 4095 := ⟨⟨⟨rfl, rfl⟩, rfl, rfl⟩, ⟨⟨rfl, rfl⟩, rfl, rfl⟩, rfl⟩

/-- A core with tensors: d1 1 x 16 FP32 in PM, d2 1 x 16 and d3 1 x 16 FP32 in AM, d4 a U16 index, d5 an unknown format. -/
def tensors : State := core (fun k => { k with
  d := [(1, tile 0x80000 0 16 1 1), (2, tile 0x40000 0 16 1 1), (3, tile 0x40040 0 16 1 1), (4, tile 0x40080 14 1 1 1), (5, tile 0x40000 31 16 1 1)],
  mem := [(0x40003, 0x40), (0x40043, 0x40), (0x80003, 0x3F), (0x80002, 0x80), (0x80043, 0x41)], lfsr := 1 })

theorem ready_tensors (op : Nat) (f : BitVec 26) : Ready tensors c0 op f := ⟨⟨rfl, rfl⟩, rfl, rfl⟩

/-- TCVT d1 := d2, TSCAT d1 := d2 at d4, with counter 9. -/
def tcvtF : BitVec 26 := word3 1 2 0 (9 * 2 ^ 8)
def tscatF : BitVec 26 := word3 1 2 4 (9 * 2 ^ 8)

theorem witness_TensorIssues : ((tensorTable c0 tcvtF 0 (tensors.dev.core c0)).map (fun p => p.2.2.2)).getD 1 (false, none) = (true, none) ∧
    ((tensorTable c0 tscatF 0 (tensors.dev.core c0)).map (fun p => p.2.2.2)).getD 2 (false, none) = (true, none) ∧
    ((tensorTable c0 (word3 1 5 0 0) 0 (tensors.dev.core c0)).map (fun p => p.2.2.2)).getD 1 (false, none) = (true, some (.fmt, 5 + 31 * 2 ^ 8)) ∧
    unitConflict ((tensors.dev.core c0).tensorOp .tcvt tcvtF) [] = false := by decide +kernel

/-- One operation at the head of the mover. -/
def moving : State := after (.tcvt c0 tcvtF 0) tensors

theorem witness_TensorCompletes : live moving = true ∧ (moving.dev.core c0).mov.length = 1 ∧
    (moving.dev.core c0).mov.all (fun o => o.kind == .tcvt && decide (o.rowsD ≤ (Desc.ofBits o.dD).rows)
      && !((moving.dev.core c0).addrOff (Desc.ofBits o.dD).base)) = true := by decide +kernel

/-- No tier of stock is in the mask: a DST, a TCVT and a VOP into stock, issued. -/
def offCore : State := core (fun k => { k with g := [(4, 0x400000)], d := [(1, tile 0x400000 0 16 1 1), (2, tile 0x40000 0 16 1 1)] })
def offStored : State := after (.dst c0 (BitVec.ofNat 26 (1 * 2 ^ 22 + 4 * 2 ^ 16)) 0) offCore
def offMoving : State := after (.tcvt c0 tcvtF 0) offCore
def offVop : State := after (.vop c0 (word3 1 2 2 0) 0) offCore

theorem off_span : ∀ i < 64, (offMoving.dev.core c0).addrOff (0x400000 + i) = true ∧ (offVop.dev.core c0).addrOff (0x400000 + i) = true := by
  decide +kernel

theorem witness_WritesOffMask : live offStored = true ∧ (offStored.dev.core c0).stores.map (fun x => x.addr) = [0x400000] ∧
    (offStored.dev.core c0).addrOff 0x400000 = true ∧ live offMoving = true ∧
    (offMoving.dev.core c0).mov.map (fun o => (o.kind, o.rowsD, (Desc.ofBits o.dD).spans)) = [(.tcvt, 1, [(0x400000, 64)])] ∧
    live offVop = true ∧ (offVop.dev.core c0).vop.map (fun o => (o.rowsD, (Desc.ofBits o.dD).spans)) = some (1, [(0x400000, 64)]) := by decide +kernel

theorem test_off_mask : [(Instr.storeRetire c0, offStored), (.tcvtComplete c0, offMoving), (.vopComplete c0, offVop)].all (fun p => holds p.1 p.2 (fun d =>
    (d.core c0).get CORE_MEM_STAT_offmask_wr == 1 && d.get ERR_STAT_seq == 1)) = true := by decide +kernel

theorem test_tcvt : holds (.tcvtComplete c0) moving (fun d => Memory.readN (d.core c0).mem 0x80000 4 == 0x40000000 && (d.core c0).cr 9 == 1
    && Memory.readN (d.core c0).mem 0x80040 4 == 0x41000000 && (d.core c0).mov.isEmpty) = true := by decide +kernel

/-- A TSCAT at the head of the mover, and its path running. -/
def scatters : State := after (.tscat c0 tscatF 0) tensors
def scattering : State := after (.scatterRowAdd c0 true) scatters

theorem witness_ScatterAddsRows : live scatters = true ∧ (scatters.dev.core c0).scat.active = false ∧
    (scatters.dev.core c0).mov.map (fun o => o.kind) = [.tscat] ∧ live scattering = true ∧
    (scattering.dev.core c0).scat.active = true := by decide +kernel

/-- VOP 0 (addition) of d2 and d3 into d1, and its state when it has started. -/
def vopF : BitVec 26 := word3 1 2 3 0
def vopping : State := after (.vop c0 vopF 0) tensors

theorem witness_VopRunsThenRetires : (vopValid 0 && fld vopF 0 7 == 0) = true ∧ (vopValid 0x0B) = false ∧
    (tensors.dev.core c0).vopFault 1 2 3 0 false = none ∧ (tensors.dev.core c0).vopFault 1 5 3 0 false = some (.fmt, 5 + 31 * 2 ^ 8) ∧
    live vopping = true ∧ (vopping.dev.core c0).vop.isSome = true ∧
    (vopping.dev.core c0).vop.all (fun o => decide (o.rowsD ≤ 1) && !((vopping.dev.core c0).addrOff (Desc.ofBits o.dD).base)) = true := by decide +kernel

theorem test_vop : holds (.vopComplete c0) vopping (fun d => Memory.readN (d.core c0).mem 0x80000 4 == 0x40800000 && (d.core c0).pc == 1
    && Memory.readN (d.core c0).mem 0x80040 4 == 0x41000000) = true := by decide +kernel

/-! Rows, tally queues, packets, routers, epochs, check engines and patrols. -/

/-- A row whose bytes are the numbers given as (first byte, value). -/
def rowOf (l : List (Nat × Nat)) : RowData := BitVec.ofNat 512 (l.foldl (fun n p => n + p.2 * 2 ^ (8 * p.1)) 0)

/-- Core (0, 0) with a Porter group open under tag 1 (rows to AM, two a run, stride 3), a message under tag 2 of endpoint 0, a row waiting for AM
and a Porter read of PM. -/
def rows : State := core (fun k => fields [(CORE_EP_valid 0, 1), (CORE_EP_dir 0, 1), (CORE_EP_entry_rows 0, 2), (CORE_EP_qdepth 0, 1),
  (CORE_EP_gen 0, 7), (CORE_EP_rx_index 0, 1)]
  { k with groups := [(1, some { Group.ofHeader .porter (rowOf [(4, 0x00000), (8, 2), (12, 3)]) with seen := 2 }),
                      (2, some { Group.ofHeader (.message 0 1) 0 with seen := 1, poison := true })],
           remote := [(1, [.write 0x40000 5 false 9]), (2, [.read 0x80000 3 true 4 none])], mem := [(0x80000, 0x42)] })

/-- A data row of a group. -/
def dataRow (tag : BitVec 8) (last : Bool) : Row := ⟨0x77, false, last, false, tag⟩

theorem witness_RowsReachMemory : live rows = true ∧ ((rows.dev.core c0).group 1).map (fun g => (g.kind, porterAddr g.header g.seen)) = some (.porter, 0xC0) ∧
    ((rows.dev.core c0).group 2).map (fun g => (g.kind, g.seen)) = some (.message 0 1, 1) ∧ (rows.dev.core c0).get (CORE_EP_entry_rows 0) = 2 ∧
    (rows.dev.core c0).addrOff 0xC0 = false ∧ (rows.dev.core c0).queue (addrPort 0xC0) = [] ∧
    ((rows.dev.core c0).queue (addrPort 0x400C0)).length = 1 ∧ (rows.dev.core c0).queue 2 = [.read 0x80000 3 true 4 none] ∧
    (rows.dev.core c0).inj.length < 64 := by decide +kernel

theorem test_rows : holds (.rowArrival c0 (dataRow 1 true) true) rows (fun d => Memory.readN (d.core c0).mem 0xC0 64 == 0x77 && (d.core c0).group 1 == none) = true ∧
    holds (.rowArrival c0 (dataRow 2 false) true) rows (fun d => ((d.core c0).queue 1).length == 2) = true ∧
    holds (.remoteQueueRetire c0 1) rows (fun d => Memory.readN (d.core c0).mem 0x40000 64 == 5) = true := by decide +kernel

/-- The header row of a message for endpoint 0 of generation 7 from endpoint 4 of core (2, 3). -/
def headerRow (last : Bool) : Row := ⟨rowOf [(0, 1), (1, 0), (2, 7), (4, 2), (5, 3), (6, 4)], true, last, false, 5⟩

theorem witness_MessagesOpenAndClose : (rows.dev.core c0).group 5 = none ∧ (rows.dev.core c0).isRecv 0 = true ∧ (rows.dev.core c0).shut = false ∧
    rowBytes (headerRow true).data 2 1 = (rows.dev.core c0).get (CORE_EP_gen 0) ∧
    (((rows.dev.core c0).put (CORE_EP_closed 0) 1).get (CORE_EP_closed 0)) = 1 := by decide +kernel

/-- Rows with endpoint 0 closed. -/
def closedRows : State := ⟨[], rows.dev.upd c0 (fun k => k.put (CORE_EP_closed 0) 1)⟩

theorem test_absorb : holds (.rowArrival c0 (headerRow true) true) closedRows (fun d => (d.core c0).get CORE_CHAN_STAT_absorbed == 1
    && d.flight.map (fun p => (p.type, p.dstX, p.dstY, p.inl.toNat)) == [(2, 2, 3, 4 + 1 * 2 ^ 5 + 7 * 2 ^ 8 + 2 * 2 ^ 16)]) = true := by decide +kernel

/-- Tally queue 1: 1 x 2 FP32 below 2^2 into PM row 4, out by endpoint 0, slot 5, deadline 100 from ck 10, a held header of slot `slot` and its queued row. -/
def tally (slot : Nat) (more : List (Fld × Nat)) : State := core (fun k => fields ([(CORE_TQ_valid 1, 1), (CORE_TQ_pm_base 1, 4), (CORE_TQ_rows 1, 1),
  (CORE_TQ_cols 1, 2), (CORE_TQ_expect 1, 2), (CORE_TQ_quorum 1, 1), (CORE_TQ_deadline 1, 100), (CORE_TQ_slot 1, 5), (CORE_TQ_sstep 1, 3), (CORE_TQ_gen 1, 7),
  (CORE_EP_valid 0, 1), (CORE_EP_dir 0, 1), (CORE_EP_entry_rows 0, 2), (CORE_TQ_x1 1, 1), (CORE_TQ_ceil 1, 129)] ++ more)
  { k with tq := [(1, ⟨10, false, false, [⟨rowOf [(0, 2), (1, 1), (2, 7), (3, slot), (8, 1), (10, 2), (12, 0)], 3, false⟩], false⟩)],
           groups := [(3, some { Group.ofHeader (.tally 1) (rowOf [(0, 2), (1, 1), (2, 7), (3, slot), (8, 1), (10, 2), (12, 0)]) with queued := 1, closedIn := true })],
           remote := [(2, [.contrib 1 0 (rowOf [(0, 0x3F800000), (4, 0x40000000)]) false 3 0])] })

/-- The queue after its header has been classified, and after its row add; then with its count at 2 and closed. -/
def counted : State := after (.tallyHeaderClassify c0 1 20) (tally 5 [])
def added : State := after (.tallyRowAdd c0) counted
def full : State := ⟨[], added.dev.upd c0 (fun k => (k.put (CORE_TQ_count 1) 2).put (CORE_TQ_closed 1) 1)⟩
def releasing : State := after (.tallyRelease c0 1) full

theorem witness_TallyClassifiesAndAdds : live (tally 5 []) = true ∧ live (tally 198 []) = true ∧ (5 + 256 - 198) % 256 = 63 ∧
    (((tally 5 []).dev.core c0).tqRun 1).held.length = 1 ∧ (((tally 5 []).dev.core c0).tqRun 1).releasing = false ∧ live counted = true ∧
    (counted.dev.core c0).unclassified 1 3 = false ∧ ((counted.dev.core c0).queue 2).length = 1 ∧ ((counted.dev.core c0).group 3).isSome = true ∧
    (counted.dev.core c0).get (CORE_TQ_armed 1) = 1 ∧ (counted.dev.core c0).get (CORE_TQ_count 1) = 1 := by decide +kernel

theorem test_tally : holds (.tallyHeaderClassify c0 1 20) (tally 198 []) (fun d => d.counts.drops == 1 && ((d.core c0).queue 2).isEmpty) = true ∧
    holds (.tallyDeadline c0 1 119) counted (fun d => (d.core c0).get (CORE_TQ_closed 1) == 0) = true ∧
    holds (.tallyDeadline c0 1 120) counted (fun d => (d.core c0).get (CORE_TQ_closed 1) == 1) = true := by decide +kernel

theorem witness_TallyReleases : live full = true ∧ (full.dev.core c0).tallyQuiet 1 = true ∧ (full.dev.core c0).get (CORE_TQ_closed 1) = 1 ∧
    (full.dev.core c0).get (CORE_EP_held 0) ≤ (full.dev.core c0).get (CORE_EP_qdepth 0) ∧ live releasing = true ∧
    ((releasing.dev.core c0).tqRun 1).releasing = true := by decide +kernel

theorem test_release : holds (.tallyRelease c0 1) full (fun d => Memory.readN (d.core c0).mem 0x40040 8 == 0x400000003F800000
    && Memory.readN (d.core c0).mem 0x80100 64 == 0) = true ∧
    holds (.tallyReleaseEnd c0 1) releasing (fun d => (d.core c0).get (CORE_TQ_slot 1) == 8 && d.flight.length == 2) = true := by decide +kernel

/-- A core of job 3 with send endpoints 2 (data, two receivers, depth 4, 3 sent) and 9 (tally). -/
def linked : State := dev (fun d => d.upd c0 (fun k => fields [(CORE_EP_valid 2, 1), (CORE_EP_gen 2, 1), (CORE_EP_fanout 2, 1), (CORE_EP_depth 2, 4),
  (CORE_EP_credits 2, 1), (CORE_EP_valid 9, 1), (CORE_EP_tally 9, 1), (CORE_EP_gen 9, 1), (CORE_EP_dst 9, 6)]
  { k with run := .run, job := 3, ep := [(2, ⟨3, [(0, 1)], false, 0, 0⟩)], c := [(63, 0xFFFFFFFF)] }))

/-- A packet to core (0, 0). -/
def packet (type : BitVec 8) (job : BitVec 16) (inl : Nat) : Packet := ⟨type, 0, 0, 0, 0, 1, 1, 1, 0, 0, job, 0, BitVec.ofNat 40 inl, []⟩

theorem witness_PacketsReachTheCore : live linked = true ∧ (linked.dev.core c0).ofJob (packet 1 3 0) = true ∧
    (linked.dev.core c0).matching false 2 1 = [2] ∧ (linked.dev.core c0).matching true 6 1 = [9] ∧
    linked.dev.relayTargets (packet 1 3 (2 + 1 * 2 ^ 5 + 2 ^ 8)) false = [] ∧ linked.dev.relayTargets (packet 1 3 (6 + 2 ^ 8 + 2 ^ 16)) true = [] ∧
    (linked.dev.core c0).ofJob (packet 1 4 0) = false := by decide +kernel

theorem test_packets : holds (.creditArrival (packet 1 3 (2 + 1 * 2 ^ 5 + 2 ^ 8))) linked (fun d => (d.core c0).get (CORE_EP_credits 2) == 2) = true ∧
    holds (.errincArrival (packet 3 3 (63 + 2 * 2 ^ 6))) linked (fun d => (d.core c0).cr 63 == 1) = true := by decide +kernel

/-- Router (1, 0) whose slot 0 sends W's row on to E, S and L; one row stands on W. -/
def routed : State := dev (fun d => { d with
  routers := [((⟨1, 0⟩ : CoreId).key, ⟨true, 3, 0, 0, 5, 1, 0⟩)],
  sched := [(schedKey ⟨1, 0⟩ 0 0, 4 * 2 ^ 3 + 4 * 2 ^ 6 + 4 * 2 ^ 12 + 63 * 2 ^ 21)], links := [(linkKey ⟨1, 0⟩ 3, [⟨9, dataRow 1 true⟩])] })

theorem witness_RowsCrossRouters : routed.dev.slotWord ⟨1, 0⟩ 9 = 4 * 2 ^ 3 + 4 * 2 ^ 6 + 4 * 2 ^ 12 + 63 * 2 ^ 21 ∧
    ([1, 2, 3, 4, 5, 6, 7].map (routed.dev.source ⟨1, 0⟩ (routed.dev.slotWord ⟨1, 0⟩ 9))) = [0, 4, 4, 0, 4, 0, 0] ∧ live routed = true := by decide +kernel

theorem test_router : holds (.routerSlot ⟨1, 0⟩ 9 .clean) routed (fun d => d.links == [(linkKey ⟨2, 0⟩ 3, [⟨10, dataRow 1 true⟩]), (linkKey ⟨1, 1⟩ 0, [⟨10, dataRow 1 true⟩])]
    && d.delivered == [(⟨1, 0⟩, dataRow 1 true)]) = true := by decide +kernel

/-- Job 3 owns the epoch: 2 votes turn entry 0, 1 stands; router (1, 0) runs a schedule of the job; `turn` is pending. -/
def epoch (turn : Option Turn) (fill : Nat) : State := dev (fun d => { (((((d.put MESH_EPOCH_CTL_owner_valid 1).put MESH_EPOCH_CTL_owner_job 3).put
  (MESH_EPOCH_votes 0) 2).put (MESH_EPOCH_turn_lead 0) 50).put (MESH_EPOCH_drain 0) 10).put MESH_VOTES_votes 1 with
  routers := [((⟨1, 0⟩ : CoreId).key, ⟨true, 3, 0, 0, 5, 1, 0⟩)], turn := turn, schedFill := [((⟨1, 0⟩ : CoreId).key, fill)] })

/-- A vote of a job. -/
def vote (job : BitVec 16) : Packet := ⟨3, 0, 0, 1, 2, 0, 1, 1, 0, 0, job, 0, BitVec.ofNat 40 (1 * 2 ^ 6), []⟩

/-- The turn at ck 100 of entry 0, received by `got`. -/
def turnAt (got : List Nat) : Turn := ⟨100, 0, 1, got, [], false⟩

theorem witness_EpochVotesAndTurn : live (epoch none 0) = true ∧ (epoch none 0).dev.ownsEpoch 3 0 = true ∧ (epoch none 0).dev.ownsEpoch 4 0 = false ∧
    ((epoch (some (turnAt [])) 0).dev.router ⟨1, 0⟩).on = true ∧ (90 ≤ 100 - (epoch (some (turnAt [])) 0).dev.get (MESH_EPOCH_drain 0)) := by decide +kernel

theorem test_votes : holds (.epochVote (vote 3) 20) (epoch none 0) (fun d => d.turn == some ⟨70, 0, 1, [], [], false⟩ && d.get MESH_VOTES_votes == 0) = true ∧
    holds (.epochVote (vote 4) 20) (epoch none 0) (fun d => d.turn == none && d.get ERRAND_STAT_absorbed == 1) = true := by decide +kernel

theorem mine_epoch (t : Option Turn) (n : Nat) (r : CoreId) (h : ((epoch t n).dev.router r).on = true) : r.key = (⟨1, 0⟩ : CoreId).key := by
  have e : ((epoch t n).dev.router r) = Tab.get (fun _ => RouterRun.reset) [((⟨1, 0⟩ : CoreId).key, ⟨true, 3, 0, 0, 5, 1, 0⟩)] r.key := rfl
  rw [e] at h
  by_cases q : r.key = (⟨1, 0⟩ : CoreId).key
  · exact q
  · simp only [Tab.get, if_neg (Ne.symm q), RouterRun.reset, Bool.false_eq_true] at h

theorem witness_SchedulesFillAndTurn : live (epoch (some (turnAt [1])) 1) = true ∧ (epoch (some (turnAt [1])) 1).dev.links = [] ∧
    ((epoch (some (turnAt [1])) 1).dev.get (MESH_EPOCH_period 0) + 1 + 15) / 16 = 1 ∧
    Tab.get (fun _ => 0) (epoch (some (turnAt [1])) 1).dev.schedFill (⟨1, 0⟩ : CoreId).key = 1 ∧ (255 : Nat) < 256 := by decide +kernel

theorem test_fill : holds (.scheduleFill ⟨1, 0⟩ ⟨rowOf [(0, 5), (60, 6)], false, true, false, 0xFF⟩) (epoch none 255) (fun d =>
      Tab.get (fun _ => 0) d.sched (schedKey ⟨1, 0⟩ 1 4080) == 5 && Tab.get (fun _ => 0) d.sched (schedKey ⟨1, 0⟩ 1 4095) == 6) = true := by decide +kernel

/-- A TMM issued with spot checks on; then selected, recomputed and written. -/
def spotIssued : State := after (.tmm c0 (word3 1 2 3 (1 * 2 ^ 5 + 5 * 2 ^ 8)) 0) (dev (fun d => (d.put WARD_SPOT_CFG_en 1).upd c0 (fun k => { k with
  run := .run, d := [(1, tile 0x80000 0 16 1 1), (2, tile 0x40000 2 32 1 1), (3, tile 0x40040 2 16 32 1)] })))

theorem witness_SpotChecksRun : live spotIssued = true ∧ (spotIssued.dev.core c0).tmm.length = 1 ∧ (spotIssued.dev.arcade 0).countdown = 0 ∧
    (spotIssued.dev.arcade 0).working = true ∧ spotIssued.dev.arcadeRecovers 0 = false ∧
    (spotIssued.dev.core c0).tmm.all (fun o => o.spot == none && !o.done && !o.onCheck) = true := by decide +kernel

/-- The TMM as it stands when its spot check compares. -/
def spotDone : State := ⟨[], (spotIssued.dev.upd c0 (fun k => { k with tmm := k.tmm.map (fun o => { o with spot := some ⟨0, 0⟩, done := true }) })).setArcade 0
  ⟨true, [⟨0, true⟩], true, 1⟩⟩

theorem witness_SpotCheckCompare : live spotDone = true ∧ (spotDone.dev.arcade 0).queue = [⟨c0.key, true⟩] ∧ (spotDone.dev.arcade 0).recomputed = true ∧
    ((spotDone.dev.core c0).tmm.find? (fun o => o.spot.isSome && o.done)).isSome = true := by decide +kernel

/-- A device whose stack 7 is ON, for patrols. -/
def patrolled : State := dev (fun d => { d with ms := 5 })

theorem witness_PatrolsReport : regionOf (0x5FFC0 / 64 * 64) = some (1, 0x40000, 0x20000) ∧ (patrolled.dev.core c0).offMask 1 = false ∧
    (2 ^ 30 - 1) * 64 < 2 ^ 36 ∧ live patrolled = true := by decide +kernel

/-! Porters: Porter 31, of stack 7. -/

/-- A Porter descriptor by its bytes: (first byte, value). -/
def descriptor (l : List (Nat × Nat)) : List (BitVec 128) :=
  let v := l.foldl (fun n p => n + p.2 * 2 ^ (8 * p.1)) 0
  [BitVec.ofNat 128 v, BitVec.ofNat 128 (v / 2 ^ 128)]

/-- A PREQ packet of core (0, 0) of a job for Porter 31. -/
def request (type : BitVec 8) (job : BitVec 16) (l : List (Nat × Nat)) : Packet := ⟨type, 84, 95, 3, 2, 0, 0, 0, 0, 0, job, 0, 31, descriptor l⟩

/-- A LOAD of 9 rows from virtual 0x40 to 0x40000, a STORE of one row to virtual 0, a LOAD behind fence 2 at step 1, a CREDIT of 65,535 to pool 5. -/
def loadReq : Packet := request 4 3 [(0, 1), (9, 1), (10, 9), (12, 1), (4, 0x40), (18, 0x40000)]
def storeReq : Packet := request 4 3 [(0, 2), (9, 2), (10, 1), (12, 1), (4, 0), (18, 0x40000)]
def fencedReq : Packet := request 4 3 [(0, 1), (1, 3), (9, 1), (10, 9), (12, 1), (4, 0x40), (18, 0x40000), (28, 2), (30, 1)]
def creditReq : Packet := request 4 3 [(0, 4), (3, 5), (27, 255)]

/-- Job 3 in context 0 of Porter 31 with page 0 mapped to page 5 of stack 7, and its core (0, 0). -/
def porter : State := dev (fun d => { (((((d.put (PORTER_CTX_valid 31 0) 1).put (PORTER_CTX_job 31 0) 3).put (PORTER_PTBASE_base 31 0) 1).put
    (PORTER_POOL_credits 31 0 5) 65281).put (PWR_DOM_state 87) 0).upd c0 (fun k => { k with run := .run, job := 3, image := ⟨true, 0, [], [], []⟩ }) with
  hbm := Memory.writeN (Memory.writeN [] 0x400000 8 (7 + 5 * 2 ^ 16 + 7 * 2 ^ 33 + 3 * 2 ^ 48)) (7 * 2 ^ 36 + 5 * 2 ^ 21 + 0x40) 1 0x5A })

/-- The same with the packets and what follows them. -/
def accepted (p : Packet) : State := after (.descriptorAccept p) porter
def loading : State := after (.transferStart 31 0) (accepted loadReq)
def tagged : State := after (.tagGrant 31) loading
def storing : State := after (.transferStart 31 0) (accepted storeReq)
def stored1 : State := after (.storeRowArrival 7 ⟨0x99, true, false, false, 2⟩) storing
def writing : State := after (.storeRowArrival 7 ⟨0x99, false, true, false, 2⟩) stored1

theorem witness_DescriptorsEnterPorters : live porter = true ∧
    [loadReq, storeReq, creditReq].all (fun p => porter.dev.porterOf p == some 31 && porter.dev.porterCheck 31 (PDesc.ofBits (packetDesc p)) 3 0 == .inr 0) = true ∧
    porter.dev.get (HBM_STAT_marked 7) = 0 ∧ porter.dev.porterOf (request 6 3 []) = some 31 := by decide +kernel

theorem test_accept : holds (.descriptorAccept loadReq) porter (fun d => (d.porter 31).transfers.map (fun t => t.pieces.map (fun p => (p.addr, p.rows)))
      == [[(7 * 2 ^ 36 + 5 * 2 ^ 21 + 0x40, 7), (7 * 2 ^ 36 + 5 * 2 ^ 21 + 0x200, 2)]]) = true ∧
    holds (.porterCredit creditReq) porter (fun d => d.get (PORTER_POOL_credits 31 0 5) == 65535) = true := by decide +kernel

theorem witness_TransfersStartAndTag :
    ([(accepted loadReq, true), (accepted storeReq, true), (accepted fencedReq, false)].all (fun q => live q.1
      && (q.1.dev.porter 31).transfers.findIdx? (fun y => y.stream == 0 && !y.started) == some 0
      && (q.1.dev.porter 31).transfers.all (fun x => !(PDesc.ofBits x.desc).cores.any q.1.dev.moving)
      && ((q.1.dev.porter 31).transfers.map (q.1.dev.fenceOpen 31)) == [q.2] && q.1.dev.get (PORTER_CTX_a2 31 0) == 0)) = true ∧
    live loading = true ∧ (loading.dev.porter 31).tags < 1024 ∧ (loading.dev.porter 31).transfers.any (loading.dev.wantsTag 31) = true := by decide +kernel

theorem test_tag : holds (.tagGrant 31) loading (fun d => (d.porter 31).transfers.map (fun t => t.pieces.map (fun p => p.phase)) == [[.read, .free]]
      && (d.porter 31).next == 1) = true ∧
    holds (.transferStart 31 0) (accepted fencedReq) (fun d => (d.porter 31).transfers.map (fun t => (t.started, t.fenceWait)) == [(false, true)]) = true := by
  decide +kernel

/-- A gated LOAD that sends, its pool at one credit; a fence post on its way. -/
def gated : State := ⟨[], { (after (.transferStart 31 0) (after (.descriptorAccept (request 4 3 [(0, 1), (1, 2), (3, 5), (9, 1), (10, 9), (12, 1), (4, 0x40),
  (18, 0x40000)])) porter)).dev with posts := [⟨7, 1, 4095, 0xFFFF⟩] }⟩

theorem witness_GatedCreditTake : live gated = true ∧ (gated.dev.porter 31).sending 0 = some 0 ∧
    (gated.dev.porter 31).transfers.map (fun x => ((PDesc.ofBits x.desc).op, (PDesc.ofBits x.desc).gated, x.credit)) = [(1, true, false)] ∧
    gated.dev.get (PORTER_POOL_credits 31 0 5) = 65281 ∧ gated.dev.posts.find? (fun p => p.stack == 7) = some ⟨7, 1, 4095, 0xFFFF⟩ := by decide +kernel

theorem test_fence : holds (.fencePostArrival 7) gated (fun d => d.fence 7 1 4095 == 0xFFFF) = true := by decide +kernel

theorem witness_PiecesReadAndWrite : live tagged = true ∧ (tagged.dev.piece 31 0 0).map (fun p => (p.2.phase, p.2.coh)) = some (.read, false) ∧
    ((tagged.dev.porter 31).transfers.getD 0 ⟨0, loadReq, 0, false, false, false, false, false, false, false, []⟩).pieces.all
      (fun p => !((tagged.dev.porter 31).orderedBefore p)) = true ∧
    live storing = true ∧ live stored1 = true ∧ live writing = true ∧
    (writing.dev.piece 31 0 0).map (fun p => (p.2.phase, p.2.addr, p.2.rows)) = some (.write, 7 * 2 ^ 36 + 5 * 2 ^ 21, 1) := by decide +kernel

theorem test_pieces : holds (.pieceReturn 31 0 0 .clean) tagged (fun d => (d.piece 31 0 0).map (fun p => p.2.data.headD 0) == some 0x5A) = true ∧
    holds (.pieceWriteAck 31 0 0) writing (fun d => Memory.readN d.hbm (7 * 2 ^ 36 + 5 * 2 ^ 21) 64 == 0x99) = true := by decide +kernel

theorem witness_StoreCmd : (porter.dev.core c0).storeRun = none ∧ (porter.dev.core c0).run ≠ .reset ∧ (porter.dev.core c0).inj.length < 64 ∧
    storing.dev.flight.map (fun p => (p.type, packetCore p)) = [(6, c0)] := by decide +kernel

theorem witness_StacksFail : live porter = true ∧ porter.dev.jobs = [] ∧ (∀ j < 4, (porter.dev.porter (4 * 7 + j)).transfers = []) := by decide +kernel

/-! Port relays and links: port 95. -/

/-- Fields of the device's registers, one after the other. -/
def regs (l : List (Fld × Nat)) (d : Dev) : Dev := l.foldl (fun d p => d.put p.1 p.2) d

/-- Port 95 in a state of R297, with all wavelengths locked on both sides and 16 lasers lit. -/
def link (st : Nat) (more : List (Fld × Nat)) (f : Port → Port) (g : Relay → Relay) : State := dev (fun d => regs ([(LINK_STATE_state 95, st),
    (LINK_TXMAP_lane 95, mapLanes 0x3FFFF), (LINK_TXMAP_wstate 95, mapStates 0x3FFFF), (LINK_RXMAP_lane 95, mapLanes 0x3FFFF),
    (LINK_RXMAP_wstate 95, mapStates 0x3FFFF), (OPT_LASER_STAT_ok 7, 0xFFFF)] ++ more)
  { d with ports := [(95, f Port.reset)], relays := [(95, g Relay.reset)] })

/-- The check bytes of a symbol. -/
def check (type : Nat) (y : BitVec 40) : BitVec 16 := BitVec.ofNat 16 (crc32c (toBytes 1 type ++ toBytes 5 y.toNat) % 65536)

/-- CRC-32C of the digits 1 to 9, the check value that the polynomial of R289 is published with. -/
theorem test_crc : crc32c [0x31, 0x32, 0x33, 0x34, 0x35, 0x36, 0x37, 0x38, 0x39] = 0xE3069283 := by decide +kernel

/-- Egress flow 63 with a message, one credit; ingress flow 63 with a message of two rows; egress flow 2 with a message that has left. -/
def relayed (gone : Nat) : State := link 5 [(LINK_FLOW_valid 95 63, 1), (LINK_FLOW_credits 95 63, 1), (LINK_FLOW_gen 95 63, 4), (LINK_FLOW_valid 95 127, 1), (LINK_FLOW_credits 95 127, 1),
    (LINK_FLOW_gone 95 127, gone), (LINK_FLOW_slot 95 127, 255), (LINK_FLOW_sstep 95 127, 2), (LINK_FLOW_ltag 95 127, 8), (LINK_FLOW_gen 95 127, 4)] id
  (fun r => { r with queue := [(63, [⟨[5], false, 0⟩])], sending := [(2, [⟨[6], false, 0⟩])], ready := [(63, [⟨[0, 9], true, 1⟩])] })

theorem witness_RelaysPassMessages : live (relayed 1) = true ∧ (relayed 1).dev.portOn 95 = true ∧ (relayed 1).dev.linkState 95 = 5 ∧
    ((relayed 1).dev.port 95).stillSending 2 = false ∧
    ((relayed 1).dev.get (LINK_FLOW_credits 95 63), (relayed 1).dev.get (LINK_FLOW_credits 95 127), (relayed 1).dev.get (LINK_FLOW_gone 95 127)) = (1, 1, 1) ∧
    (relayed 0).dev.get (LINK_FLOW_pass 95 127) = 0 := by decide +kernel

theorem test_relay : holds (.ingressMessage 95 63) (relayed 0) (fun d => (Tab.get (fun _ => []) (d.relay 95).lane 1).map (fun r => (r.head, r.last, r.tag, r.poison))
      == [(true, false, 8, true), (false, true, 8, true)] && d.get (LINK_FLOW_slot 95 127) == 1) = true ∧
    holds (.nullMessage 95 63) (relayed 1) (fun d => d.counts.nulls == 1 && d.get (LINK_FLOW_credits 95 127) == 0) = true := by decide +kernel

/-- Symbols that the statements speak of: LANE_CREDIT of the shared pool with total 1, FLOW_CREDIT of flow 63 and of service flow 1, EPOCH_TURN, TRAIN, ALIGN. -/
def laneY : BitVec 40 := BitVec.ofNat 40 (2 ^ 2 + 1 * 2 ^ 3)
def flowY : BitVec 40 := BitVec.ofNat 40 (63 + 4 * 2 ^ 8 + 1 * 2 ^ 16)

theorem witness_SymbolsAreChecked : (relayed 0).dev.linkState 95 = 5 ∧ (link 8 [] id id).dev.linkState 95 = 8 ∧ (link 2 [] id id).dev.linkState 95 = 2 ∧
    symbolGood 0 0 (check 0 0) = true ∧ symbolGood 0 0 (check 0 0 + 1) = false ∧ symbolGood 3 laneY (check 3 laneY) = true ∧
    symbolGood 4 flowY (check 4 flowY) = true ∧ bit flowY.toNat 6 = false ∧
    flowY.toNat / 2 ^ 8 % 2 ^ 8 = (relayed 0).dev.get (LINK_FLOW_gen 95 63) ∧ bit 0x41 6 = true ∧ symbolGood 4 0x41 (check 4 0x41) = true ∧ symbolGood 5 0xFFFFFFFF (check 5 0xFFFFFFFF) = true ∧
    symbolGood 12 0x1F (check 12 0x1F) = true ∧ symbolGood 11 0 (check 11 0) = true := by decide +kernel

theorem test_symbols : holds (.laneCredit 95 laneY (check 3 laneY)) (link 5 [] (fun x => { x with last := [(1, 65535)], credits := [(4, 3)] }) id)
      (fun d => (d.port 95).credit 4 == 5) = true ∧
    holds (.train 95 0x1F (check 12 0x1F)) (link 2 [] id id) (fun d => (d.port 95).peerReady == 0x8000) = true ∧
    holds (.align 95 0 0) (link 5 [(LINK_ERR_bad 95, 255)] id id) (fun d => d.get (LINK_ERR_bad 95) == 255) = true := by decide +kernel

/-- A flit of virtual lane 1, sequence 8,191, whose payload is one message of one row for flow 63. -/
def flitBytes : List Byte := toBytes 2 (8191 + 1 * 2 ^ 13) ++ toBytes 4 (63 + 1 * 2 ^ 16) ++ toBytes 64 0xABC ++ List.replicate 182 0xFF
def flit : BitVec 2048 := BitVec.ofNat 2048 (ofBytes (flitBytes ++ toBytes 4 (crc32c flitBytes)))
def flits : State := link 5 [(LINK_FLOW_valid 95 127, 1)] (fun x => { x with expected := 8191, replay := [(5, 50), (6, 60)], seq := 7 }) id
def received : State := after (.flitReceive 95 flit .clean) flits

set_option maxRecDepth 20000 in
theorem witness_FlitsAreRetried : live flits = true ∧ flits.dev.carries 95 = true ∧ (flits.dev.port 95).framed = true ∧
    crc32c (toBytes 252 flit.toNat) = flit.toNat / 2 ^ 2016 ∧ flit.toNat % 2 ^ 13 = 8191 ∧ symbolGood 1 6 (check 1 6) = true ∧
    symbolGood 2 5 (check 2 5) = true ∧ 1 < flits.dev.get LINK_CFG_replay_max ∧ live received = true ∧
    (Tab.get (fun _ => []) (received.dev.port 95).rx 1).length = 1 := by decide +kernel

set_option maxRecDepth 20000 in
theorem test_flit : (received.dev.port 95).expected = 0 ∧
    holds (.linkMessage 95 1) received (fun d => (Tab.get (fun _ => []) (d.relay 95).ready 63).map (fun m => m.rows) == [[0xABC]]) = true ∧
    holds (.nak 95 5 (check 2 5)) flits (fun d => d.out == [.flit 95 60, .flit 95 50]) = true := by decide +kernel

/-- Lane 15 being spared: at the receiver from wavelength 15 to 16, locked or not, and at the transmitter. -/
def spared (locked : Bool) : State := link 6 [] (fun x => { x with rxSpare := [⟨15, 15, 16, 512, locked⟩], txSpare := [⟨15, 15, 17, 512, true⟩] }) id

theorem witness_LanesAreSpared : live (link 5 [] id id) = true ∧ (link 5 [] id id).dev.carries 95 = true ∧
    wavesIn ((link 5 [] id id).dev.get (LINK_TXMAP_wstate 95)) 0 = [16, 17] ∧ symbolGood 9 15 (check 9 15) = true ∧
    laneOfWave (mapLanes 0x3FFFF) (mapStates 0x3FFFF) 15 = some 15 ∧ symbolGood 10 0x5FF (check 10 0x5FF) = true ∧
    (0x50F : Nat) / 2 ^ 4 % 2 ^ 5 = 16 ∧ symbolGood 10 0x50F (check 10 0x50F) = true ∧ (spared true).dev.carries 95 = true := by decide +kernel

theorem test_sparing : holds (.laneSpareTrigger 95 15 true 1) (link 5 [] id id) (fun d => d.out == [.symbol 95 0x0A (BitVec.ofNat 40 (15 + 16 * 2 ^ 4 + 3 * 2 ^ 9))]) = true ∧
    holds (.swapAtK 95 15) (spared true) (fun d => bits (d.get (LINK_RXMAP_lane 95)) 75 5 == 16) = true ∧
    holds (.swapAtK 95 15) (spared false) (fun d => d.linkState 95 == 7) = true := by decide +kernel

/-- A DISCOVER of port 3 of device 9 with a valid port map, and of another port. -/
def discoverY (port : Nat) : BitVec 40 := BitVec.ofNat 40 (9 + port * 2 ^ 18 + 1 * 2 ^ 33)
def mapped (st : Nat) : State := link st [(LINK_PORT_CFG_valid 95, 1), (LINK_PORT_CFG_peer_dev 95, 9), (LINK_PORT_CFG_peer_port 95, 3), (LINK_PEER_devnum 95, 9),
  (LINK_PEER_port 95, 3), (LINK_PEER_valid 95, 1), (LINK_PEER_seen 95, 1), (LINK_FLOW_valid 95 127, 1)]
  (fun x => { x with peerReady := 0xFFFF, before := 5, partTag := 0, parts := [(1, some 0), (2, some 0), (3, some 0)], replay := [(5, 50)] }) id

theorem witness_LinkStatesFollow : [1, 2, 3, 4, 5, 6, 7, 8].all (fun st => live (mapped st) && (mapped st).dev.linkState 95 == st) = true ∧
    (mapped 2).dev.get WARD_ROSTER_n = 0 ∧ (lockedWaves 0x3FFFC).length = 16 ∧ (lockedWaves 0x3FFF8).length = 15 ∧ (mapped 4).dev.peerMatches 95 = true ∧
    ((List.range 18).filter (fun w => bit ((mapped 8).dev.get (OPT_LASER_STAT_ok 7)) w)).length = 16 ∧
    symbolGood 8 (discoverY 3) (check 8 (discoverY 3)) = true ∧ symbolGood 8 (discoverY 4) (check 8 (discoverY 4)) = true ∧
    symbolGood 7 0xF (check 7 0xF) = true ∧ symbolGood 6 0 (check 6 0) = true ∧ symbolGood 6 4 (check 6 4) = true ∧
    (mapped 5).dev.get WARD_STEP_NOW_step % 64 = 0 ∧ (mapped 5).dev.get (LINK_ASSAY_bytes 3) = 0 := by decide +kernel

theorem test_states : holds (.linkStateDone 95 0x3FFFC) (mapped 2) (fun d => d.linkState 95 == 3 && bits (d.get (LINK_RXMAP_lane 95)) 75 5 == 17) = true ∧
    holds (.linkStateDone 95 0) (mapped 4) (fun d => d.linkState 95 == 5) = true ∧
    holds (.discover 95 (discoverY 4) (check 8 (discoverY 4))) (mapped 5) (fun d => d.linkState 95 == 6 && d.get (LINK_FLOW_gone 95 127) == 1) = true := by decide +kernel

/-! Clerks: Clerk 15, the odd one of stack 7. -/

/-- A PREQ packet of core (0, 0) of a job for Clerk 15, by its bytes. -/
def clerkReq (type : BitVec 8) (job : BitVec 16) (l : List (Nat × Nat)) : Packet := ⟨type, 84, 95, 5, 2, 0, 0, 0, 0, 0, job, 0, 31, descriptor l⟩

/-- Shard 0 has 16 parameters, program 7, server 1, BF16 copies, fence 9; its arrays stand at virtual 0x200, 0x240, 0x280, 0x2C0, 0x300. -/
def shard : Nat := ([(10, 16), (14, 7), (16, 4), (17, 2), (20, 9), (24, 0x200), (29, 0x240), (34, 0x280), (39, 0x2C0), (44, 0x300), (52, 0x3F800000), (60, 1),
  (96, 16), (100, 1), (104, 1), (108, 1)] : List (Nat × Nat)).foldl (fun n p => n + p.2 * 2 ^ (8 * p.1)) 0

/-- Job 3 in context 0 of stack 7: page 0 is page 5 of the stack and page 1 its page 6, coherent; the gradient's element 3 is an infinity. -/
def clerkMem : Memory := Memory.writeN (Memory.writeN (Memory.writeN (Memory.writeN [] 0x400000 16
    (7 + 5 * 2 ^ 16 + 7 * 2 ^ 33 + 3 * 2 ^ 48 + (15 + 6 * 2 ^ 16 + 7 * 2 ^ 33 + 3 * 2 ^ 48) * 2 ^ 64))
  (7 * 2 ^ 36 + 5 * 2 ^ 21) 128 shard) (7 * 2 ^ 36 + 5 * 2 ^ 21 + 0x2C0) 4 0x40000000) (7 * 2 ^ 36 + 5 * 2 ^ 21 + 0x2CC) 4 0x7F800000

/-- The same with a queue, skip fields and a verdict of step 10. -/
def clerk (q : List Packet) (c : Dev → Dev) : State := dev (fun d => c ({ (((((((d.put (PORTER_CTX_valid 28 0) 1).put (PORTER_CTX_job 28 0) 3).put
    (PORTER_PTBASE_base 28 0) 1).put (PWR_DOM_state 87) 0).put (CLERK_CTX_nshard 15 0) 1).put (CLERK_CTX_hbase 15 0) 0x100).setClerk 15
    { d.clerk 15 with queue := q }) with
  hbm := clerkMem, posts := [⟨7, 0, 9, 9⟩], clerkPrograms := [(7, [0x04060000, 0x08000000, 0xFC000000]), (8, [0x04060000, 0x40000000, 0xFC000000])] }))

def updateReq : Packet := clerkReq 4 3 [(0, 0x21), (4, 10)]
def scanReq : Packet := clerkReq 4 3 [(0, 0x22), (4, 10)]
def normReq : Packet := clerkReq 4 3 [(0, 0x23), (4, 9), (8, 0x1FFFC0), (13, 8)]
def exportReq : Packet := clerkReq 4 3 [(0, 0x24), (4, 9), (8, 2 ^ 21), (13, 3)]
/-- A job of queue 0, changed. -/
def job (id : BitVec 16) (f : Job → Job) (d : Dev) : Dev := d.setJob id (some (f (Job.create 0 0 false 64 0 0x400000 100)))
def fullClerk : State := clerk (List.replicate 64 updateReq) id
def ending : State := clerk [] (job 3 (fun j => { j with phase := .drain }))
def failed (passed : Bool) : State := clerk [] (fun d => d.setClerk 15 ⟨[], none, true, passed⟩)

theorem witness_ClerksTakeRequestsAndFail : [clerk [] id, fullClerk, ending, failed true, failed false, clerk [updateReq] id].all live = true ∧
    (clerk [] id).dev.clerkOf updateReq = some 15 ∧ (clerk [] id).dev.reqReason 15 updateReq = 0 ∧ (fullClerk.dev.clerk 15).queue.length = 64 ∧
    ending.dev.clerkOf updateReq = some 15 ∧ ending.dev.ending 3 = true ∧ (ending.dev.clerk 15).queue = [] ∧
    fullClerk.dev.clerkOf updateReq = some 15 ∧ fullClerk.dev.clerkOf (clerkReq 3 3 []) = some 15 ∧
    ((clerk [updateReq] id).dev.clerk 15).failed = false ∧ ((clerk [updateReq] id).dev.clerk 14).failed = false ∧
    (clerk [updateReq] (fun d => d.put (CLERK_CFG_watchdog 15) 1)).dev.get (CLERK_CFG_watchdog 15) ≠ 0 := by decide +kernel

theorem test_clerks : holds (.clerkRequest updateReq) (clerk [] id) (fun d => d.get (CLERK_STAT_queued 15) == 1) = true := by decide +kernel

/-- The same queue with step skip on, step 10 undecided, to be applied or to be skipped. -/
def skipping (v : Nat) : State := clerk [updateReq] (fun d => (((d.put CLERK_SKIP_en 1).setVerdict 0 { Verdict.reset with step := some 10 }).put CLERK_SKIP_STAT_v0 v))
def updating : State := after (.update 15) (clerk [updateReq] id)
def heads (s : State) (op : Nat) (p : Packet) : Bool := live s && s.dev.clerkHead 15 op == some p
def checked (s : State) (p : Packet) : Bool := match s.dev.clerkCheck 15 p with | .inr x => x.1 == 0 && x.2 == BitVec.ofNat 1024 shard | .inl _ => false

theorem witness_ClerksRunRequests : [(0x21, updateReq), (0x22, scanReq), (0x23, normReq), (0x24, exportReq)].all (fun x =>
      heads (clerk [x.2] id) x.1 x.2 && heads (clerk [x.2] (job 3 (fun j => { j with phase := .drain }))) x.1 x.2 && checked (clerk [x.2] id) x.2
      && (clerk [x.2] id).dev.cohReady 0x400000 ((clerk [x.2] id).dev.reqSpans 15 0 x.2 (BitVec.ofNat 1024 shard)).1
        ((clerk [x.2] id).dev.reqSpans 15 0 x.2 (BitVec.ofNat 1024 shard)).2) = true ∧
    (clerk [updateReq] id).dev.clerkBase 15 0 = 0x400000 ∧
    [(0, SkipState.wait), (1, .run), (2, .skip)].all (fun x => (skipping x.1).dev.skipState updateReq == x.2 && checked (skipping x.1) updateReq
      && heads (skipping x.1) 0x21 updateReq) = true ∧ (clerk [updateReq] id).dev.skipState updateReq = .run := by decide +kernel

theorem witness_ClerksRunRequests_data :
    reqEva normReq % 2 ^ 21 + normLength (Shard.ofBits (BitVec.ofNat 1024 shard)) ((clerk [normReq] id).dev.clerkProgram 8) ≤ 2 ^ 21 ∧
    ((clerk [exportReq] id).dev.exportPayload 0x400000 (BitVec.ofNat 1024 shard) 3).2 = false ∧
    live updating = true ∧ (updating.dev.clerk 15).queue.head? = some updateReq ∧ updating.dev.served 15 = true ∧ (updating.dev.clerk 15).run.isSome = true ∧
    (List.range 16).all (fun i => !((updating.dev.runLane 0x400000 (BitVec.ofNat 1024 shard) 0 (updating.dev.clerkProgram 7) ⟨[], [], []⟩ i).gradPoison)) = true ∧
    (List.range 16).all (fun i => !((updating.dev.runLane 0x400000 (BitVec.ofNat 1024 shard) 0 (updating.dev.clerkProgram 7) ⟨[], [], []⟩ i).statePoison)) = true := by
  decide +kernel

theorem test_update : holds (.clerkRowCommit 15) updating (fun d => Memory.readN d.hbm (7 * 2 ^ 36 + 5 * 2 ^ 21 + 0x200) 16 == 0x40000000 &&
      d.get (CLERK_CNT_nf_grad 15) == 1 && d.posts.length == 2 && d.get (CLERK_PROG_rows 15) == 1) = true := by decide +kernel

theorem test_pass : holds (.scan 15) (clerk [scanReq] id) (fun d => d.get (CLERK_CNT_nf_grad 15) == 1) = true ∧
    holds (.norm 15) (clerk [normReq] id) (fun d => Memory.readN d.hbm (7 * 2 ^ 36 + 6 * 2 ^ 21 - 64) 8 == 0x7FF0000000000000) = true ∧
    holds (.exportRecord 15) (clerk [exportReq] id) (fun d => Memory.readN d.hbm (7 * 2 ^ 36 + 6 * 2 ^ 21) 8 == 0x0302000144524853) = true := by decide +kernel
/-! Broker complexes: complex 3 and lines of page 5 of stack 7, in the last entry of its range table. -/

def line : Nat := 7 * 2 ^ 30 + 5 * 2 ^ 15
/-- The complexes with the ranges that let complex 3 hold the line, and a changed coherence fabric. -/
def broker (c : Coherence → Coherence) : State := dev (fun d => { (((d.put (PWR_DOM_state 87) 0).put (BRK_REGION_start 3 15) (7 * 22888)).put (BRK_REGION_pages 3 15) 6) with
  coh := c d.coh })
def lineV : BitVec 34 := BitVec.ofNat 34 line
def shared : State := broker (fun c => { c with dir := [(line, some ⟨none, [0, 1], 4⟩)], allocs := 5 })
def owned (f : Coherence → Coherence) : State := broker (fun c => f { c with dir := [(line, some ⟨some 3, [], 4⟩)], allocs := 5 })
def left (home : Bool) : Evicted := ⟨3, line, some 0xD1, home, false⟩
def snooped (inval : Bool) : State := owned (fun c => { c with snoops := [⟨line, 3, inval⟩] })
def answered (inval : Bool) (stale : List Snoop) : State := owned (fun c => { c with replies := [⟨⟨line, 3, inval⟩, some 0xD2⟩], stale := stale })
def evicted (dirty : Bool) : State := owned (fun c => { c with buffer := [⟨3, line, if dirty then some 0xD1 else none, false, false⟩] })
def acked : State := broker (fun c => { c with buffer := [left true], acks := [(3, line)] })

theorem witness_CoherenceServesAndSnoops : [broker id, shared, owned id, snooped false, snooped true, answered false [], answered true [], evicted true, evicted false,
      acked].all (fun s => live s && s.dev.coh.waits.isEmpty && s.dev.windowed.isEmpty) = true ∧
    [broker id, shared].all (fun s => s.dev.brokerLine 3 line && (s.dev.evicting 3 line).isNone && !(s.dev.crossing 3 line) && !(s.dev.snooping line)) = true ∧
    (broker id).dev.dirEntry line = none ∧ (broker id).dev.dirSet line = [] ∧ shared.dev.dirEntry line = some ⟨none, [0, 1], 4⟩ ∧
    (shared.dev.holders line).filter (· != 3) ≠ [] ∧ (shared.dev.holders line).contains 3 = false ∧
    ((owned id).dev.holders line).contains 3 = true ∧ ((owned id).dev.dirEntry line).bind (fun e => e.owner) = some 3 ∧ (owned id).dev.evicting 3 line = none ∧
    (snooped true).dev.coh.snoops.contains ⟨line, 3, true⟩ = true ∧ (answered false []).dev.coh.replies.find? (fun r => r.snoop.cpx == 3 && r.snoop.line == line)
      = some ⟨⟨line, 3, false⟩, some 0xD2⟩ ∧ (answered true [⟨line, 3, true⟩]).dev.coh.stale.contains ⟨line, 3, true⟩ = true ∧
    (evicted true).dev.evicting 3 line = some (left false) ∧ acked.dev.coh.acks.contains (3, line) = true := by decide +kernel

theorem test_coherence : holds (.rdO 3 lineV) shared (fun d => d.coh.snoops == [⟨line, 0, true⟩, ⟨line, 1, true⟩] && d.coh.waits == [⟨line, 3, true⟩]) = true ∧
    holds (.snpS 3 lineV (some 0xAA)) (snooped false) (fun d => d.coh.replies == [⟨⟨line, 3, false⟩, some 0xAA⟩]) = true ∧
    holds (.evictD 3 lineV 0 true) (evicted true) (fun d => Memory.readN d.hbm (line * 64) 64 == 0xD1 && d.dirEntry line == none) = true ∧
    holds (.wbAck 3 lineV) acked (fun d => d.coh.buffer.isEmpty) = true := by decide +kernel

/-- ESEND head 63 of complex 3 with a PREQ packet of job 65,535 to Porter 0, the job bound or not; the same of type 5. -/
def esend (type : Nat) (bound : Nat) : State := dev (fun d => (d.put (BRK_ESEND_head 63) (type + 84 * 2 ^ 8 + 95 * 2 ^ 16 + 2 * 2 ^ 28 + 2 * 2 ^ 54 + 65535 * 2 ^ 64)).put (BRK_BIND_job3 3) bound)
/-- Job 3 of the input loader in slot 15, with pages 0 and 1 mapped. -/
def loader : State := dev (fun d => job 3 id { d with hbm := clerkMem, slots := [(15, { Slot.reset with use := some (.loader 3 0) })] })
def entry : InputEntry := ⟨3, 1, 0, 1, 0, [2], 2, [7, 8], 63, [c0, ⟨1, 0⟩]⟩

/-- The orchestrator of job 3 in slot 0, a message of a type that has arrived on port 9, and a roster of 64. -/
def orch (type src absent : Nat) (step : BitVec 32) (value : Nat) (f : Dev → Dev) : State := dev (fun d => f (job 3 id { (d.put WARD_ROSTER_n 64) with
  slots := [(0, { Slot.reset with use := some (.orchestrator 3 0) })], svc := [⟨9, 2, 2, false, [orchRow type 0 src 0xFF step 3 0 absent value]⟩] }))
def gone (a : Nat) (d : Dev) : Dev := (((d.put WARD_ROSTER_absent_valid 1).put WARD_ROSTER_absent a).put WARD_ROSTER_eff_step 9).setMember a 2
def bare : Image := ⟨[], [], [], 0, [], [], [], [], 0, [], none, 1, none, none⟩
def tree (own : Bool) : Dev → Dev := job 3 (fun j => { j with image := some bare, sums := [⟨8, 5, [], own⟩] })
def row (s : State) : RowData := match s.dev.svc with | m :: _ => m.rows.headD 0 | [] => 0
def kept (s : State) (t : Nat) : Bool := live s && match s.dev.orchMessage t with
  | some x => x.2 == row s && s.dev.orchGood x.1 x.2 && (s.dev.job (rowJob x.2)).isSome
  | none => false
def badOrch : State := dev (fun d => { d with svc := [⟨9, 2, 2, true, [1]⟩] })
def latched : State := dev (fun d => d.upd c0 (fun k => k.put CORE_ACCT_HDR_valid 1))
def receipts : State := dev (fun d => job 3 id { ((d.put WARD_RCPT_HEAD_count 1).put WARD_RCPT_CFG_en 1) with hbm := clerkMem, gateJob := 3 })

theorem witness_BrokersSendAndCoordinate : [esend 4 65535, esend 4 0, esend 5 65535, loader, badOrch, latched, receipts].all live = true ∧
    (esend 4 65535).dev.bound 3 = [0, 0, 0, 65535] ∧ (packetOf ((esend 4 65535).dev.get (BRK_ESEND_head 63)) []).job = 65535 ∧
    (packetOf ((esend 4 65535).dev.get (BRK_ESEND_head 63)) []).type = 4 ∧ (packetOf ((esend 5 65535).dev.get (BRK_ESEND_head 63)) []).type = 5 ∧
    (loader.dev.job 3).isSome = true ∧ loader.dev.loaderOf 3 0 = some 3 ∧ entry.step.toNat ≤ loader.dev.get WARD_STEP_NOW_step + 1 ∧
    inputVa entry % 2 ^ 21 + (entryBytes entry).length ≤ 2 ^ 21 ∧
    (badOrch.dev.orchMessage 1).any (fun x => !(badOrch.dev.orchGood x.1 x.2)) = true ∧
    [(orch 1 0 63 8 0 id, 1), (orch 1 0 63 8 0 (gone 63), 1), (orch 1 0 63 8 0 (gone 62), 1), (orch 2 63 0 0 0 (gone 63), 2), (orch 3 0 0 8 0 id, 3),
      (orch 4 0 0 8 9 (tree false), 4), (orch 4 0 0 8 9 (tree true), 4), (orch 5 0 0 8 2 id, 5)].all (fun x => kept x.1 x.2) = true ∧
    rowAt (row (orch 1 0 63 8 0 id)) 11 1 = 63 ∧ rowAt (row (orch 2 63 0 0 0 (gone 63))) 2 1 = 63 ∧
    rowAt (row (orch 5 0 0 8 2 id)) 12 8 = 2 ∧ (orch 4 0 0 8 9 (tree true)).dev.verdictOf 8 = 0 ∧
    latched.dev.logical c0 = true ∧ (latched.dev.core c0).get CORE_ACCT_HDR_valid = 1 ∧ (receipts.dev.job receipts.dev.gateJob).isSome = true := by decide +kernel

theorem test_brokers : holds (.errandSend 63) (esend 4 65535) (fun d => d.flight.map (fun p => (p.srcX, p.srcY, p.srcSub)) == [(95, 95, 5)]) = true ∧
    holds (.absent) (orch 1 0 63 8 0 (gone 63)) (fun d => d.get WARD_ROSTER_eff_step == 8) = true ∧
    holds (.rejoin) (orch 2 63 0 0 0 (gone 63)) (fun d => (d.job 3).bind (fun j => j.rejoin) == some 2) = true ∧
    holds (.nfsum) (orch 4 0 0 8 9 (tree true)) (fun d => d.verdictOf 8 == 2) = true ∧
    holds (.inputEntryReady entry) loader (fun d => Memory.readN d.hbm (7 * 2 ^ 36 + 5 * 2 ^ 21 + 192) 8 == 0x154504E49) = true := by decide +kernel
/-! Commands of host queue 5, as Naeno works on them. -/

/-- A command by its opcode, flags, job, timeout and parameters (first parameter byte, value). -/
def rawCmd (op flags jobId timeout : Nat) (l : List (Nat × Nat)) : BitVec 512 :=
  BitVec.ofNat 512 (op + flags * 2 ^ 16 + 12 * 2 ^ 24 + 0x1234 * 2 ^ 32 + jobId * 2 ^ 48 + timeout * 2 ^ 96 + l.foldl (fun n p => n + p.2 * 2 ^ (8 * (16 + p.1))) 0)
def cmd (op jobId : Nat) (l : List (Nat × Nat)) : Cmd := ⟨7, 5, rawCmd op 0 jobId 0 l, .started, none, 0⟩

/-- Queue 5 with 16 entries, the link up, Naeno running, job 3 of queue 5, and a command. -/
def host (cs : List Cmd) (f : Dev → Dev) : State := dev (fun d => f (job 3 (fun j => { j with owner := 5 })
  { (((d.put (WARD_Q_log2n 5) 4).put (WARD_Q_rindex 5) 15).put (WARD_Q_rbase 5) 0x10000) with pcie := { d.pcie with up := true }, naenoRuns := true, cmds := cs }))
def noJobs (d : Dev) : Dev := { d with jobs := [] }
def withMem (d : Dev) : Dev := { (d.put (PWR_DOM_state 87) 0) with hbm := clerkMem }
/-- A command of a phase, alone in its queue. -/
def phase (p : CmdPhase) (x : BitVec 512) : Cmd := ⟨7, 5, x, p, none, 0⟩
def works (c : Cmd) (op : Nat) (s : State) : Bool := live s && s.dev.cmd c.n == some c && c.opcode == op && c.phase == .started
  && s.dev.get (WARD_Q_loc c.queue.toNat) == 0 && s.dev.get (WARD_Q_a2 c.queue.toNat) == 0 && s.dev.pcie.up && !(s.dev.killing c.job && c.opcode != 0x0304)

theorem working_of {c : Cmd} {op : Nat} {s : State} (h : works c op s = true) : Working s c op := by
  simp only [works, Bool.and_eq_true, beq_iff_eq] at h
  obtain ⟨⟨⟨⟨⟨⟨⟨a, b⟩, e⟩, f⟩, g⟩, i⟩, k⟩, l⟩ := h
  refine ⟨live_of a, b, e, f, fun n => ?_, ⟨g, i, k⟩⟩
  cases hk : s.dev.killing c.job with
  | false => rfl
  | true => simp [hk, n] at l

/-- Queue 5 holds one command; its limit is one command pending. -/
def ring (pending : Nat) (f : Dev → Dev) : State := host [] (fun d => f ((((d.put (WARD_Q_en 5) 1).put (WARD_Q_head 5) 15).put (WARD_Q_limit 5) 1).put (WARD_Q_pending 5) pending))
def nopRaw : BitVec 512 := rawCmd 0 0 0 0 []
def killRaw : BitVec 512 := rawCmd 0x0304 0 3 0 []
def fillRaw (flags : Nat) : BitVec 512 := rawCmd 0x0103 flags 3 9 [(8, 1)]
def delegating (st : Nat) (d : Dev) : Dev := (d.put WARD_DELEG_fill 1).put (BRK_CPX_STAT_state 3) st
def waitingCmd : State := host [phase .waiting (fillRaw 2)] (fun d => { d with waiters := [7] })

theorem witness_CommandsAreFetchedAndStarted :
    [(ring 0 id, nopRaw, none), (ring 0 id, killRaw, none), (ring 1 id, nopRaw, none), (ring 0 id, rawCmd 0xFFFF 0 0 0 [], some (2, 0xFFFF))].all (fun x =>
      live x.1 && x.1.dev.naenoRuns && x.1.dev.nextQueue == some 5 && x.1.dev.headerCheck ⟨x.1.dev.fetched, 5, x.2.1, .fetched, none, 0⟩ == x.2.2) = true ∧
    (ring 0 id).dev.get (WARD_Q_pending 5) = 0 ∧ (ring 1 id).dev.get (WARD_Q_limit 5) ≤ (ring 1 id).dev.get (WARD_Q_pending 5) ∧
    [(id, 0, none), (delegating 1, 0, none), (delegating 0, 2, some 8), (delegating 0, 0, some 8)].all (fun x =>
      let s := host [phase .fetched (fillRaw x.2.1)] x.1
      live s && s.dev.cmd 7 == some (phase .fetched (fillRaw x.2.1)) && s.dev.mayStart (phase .fetched (fillRaw x.2.1))
        && s.dev.lacks (phase .fetched (fillRaw x.2.1)) == x.2.2) = true ∧
    (host [] (delegating 1)).dev.delegateSlots = [12, 13, 14, 15] ∧ (host [] (delegating 1)).dev.delegable (phase .fetched (fillRaw 0)) = true ∧
    live waitingCmd = true ∧ (waitingCmd.dev.waiters.findSome? (fun n => (waitingCmd.dev.cmd n).bind (fun c => if (waitingCmd.dev.lacks c).isNone then some c else none))).isSome = true ∧
    (phase .launched (fillRaw 0)).timeout = 9 ∧ (List.range 4).find? (bit (setBits ((host [] (fun d => d.put WARD_ACTIVE_alive 9)).dev.get WARD_ACTIVE_alive) 0 1 0)) = some 3 := by
  decide +kernel

theorem test_fetch : holds (.commandFetch killRaw) (ring 0 id) (fun d => (d.job 3).map (fun j => j.phase) == some .stop && d.get (WARD_Q_head 5) == 0) = true ∧
    holds (.commandFetch nopRaw) (ring 1 id) (fun d => d.out.contains (.hostWrite 0 (0x10000 + 15 * 32) 32 (0x1234 + 2 ^ 16 + 2 ^ 32))) = true ∧
    holds (.commandStart 7) (host [phase .fetched (fillRaw 2)] (delegating 0)) (fun d => d.waiters == [7]) = true := by decide +kernel

def allocCmd : Cmd := cmd 0x0101 3 [(0, 2 ^ 19 - 2), (4, 2), (8, 0x380)]
def freeCmd : Cmd := cmd 0x0102 3 [(0, 1), (4, 1)]
def fillCmd : Cmd := cmd 0x0103 3 [(0, 2 ^ 21 - 3), (8, 3), (16, 0x0807060504030201)]
def copyCmd : Cmd := cmd 0x0104 3 [(0, 0x2C0), (8, 2 ^ 22 - 4), (16, 4)]
def winCmd : Cmd := cmd 0x0105 0 [(0, 0), (4, 160221), (8, 2)]
def windowed : State := host [winCmd] (fun d => job 3 (fun j => { j with owner := 5, pages := [160222, 160221] }) d)

theorem witness_DeviceAndMemoryCommands : works (cmd 0 0 []) 0x0000 (host [cmd 0 0 []] id) = true ∧ works (cmd 1 0 []) 0x0001 (host [cmd 1 0 []] id) = true ∧
    works (cmd 2 0 [(0, 0x3FFFF)]) 0x0002 (host [cmd 2 0 [(0, 0x3FFFF)]] noJobs) = true ∧ (host [] noJobs).dev.jobIds = [] ∧ (host [] id).dev.jobIds ≠ [] ∧
    works (cmd 3 0 [(0, 2)]) 0x0003 (host [cmd 3 0 [(0, 2)]] id) = true ∧ works (cmd 3 0 []) 0x0003 (host [cmd 3 0 []] id) = true ∧
    works allocCmd 0x0101 (host [allocCmd] withMem) = true ∧ works freeCmd 0x0102 (host [freeCmd] withMem) = true ∧
    works fillCmd 0x0103 (host [fillCmd] withMem) = true ∧ works copyCmd 0x0104 (host [copyCmd] withMem) = true ∧ works winCmd 0x0105 windowed = true ∧
    works (cmd 0x0106 3 [(0, 0xFFFFFFFF)]) 0x0106 (host [cmd 0x0106 3 [(0, 0xFFFFFFFF)]] id) = true := by decide +kernel

theorem witness_DeviceAndMemoryCommands_spans :
    let d := (host [] withMem).dev
    (d.job 3).any (fun j => (d.allocError allocCmd j).isNone && d.mapped 3 j (2 ^ 21 - 3) 3 && d.mapped 3 j 0x2C0 4 && d.mapped 3 j (2 ^ 22 - 4) 4
      && d.allocError (cmd 0x0101 3 [(0, 2 ^ 19 - 1), (4, 2), (8, 0x380)]) j == some (3, 16) && (d.pte j.table 1).valid) = true ∧
    d.lacks allocCmd = none ∧ d.freePages 0x80 2 = [160216, 160217] ∧ d.allOn [87] = true ∧
    (List.range 2).all (fun i => (windowed.dev.functionPages 0).contains (160221 + i)) = true := by decide +kernel

theorem test_memory : holds (.memFill 7) (host [fillCmd] withMem) (fun d => Memory.readN d.hbm (7 * 2 ^ 36 + 6 * 2 ^ 21 - 4) 4 == 0x03020100 && d.cmds.isEmpty) = true ∧
    holds (.memAlloc 7) (host [allocCmd] withMem) (fun d => Memory.readN d.hbm (0x400000 + 8 * (2 ^ 19 - 1)) 8 == 7 + 1 * 2 ^ 16 + 7 * 2 ^ 33 + 3 * 2 ^ 48)
      = true := by decide +kernel
/-! Job commands: an image with one core for variant 0 and plans 0 and 2, in a manifest at virtual 0x800. -/

def load1 : CoreLoad := ⟨c0, [0], [], [], [], [], 0, 0⟩
def set1 (plan : BitVec 8) : LoadSet := ⟨0, plan, [load1], [], [], [], [], [], 0, []⟩
def image1 : Image := { bare with bytes := [1, 2, 3], sets := [set1 0, set1 2] }
def manifest1 : List Byte := [0x45, 0x46, 0x5A, 0x4D, 0x41, 0x4E, 0x49, 0x46] ++ toBytes 8 1 ++ toBytes 4 0 ++ sha256 [1, 2, 3]
def imageCmd : Cmd := cmd 0x0202 3 [(16, 0x800), (24, 52)]
def imageState : State := host [imageCmd] (fun d => { withMem d with hbm := Memory.writeBytes clerkMem (7 * 2 ^ 36 + 5 * 2 ^ 21 + 0x800) manifest1 })
def imaged (c : Cmd) (f : Job → Job) : State := host [c] (fun d => (job 3 (fun j => f { j with owner := 5, image := some image1 }) d).upd c0
  (fun k => { k with job := 3, image := ⟨true, 0, [], [], []⟩ }))
def startCmd : Cmd := cmd 0x0301 3 [(0, 0xABCD), (4, 0xFFFFFFFF)]
def launchCmd : Cmd := cmd 0x0302 3 [(0, 1)]
def launchOf : Launch := ⟨3, false, 1, [], 0⟩
def resetCmd : Cmd := cmd 0x0307 3 []
def planCmd (n : Nat) : Cmd := cmd 0x0308 3 [(0, n), (4, 0xFFFFFFFF)]
def verdictCmd : Cmd := cmd 0x0303 3 [(0, 0xFFFFFFFF), (4, 2)]
def createCmd : Cmd := cmd 0x0201 0 [(0, 100), (4, 0x8000)]
def creating : State := host [createCmd] (fun d => { (noJobs d) with naenoRuns := true })
/-- The own position of a roster of 2 is absent from step 1 on. -/
def absentHost : State := let s := imaged launchCmd id
  ⟨[], ((s.dev.put WARD_ROSTER_n 2).put WARD_ROSTER_absent_valid 1).put WARD_ROSTER_eff_step 1⟩

theorem witness_JobCommands : works createCmd 0x0201 creating = true ∧ creating.dev.idFree = true ∧
    works imageCmd 0x0202 imageState = true ∧ imageState.dev.allOn (imageDomains image1) = true ∧ imageState.dev.inFlight 3 0 = false ∧
    imageState.dev.lacks { imageCmd with img := some image1 } = none ∧
    [(startCmd, 0x0301), (launchCmd, 0x0302), (cmd 0x0304 3 [(0, 1)], 0x0304), (cmd 0x0305 3 [], 0x0305), (cmd 0x0306 3 [], 0x0306), (resetCmd, 0x0307),
      (planCmd 2, 0x0308), (planCmd 1, 0x0308), (verdictCmd, 0x0303)].all (fun x => works x.1 x.2 (imaged x.1 id) && ((imaged x.1 id).dev.job 3).any (fun j =>
        j.launch.isNone && j.phase == .live && j.image == some image1 && !(j.running) && j.firstFault.isNone)) = true ∧
    works launchCmd 0x0302 (imaged launchCmd (fun j => { j with launch := some launchOf })) = true ∧
    works launchCmd 0x0302 (imaged launchCmd (fun j => { j with step := 7 })) = true ∧
    works launchCmd 0x0302 absentHost = true ∧ (absentHost.dev.job 3).any (fun j => absentHost.dev.planMissing j 1) = true ∧
    works (cmd 0x0305 3 []) 0x0305 (imaged (cmd 0x0305 3 []) (fun j => { j with phase := .held })) = true ∧
    works (cmd 0x0306 3 []) 0x0306 (imaged (cmd 0x0306 3 []) (fun j => { j with firstFault := some (⟨95, 89⟩, 6) })) = true ∧
    verdictCmd.par 4 4 = 2 ∧ works verdictCmd 0x0303 (host [verdictCmd] (fun d => d.put CLERK_SKIP_ext 1)) = true := by decide +kernel

theorem witness_JobCommands_checks : (imageState.dev.job 3).any (fun j =>
      (imageState.dev.imageError 3 j image1 (imageState.dev.virtBytes j.table 0x800 52).1).isNone
      && imageState.dev.imageError 3 j { image1 with bytes := [] } (imageState.dev.virtBytes j.table 0x800 52).1 == some (7, 0)) = true ∧
    (match selectVariant image1 (List.replicate 7 0) 24 with | .inr v => v == 0 | .inl _ => false) = true ∧
    ((imaged resetCmd id).dev.jobCores 3) = [c0] ∧ ((imaged resetCmd id).dev.core c0).inj = [] ∧ ((imaged resetCmd id).dev.core c0).send = none ∧
    image1.sets.any (fun l => l.plan.toNat == 1) = false ∧ image1.sets.any (fun l => l.plan.toNat == 2) = true := by decide +kernel

theorem test_jobs : holds (.stepLaunch 7) (imaged launchCmd id) (fun d => (d.job 3).bind (fun j => j.launch.map (fun l => l.step)) == some 1 && d.get WARD_STEP_GATE_pending == 1)
      = true ∧
    holds (.jobKill 7) (imaged (cmd 0x0304 3 [(0, 1)]) id) (fun d => (d.job 3).map (fun j => j.hold) == some true && (d.core c0).run == .reset) = true ∧
    holds (.imageLoad 7 { image1 with bytes := [] }) imageState (fun d => d.out.contains (.hostWrite 0 (0x10000 + 15 * 32) 32 (0x1234 + 7 * 2 ^ 16))) = true := by decide +kernel
/-! Link, telemetry and power commands. -/

def flow1 : FlowLoad := ⟨95, 127, 1, 8⟩
def linkUpCmd : Cmd := cmd 0x0401 0 [(0, 2 ^ 95 + 1)]
def linkDownCmd : Cmd := cmd 0x0402 0 [(0, 2 ^ 95)]
def flowCmd : Cmd := cmd 0x0403 3 [(0, 95)]
def flowState : State := host [flowCmd] (fun d => job 3 (fun j => { j with owner := 5, image := some { bare with sets := [{ set1 0 with cores := [], flows := [flow1] }] } })
  { (d.put (LINK_FLOW_gone 95 127) 1) with fuse := d.fuse })
def snapCmd (mask : Nat) : Cmd := cmd 0x0501 0 [(0, 7 * 2 ^ 36 + 22888 * 2 ^ 21 - 65536), (8, mask)]
def domCmd (n st : Nat) : Cmd := cmd 0x0802 0 [(0, n), (1, st)]
def engineOn (d : Dev) : Dev := (d.put (PWR_DOM_state 95) 0).put (PWR_DOM_state 88) 0

def staleCore : State := dev (fun d => d.upd c0 (fun k => k.put CORE_CHAN_STAT_stale 2))

theorem witness_LinkTelemetryAndPowerCommands : [(linkUpCmd, 0x0401), (linkDownCmd, 0x0402), (cmd 0x0404 0 [(0, 96)], 0x0404), (cmd 0x0404 0 [(0, 95)], 0x0404),
      (snapCmd (2 ^ 30), 0x0501), (snapCmd 1, 0x0501), (cmd 0x0502 0 [], 0x0502), (cmd 0x0801 0 [(0, 0xFFFF)], 0x0801), (domCmd 102 0, 0x0802), (domCmd 101 4, 0x0802),
      (domCmd 101 1, 0x0802), (cmd 0x0803 0 [], 0x0803)].all (fun x => works x.1 x.2 (host [x.1] engineOn)) = true ∧
    [0, 95].all (fun p => (host [] engineOn).dev.portOn p && (host [] engineOn).dev.linkState p == 0 && (host [] engineOn).dev.get (LINK_PORT_CFG_valid p) == 0) = true ∧
    works linkDownCmd 0x0402 (host [linkDownCmd] (fun d => d.put (LINK_PORT_CFG_valid 95) 1)) = true ∧
    works flowCmd 0x0403 flowState = true ∧ (flowState.dev.job 3).any (fun j => j.set.any (fun l => l.flows == [flow1])) = true ∧ flowState.dev.portOn 95 = true ∧
    (host [] engineOn).dev.physOk (7 * 2 ^ 36 + 22888 * 2 ^ 21 - 65536) 65536 = true ∧ (host [] engineOn).dev.physOk (7 * 2 ^ 36 + 22888 * 2 ^ 21 - 65536) 65537 = false ∧
    (host [] engineOn).dev.staleSum = 0 ∧ (staleCore.dev.staleSum, staleCore.dev.clearStale.staleSum, staleCore.dev.clearStale.cores) = (2, 0, []) ∧
    ((List.range 4).map (domSupports 101)).contains true = true ∧ ((List.range 4).map (domSupports 101)).contains false = true := by decide +kernel

theorem test_links : holds (.linkUp 7) (host [linkUpCmd] engineOn) (fun d => d.linkState 95 == 1 && d.linkState 94 == 0) = true ∧
    holds (.flowLoad 7) flowState (fun d => d.get (LINK_FLOW_gone 95 127) == 0 && d.get (LINK_FLOW_valid 95 127) == 1) = true ∧
    holds (.pwrCap 7) (host [cmd 0x0801 0 [(0, 0xFFFF)]] id) (fun d => d.get PWR_CAP_CFG_cap == 3600) = true := by decide +kernel

/-! Security, debug and checkpoint commands. -/

/-- A Broker image of one byte at security version 64 under an owner key, and its key. -/
def brokerObj : List Byte := toBytes 257 0x4381492482e1cd0af45658317e7b6c1a79a6b59f4dee920689b1bb36fb8022511535509caa4b794dd1a7c141f410e86b4381492482e1cd0af45658317e7b6c1a79a6b59f4dee920689b1bb36fb8022511535509caa4b794dd1a7c141f410e86b1717a108c2a91768966534412bec33596536663de1860d5f4ee206d2bda9d3837030b4c212e0349106e368f3b421c0be000000000000000000000000000000000000000000000000000000000000000000000000000000000000000000000001000000000000004000010001494b5242
def brokerKey : Nat × Nat := (0x36598f12e4a2c44a47087561be7df05067b0ddc224ee0083f580bea27e04cd34417d368796cabefb77542a6f226b0d0e, 0xccbc4da462f0527eaa4171c3bf4f5f25cd1d1300cdd89fc72f3dfd651a2cfd52db270abfb981df75ebd85395a795a11f)
/-- An overlay with one item of class 1 for index 255, and its key. -/
def overlayObj : List Byte := toBytes 200 0x100ff0001000000000000000000000000000000000000000000000000632eca60424c46aa2e087b275dc124a774f96a3a295349601562191f3b74419d70c4ba03584c3d6bbc06d26809efb687632eca60424c46aa2e087b275dc124a774f96a3a295349601562191f3b74419d70c4ba03584c3d6bbc06d26809efb687015ba6defcffc91d77ea8bb92b7eb45023418e6ec2c79c11a0aa112042ca850c4a65ad80755d06c63d88e6d38f184d2d00000000000000010000000000000000000100014f5a4645
def overlayKey : Nat × Nat := (0x56a6d87d6b7021a360a2e9f15f0032721af5f6faafac711c20a47c4853b95a3d42ad9f7df07ffc004fc8c17c74716742, 0x6cd6852ec076042dd08d07ae0ccc0f694fca28861beba4c677f4f395d60fb6159c44e09082e4addb95b8541d231c5c0)
/-- A response of level 1 to the challenge 2 for job 3 and 86,400 s, and its key. -/
def responseObj : List Byte := toBytes 136 0xc6f1420fd464cea94d68eaa22df57836b264b72b33c1bfeac833ded61d83485e9243a4441efb36c3eb5b79fabd19e2eec6f1420fd464cea94d68eaa22df57836b264b72b33c1bfeac833ded61d83485e9243a4441efb36c3eb5b79fabd19e2ee000000000000000000000000000000000000000000000002000151800000000000030001445a4645
def responseKey : Nat × Nat := (0x5b6210c133c962a2743ae3d2860cc708c8db6174be6ae6b8c316edac7e0cf300245bbf0101a0ed2f4e77566d56dac2d, 0x850ad56ca7bd70efdc49b1cdf09714e028cb44038ff9853706489f38558cbfc40d7ade292e83cb792b07aca7d0db536a)
/-- A command that names an object, and the object at the start of page 5 of stack 7, with an owner key in flash region 5. -/
def objectCmd (op : Nat) (bs : List Byte) (x : Nat) : Cmd := cmd op 0 [(0, 7 * 2 ^ 36 + 5 * 2 ^ 21), (8, bs.length), (12, x)]
def objectState (op : Nat) (bs : List Byte) (x : Nat) (key : Nat × Nat) (f : Dev → Dev) : State := host [objectCmd op bs x] (fun d => f { d with
  hbm := Memory.writeBytes [] (7 * 2 ^ 36 + 5 * 2 ^ 21) bs,
  flash := { d.flash with regions := [(5, List.replicate 20 0 ++ toBytesBE 48 key.1 ++ toBytesBE 48 key.2)] } })
def certificate : List Byte := [0x45, 0x46, 0x5A, 0x4B, 1, 0, 0, 0, 16, 0, 0, 0] ++ List.replicate 200 0
def challenged (d : Dev) : Dev := { d with challenge := some ⟨2, 1, 5⟩ }
def noObject (op : Nat) : State := host [cmd op 0 [(0, 8 * 2 ^ 36), (8, 1)]] id

theorem witness_SecurityDebugAndStateCommands_objects :
    [0x0902, 0x0904].all (fun op => works (cmd op 0 [(0, 8 * 2 ^ 36), (8, 1)]) op (noObject op) && ((noObject op).dev.object (cmd op 0 [(0, 8 * 2 ^ 36), (8, 1)])).isNone) = true ∧
    [(0x0901, brokerObj, 8, brokerKey), (0x0901, brokerObj, 3, brokerKey), (0x0901, [1], 7, brokerKey), (0x0902, overlayObj, 0, overlayKey), (0x0902, brokerObj, 0, overlayKey),
      (0x0903, brokerObj, 15, brokerKey), (0x0904, brokerObj, 0, brokerKey), (0x0904, certificate, 0, brokerKey), (0x0704, responseObj, 0, responseKey)].all
      (fun x => works (objectCmd x.1 x.2.1 x.2.2.1) x.1 (objectState x.1 x.2.1 x.2.2.1 x.2.2.2 challenged)
        && (objectState x.1 x.2.1 x.2.2.1 x.2.2.2 challenged).dev.object (objectCmd x.1 x.2.1 x.2.2.1) == some x.2.1) = true := by decide +kernel

theorem witness_SecurityDebugAndStateCommands_broker :
    (objectState 0x0903 brokerObj 15 brokerKey id).dev.brokerCheck brokerObj = none ∧
    (objectState 0x0903 brokerObj 15 brokerKey (fun d => d.put SEC_ARB_broker 65)).dev.brokerCheck brokerObj = some 4 ∧
    (objectState 0x0901 brokerObj 3 brokerKey id).dev.regionCheck 3 brokerObj = none ∧ (objectState 0x0901 [1] 7 brokerKey id).dev.regionCheck 7 [1] = none ∧
    (objectState 0x0904 brokerObj 0 brokerKey id).dev.certificateCheck brokerObj = some 3 ∧
    (objectState 0x0903 brokerObj 15 brokerKey (fun d => { d with slots := [(15, { Slot.reset with use := some (.loader 3 0) })] })).dev.jobSlot 3 = true := by decide +kernel

theorem witness_SecurityDebugAndStateCommands_keys :
    (objectState 0x0902 overlayObj 0 overlayKey id).dev.overlayCheck overlayObj = none ∧
    (objectState 0x0902 brokerObj 0 overlayKey id).dev.overlayCheck (brokerObj.drop 8) = some (1, 0) ∧
    (objectState 0x0704 responseObj 0 responseKey challenged).dev.responseCheck 5 responseObj = none ∧
    (objectState 0x0704 responseObj 0 responseKey id).dev.responseCheck 5 responseObj = some (0xA, 3) := by decide +kernel

/-- A certificate that a vendor key signs is accepted; the keys themselves are free (log 17). -/
theorem witness_SecurityDebugAndStateCommands_certificate
    (h : (objectState 0x0904 certificate 0 brokerKey id).dev.verifies 0 certificate 116 116 = true) :
    (objectState 0x0904 certificate 0 brokerKey id).dev.certificateCheck certificate = none := by
  simp only [Dev.certificateCheck, h]
  decide +kernel
/-- A debug access of the last 64 bytes of page 0 and of space 0 at address 0 of core (0, 0), under an unlock of level 1. -/
def dbgCmd (op space : Nat) : Cmd := cmd op 3 [(0, space), (12, 64), (16, 2 ^ 21 - 64)]
def dbgState (op space : Nat) (level : Option (Nat × Nat)) : State := host [dbgCmd op space] (fun d =>
  (job 3 (fun j => { j with owner := 5, unlock := level, ctx := some 0 }) (withMem d)).upd c0 (fun k => { k with job := 3, image := ⟨true, 0, [], [], []⟩, mem := [(0, 0x77)] }))
def ckptCmd (stage : Nat) : Cmd := { cmd 0x0601 3 [(2, 1), (4, 2)] with stage := stage }
def importCmd : Cmd := cmd 0x0602 3 [(10, 1)]
def shardState (c : Cmd) (f : Job → Job) : State := host [c] (fun d => job 3 (fun j => f { j with owner := 5, ctx := some 0 }) (withMem d))
/-- A record of shard 0's copy. -/
def record (s : State) : List Byte := s.dev.exportRecord exportReq (BitVec.ofNat 1024 shard) (List.replicate 32 0xBF)
def runningState : State := host [importCmd] (fun d => (job 3 (fun j => { j with owner := 5, running := true }) d).upd c0 (fun k => { k with run := .run, job := 3, image := ⟨true, 0, [], [], []⟩ }))

theorem witness_SecurityDebugAndStateCommands_debug : works (cmd 0x0703 0 []) 0x0703 (host [cmd 0x0703 0 []] id) = true ∧
    [(0x0701, 0, false), (0x0702, 0, true), (0x0701, 2, false)].all (fun x => works (dbgCmd x.1 x.2.1) x.1 (dbgState x.1 x.2.1 (some (1, 9)))
      && ((dbgState x.1 x.2.1 (some (1, 9))).dev.job 3).any (fun j => ((dbgState x.1 x.2.1 (some (1, 9))).dev.dbgError (dbgCmd x.1 x.2.1) j x.2.2).isNone)
      && ((dbgState x.1 x.2.1 none).dev.job 3).any (fun j => (dbgState x.1 x.2.1 none).dev.dbgError (dbgCmd x.1 x.2.1) j x.2.2 == some (0xA, 5))) = true := by decide +kernel

theorem witness_SecurityDebugAndStateCommands_state :
    works (ckptCmd 0) 0x0601 (shardState (ckptCmd 0) id) = true ∧ works (ckptCmd 1) 0x0601 (shardState (ckptCmd 1) id) = true ∧
    (shardState (ckptCmd 0) id).dev.allHalted 3 = true ∧ (shardState (ckptCmd 1) id).dev.exporting 3 = false ∧
    ((shardState (ckptCmd 0) id).dev.job 3).any (fun j => (shardList 0 1 [((15 : BitVec 4), (0x400 : BitVec 40))]).all ((shardState (ckptCmd 0) id).dev.stages 3 j 2)) = true ∧
    works importCmd 0x0602 (shardState importCmd id) = true ∧ works importCmd 0x0602 runningState = true ∧ runningState.dev.allHalted 3 = false ∧
    ((shardState importCmd id).dev.job 3).any (fun j => (shardState importCmd id).dev.shardEntry j 15 0 == BitVec.ofNat 1024 shard) = true ∧
    recordError (BitVec.ofNat 1024 shard) (record (shardState importCmd id)) = none ∧ recordError (BitVec.ofNat 1024 shard) [] = some 4 ∧
    recordError 0 (record (shardState importCmd id)) = some 16 := by decide +kernel

theorem test_security : holds (.dbgResponse 7) (objectState 0x0704 responseObj 0 responseKey challenged) (fun d => (d.job 3).map (fun j => j.unlock) == some (some (1, 86400)) && d.challenge == none)
      = true := by decide +kernel

theorem test_state : holds (.dbgWrite 7) (dbgState 0x0702 0 (some (1, 9))) (fun d => (d.core c0).mem == []) = true ∧
    holds (.stateImport 7 [(15, record (shardState importCmd id))]) (shardState importCmd id) (fun d => Memory.readN d.hbm (7 * 2 ^ 36 + 5 * 2 ^ 21 + 0x300) 2 == 0xBFBF) = true ∧
    holds (.ckptExport 7 [(15, 0x400)] none) (shardState (ckptCmd 0) id) (fun d => d.flight.map reqOp == [0x24]) = true := by decide +kernel
/-! Steps of job 3 on core (0, 0), whose launch is command 7. -/

def launchOf2 (first : Bool) : Launch := ⟨7, first, 9, [5], 0⟩
def launchedCmd : Cmd := { cmd 0x0302 3 [] with phase := .launched }
def stepJob (j : Job) : Job := { j with owner := 5, ctx := some 0, image := some image1, starts := 1, step := 8 }
def stepCore (k : Core) : Core := { k with run := .reset, job := 3, image := ⟨true, 0x0700, [], [], []⟩, g := [(5, 1)], mem := [(0, 1), (0xC0000, 2)] }
def stepState (f : Job → Job) (g : Core → Core) (h : Dev → Dev) : State := host [launchedCmd] (fun d =>
  h (((job 3 (fun j => f (stepJob j)) d).put (PWR_DOM_state 80) 0).upd c0 (fun k => g (stepCore k))))
def opened (first : Bool) : State := stepState (fun j => { j with launch := some (launchOf2 first) }) (fun k => { k with run := .halted, c := [(3, 1)] }) id
def shutGate : State := stepState (fun j => { j with launch := some (launchOf2 false), shut := true }) id id
def varied : State := stepState (fun j => { j with launch := some (launchOf2 false), nextPlan := some (2, 9) }) id id
def resolving : State := stepState (fun j => { j with wasReset := true, running := true }) (fun k => { k with run := .run }) id
def receipt1 : Receipt := ⟨3, 0, 8, [(7, 9)], [], 0x54504352⟩
def receiving : State := stepState id id (fun d => { (withMem d) with posts := [⟨7, 0, 9, 8⟩], receipts := [receipt1] })
def rejoining : State := stepState (fun j => { j with rejoin := some 9 }) id id
def is3 (s : State) (p : Job → Bool) : Bool := live s && (s.dev.job 3).any p

theorem witness_StepsStartAndResolve : [true, false].all (fun b => is3 (opened b) (fun j => (opened b).dev.gateOpen 3 j (launchOf2 b) && j.set.isSome)
      && (opened b).dev.cmd 7 == some launchedCmd && launchedCmd.opcode != 0x0601 && (opened b).dev.jobCores 3 == [c0] && !(((opened b).dev.core c0).meFaulty)) = true ∧
    (List.range 96).all (fun p => (opened true).dev.get (LINK_ASSAY_ST_held p) == 0) = true ∧
    is3 shutGate (fun j => !(shutGate.dev.gateOpen 3 j (launchOf2 false))) = true ∧
    is3 varied (fun j => !j.wasReset && !(j.loaded (launchOf2 false)) && varied.dev.allHalted 3 && !(varied.dev.transferring 3)
      && (image1.sets.find? (fun x => x.variant.toNat == 0 && x.plan.toNat == j.planFor 9)).isSome) = true ∧
    is3 resolving (fun j => j.wasReset && resolving.dev.turnsDone j && j.launch.isNone && j.fences.isEmpty) = true ∧ (resolving.dev.core c0).run ≠ .faulted ∧
    (List.range 16).all (fun k => (resolving.dev.clerk k).queue.isEmpty) = true ∧
    is3 receiving (fun j => receiving.dev.receipts.find? (fun r => r.job == 3) == some receipt1 && receiving.dev.posted (j.ctx.getD 0) 8 (7, 9)) = true ∧
    is3 rejoining (fun j => j.rejoin == some 9 && j.step == 8 && rejoining.dev.allHalted 3) = true ∧ rejoining.dev.get WARD_ROSTER_absent_valid = 0 := by decide +kernel

set_option maxRecDepth 20000 in
theorem test_steps : holds (.stepReceipt 3) receiving (fun d => Memory.readN d.hbm (7 * 2 ^ 36 + 5 * 2 ^ 21) 4 == 0x54504352 && d.get WARD_RCPT_HEAD_count == 1) = true ∧
    holds (.rejoinPause 3 [] []) rejoining (fun d => (d.job 3).map (fun j => j.pause) == some true) = true := by decide +kernel

def killing (p : JobPhase) (hold : Bool) : State := host [] (fun d => { ((job 3 (fun j => { j with phase := p, hold := hold }) (withMem d)).upd c0
  (fun k => { k with job := 3, image := ⟨true, 0, [], [], []⟩, mem := [(0, 1), (0xBFFF, 1)] })) with quiet := [65535] })
def faulted (auto : Nat) : State := host [] (fun d => ((job 3 id d).put WARD_RESET_CFG_auto auto).upd ⟨95, 95⟩
  (fun k => { k with run := .faulted, job := 3, step := 4, image := ⟨true, 0, [], [], []⟩ }))
def reportPkt : Packet := ⟨7, 95, 95, 0, 1, 0, 95, 95, 0, 0, 3, 0, 0, [0]⟩
def broken (spares : Bool) : State := host [] (fun d => { ((job 3 id (if spares then (d.put (MESH_ROWMAP_hidden 0) 0x3000000) else d)).upd c0
  (fun k => { k with meFaulty := true, job := 3, image := ⟨true, 0, [], [], []⟩ })) with remaps := [⟨1, 0, 49, ⟨0, 1⟩⟩] })

theorem witness_KillsFaultsAndRemaps : [(JobPhase.drain, true), (.drain, false), (.sram, false), (.hbm, false)].all (fun x => is3 (killing x.1 x.2) (fun j =>
      j.phase == x.1 && j.hold == x.2 && j.killer.isNone && (killing x.1 x.2).dev.killDrained 3 j)) = true ∧ (killing .sram false).dev.jobCores 3 = [c0] ∧
    [0, 1].all (fun a => is3 (faulted a) (fun _ => (faulted a).dev.logical ⟨95, 95⟩ && ((faulted a).dev.core ⟨95, 95⟩).run == .faulted
      && (faulted a).dev.get WARD_RESET_CFG_auto == a && (faulted a).dev.get CLERK_SKIP_en == 0)) = true ∧
    [true, false].all (fun b => live (broken b) && (broken b).dev.logical c0 && ((broken b).dev.core c0).meFaulty && (broken b).dev.allHalted 3
      && (broken b).dev.physOf c0 == (0, 0)) = true ∧
    (broken true).dev.spareFor 0 0 = some 24 ∧ (broken false).dev.spareFor 0 0 = none ∧ (broken true).dev.targeted ((broken true).dev.movers c0 0 24) = false ∧
    (broken true).dev.remaps.filter (fun r => r.row == 1) = [⟨1, 0, 49, ⟨0, 1⟩⟩] := by decide +kernel

theorem test_kills : holds (.sramScrubEnd 3) (killing .sram false) (fun d => (d.core c0).mem.isEmpty && (d.job 3).map (fun j => j.phase) == some .hbm) = true ∧
    holds (.quietEnd 65535) (killing .hbm false) (fun d => d.quiet.isEmpty) = true ∧
    holds (.remap c0) (broken true) (fun d => d.remaps.length == 2) = true ∧ holds (.remapEnd 1) (broken true) (fun d => d.get (MESH_ROWMAP_hidden 1) == 1) = true := by decide +kernel

def unresolved : State := stepState (fun j => { j with launch := some (launchOf2 false), wasReset := true }) (fun k => { k with run := .halted }) id
theorem test_gate_waits : (unresolved.dev.job 3).map (fun j => (unresolved.dev.gateOpen 3 j (launchOf2 false),
      unresolved.dev.gateOpen 3 { j with wasReset := false } (launchOf2 false))) = some (false, true) := by decide +kernel
set_option maxRecDepth 20000 in
theorem test_lost_kills : ((killing .held true).dev.killAll.job 3).map (fun j => j.phase) = some .sram ∧
    ((killing .drain true).dev.killAll.job 3).map (fun j => (j.phase, j.hold)) = some (.drain, false) := by decide +kernel

theorem test_fault_rows : holds (.coreFaultReport reportPkt) (faulted 0) (fun d => d.get ERR_STAT_seq == 1
      && (d.job 3).map (fun j => (j.lost.length, j.wasReset)) == some (1, false)) = true ∧
    (((faulted 1).dev.faultReport reportPkt).job 3).map (fun j => j.wasReset) = some true ∧ ((faulted 1).dev.faultReport reportPkt).tasks.length = 2 := by decide +kernel

def quotaKilled (p : JobPhase) : State := host [cmd 0x0106 3 [(0, 9)]] (job 3 (fun j => { j with phase := p }))
theorem witness_KillsKeepReplies : live (quotaKilled .stop) = true ∧ (quotaKilled .stop).dev.cmd 7 = some (cmd 0x0106 3 [(0, 9)]) ∧
    (quotaKilled .stop).dev.killing 3 = true ∧ (quotaKilled .live).dev.killing 3 = false ∧
    holds (.quotaSet 7) (quotaKilled .drain) (fun d => d.cmds.map (fun c => c.phase) == [.done 0 0 0] && d.out.isEmpty
      && (d.replyDone 3).cmds.isEmpty && (d.replyDone 3).out.length == 2) = true := by decide +kernel
/-! Registers: a device that serves BAR0, with complex 3 running. -/

def awake (s : State) : Bool := !s.dev.inReset && s.dev.tasks.isEmpty
theorem awake_of {s : State} (h : awake s = true) : Awake s := by
  simp only [awake, Bool.and_eq_true, Bool.not_eq_true', List.isEmpty_iff] at h
  exact ⟨h.1, h.2⟩

def mapped0 (l : List (Fld × Nat)) (f : Dev → Dev) : State := dev (fun d => f (l.foldl (fun d p => d.put p.1 p.2)
  { ((d.put PCIE_STAT_ready 1).put (PWR_DOM_state 99) 0).put (BRK_CPX_STAT_state 3) 1 with pcie := ⟨true, true⟩ }))
/-- The selector copies of Naeno name core (95, 95), and bank 1 of its router. -/
def selected : State := mapped0 [] (fun d => ({ d with sel := [(0, 0x5F5F), (1, 0x15F5F)], routers := [((⟨95, 95⟩ : CoreId).key, { RouterRun.reset with on := true, bank := 1 })] }).upd ⟨95, 95⟩
  (fun k => k.put CORE_ACCT_HDR_valid 1))
def selected0 : State := ⟨[], { selected.dev with sel := [(1, 0x5F5F)] }⟩
def enableV (cls log2n func vector : Nat) : BitVec 64 := BitVec.ofNat 64 (1 + cls * 2 ^ 3 + log2n * 2 ^ 6 + func * 2 ^ 10 + vector * 2 ^ 14)
def brokerQueue : State := mapped0 [(WARD_Q_loc 47, 1)] id
/-- Two open records with numbers 8 and 9. -/
def recorded : State := mapped0 [(ERR_REC_record 8, 2 ^ 72 + 8 * 2 ^ 192), (ERR_REC_record 9, 2 ^ 72 + 9 * 2 ^ 192), (ERR_STAT_seq, 9)] id

theorem witness_RegistersAnswerAndTake : [mapped0 [] id, selected, selected0, brokerQueue, recorded].all awake = true ∧ (mapped0 [] id).dev.bar0Serves 0x1030000 = true ∧
    (mapped0 [] id).dev.hartRuns 63 = true ∧ (0x1100048 + 95 * 4096 : Nat) < 2 ^ 26 ∧ 4094 % accessBytes false ≠ 0 ∧
    selected.dev.selValid 0 (selected.dev.selection .naeno 0) = true ∧ (mapped0 [] id).dev.bar0Serves (WARD_Q_en 47).key = true ∧
    [enableV 3 4 15 63, enableV 2 3 15 63, enableV 2 13 15 63, enableV 2 12 15 63].all (fun v => bits v.toNat 0 1 == 1 && bits v.toNat 1 2 == 0) = true ∧
    (mapped0 [] id).dev.get (WARD_Q_en 47) = 0 ∧ brokerQueue.dev.get (WARD_Q_loc 47) = 1 ∧
    selected.dev.selValid 1 (selected.dev.selection .naeno 1) = true ∧ (selected.dev.router ⟨95, 95⟩).on = true ∧ (selected.dev.router ⟨95, 95⟩).bank = 1 ∧
    selected0.dev.selValid 1 (selected0.dev.selection .naeno 1) = true ∧ bits (selected0.dev.selection .naeno 1) 16 1 = 0 := by decide +kernel

theorem test_registers : holds (.queueEnable .pf0 47 (enableV 2 12 15 63)) (mapped0 [] id) (fun d => d.get (WARD_Q_en 47) == 1 && d.get (PCIE_QMAP_vector 47) == 63) = true ∧
    holds (.queueEnable .pf0 47 (enableV 3 12 15 63)) (mapped0 [] id) (fun d => d.get (WARD_Q_en 47) == 0 && d.get (WARD_Q_err 47) == 1) = true ∧
    holds (.scheduleWindowWrite 0x1047FFC false 7) selected (fun d => d.sched.isEmpty) = true ∧
    holds (.scheduleWindowWrite 0x1047FFC false 7) selected0 (fun d => d.sched.map (fun p => p.2) == [7]) = true := by decide +kernel

/-! Boot. -/

/-- A device at a stage of the boot, from flash or host; a host step that runs. -/
def booting (stage src : Nat) (f : Dev → Dev) : State := dev (fun d => f ((d.put BOOT_STAT_stage stage).put BOOT_STRAP_boot_src src))
def stepping (n : Nat) (f : Dev → Dev) : State := booting n 1 (fun d => f ((d.put BOOT_STEP_status 1).put BOOT_STEP_step n))
/-- A Naeno image of one byte. -/
def naeno1 : List Byte := magicNaen ++ [1, 0, 0, 0] ++ toBytes 8 64 ++ toBytes 8 1 ++ List.replicate 40 0 ++ sha384 [7] ++ List.replicate 144 0 ++ [7]
def flashed (d : Dev) : Dev := { d with flash := ⟨some (2 ^ 25), [(1, naeno1)]⟩ }
def auto (d : Dev) : Dev := d.put BOOT_STRAP_link_auto 1
def free' (s : State) : Bool := awake s && s.dev.trip.isNone

theorem witness_BootGoesStageByStage : ([0, 1, 2, 3, 4, 5, 6].all (fun n => free' (booting n 0 auto) && (booting n 0 auto).dev.get BOOT_STAT_stage == n
      && (booting n 0 auto).dev.get BOOT_STRAP_boot_src == 0 && (booting n 0 auto).dev.get BOOT_STEP_status != 1 && (booting n 0 auto).dev.loggedCores.isEmpty
      && ((booting n 0 auto).dev.region 3).isEmpty && ((booting n 0 auto).dev.region 4).isEmpty)) = true ∧
    ([2, 3, 4, 5, 6, 7].all (fun n => free' (stepping n auto) && (stepping n auto).dev.get BOOT_STEP_status == 1 && (stepping n auto).dev.get BOOT_STEP_step == n
      && (stepping n auto).dev.get BOOT_STEP_arg == 0)) = true ∧
    free' (booting 0 1 id) = true ∧ (booting 0 1 id).dev.get BOOT_STRAP_boot_src = 1 ∧
    (booting 0 0 (fun d => { d with flash := ⟨some (2 ^ 25 - 1), []⟩ })).dev.flash.size = some (2 ^ 25 - 1) ∧
    (booting 0 0 auto).dev.get BOOT_STRAP_link_auto = 1 ∧ (stepping 5 auto).dev.get BOOT_STRAP_link_auto = 1 ∧
    (booting 0 1 (fun d => { d with pcie := ⟨true, true⟩ })).dev.naenoRuns = false ∧ (dev (fun d => { d with inReset := true })).dev.tasks = [] := by decide +kernel

/-- The good copy, once a vendor key signs it; the keys are free (log 17). -/
theorem witness_BootGoesStageByStage_copy (h : (booting 0 0 flashed).dev.verifies 0 naeno1 112 112 = true) :
    (booting 0 0 flashed).dev.naenoCheck ((booting 0 0 flashed).dev.region 1) = none ∧ (booting 0 0 flashed).dev.region 1 ≠ [] ∧
    (booting 0 0 flashed).dev.region 2 = [] ∧ (booting 0 0 flashed).dev.flash.size = some (2 ^ 25) := by
  have r : (booting 0 0 flashed).dev.region 1 = naeno1 := by decide +kernel
  have k : at_ naeno1 6 1 = 0 := by decide +kernel
  refine ⟨?_, by decide +kernel, by decide +kernel, by decide +kernel⟩
  rw [r]
  simp only [Dev.naenoCheck, Dev.imageCheck, k, h]
  decide +kernel

theorem test_boot : holds (.bootClocks (some 255)) (booting 1 0 id) (fun d => d.get BOOT_STAT_stage == 15 && d.get BOOT_STAT_detail == 255) = true ∧
    holds (.bootStepHbm 70000 none) (stepping 4 id) (fun d => d.get BOOT_STEP_elapsed == 65535 && d.get (HBM_STAT_state 7) == 1 && d.bootStep == 4) = true := by decide +kernel

/-! Power and clocks. -/

def hotDie : State := booting 8 0 (fun d => { d with trip := some ⟨true, false, false⟩ })
def clocked (cur cap : Nat) (f : Dev → Dev) : State := dev (fun d => f ({ ((d.put CLK_CORE_current cur).put PWR_CAP_CFG_cap cap).put CLK_CORE_target cur with capLimit := 1800 }))
def movingDom : State := clocked 800 2000 (fun d => { d with moves := [(88, [(0, some 7), (3, none)])], cmds := [cmd 0x0802 0 []] })
def bellJob : State := host [] (fun d => (d.put WARD_BELL_CFG_ms 1000).updJob 3 (fun j => { j with launch := some (launchOf2 true) }))

theorem witness_PowerAndClocksFollow : [booting 8 0 id, hotDie, clocked 1800 2000 id, clocked 800 2000 id, movingDom, bellJob].all awake = true ∧
    (booting 8 0 id).dev.trip = none ∧ 920 ≤ (booting 8 0 id).dev.tripSample 63 920 ∧ (booting 8 0 id).dev.tripSample 63 919 < 920 ∧
    (clocked 1800 2000 id).dev.get CLK_CORE_current = (clocked 1800 2000 id).dev.coreGoal.2 ∧
    (clocked 1800 2000 id).dev.get CLK_CORE_floor < (clocked 1800 2000 id).dev.get CLK_CORE_current ∧
    (clocked 800 2000 id).dev.get CLK_CORE_current ≤ (clocked 800 2000 id).dev.get CLK_CORE_floor ∧
    (clocked 800 2000 (fun d => d.put (PWR_DOM_state 15) 0)).dev.dom 15 = 0 ∧
    movingDom.dev.movesOf 88 = [(0, some 7), (3, none)] ∧ movingDom.dev.dom 88 = 3 ∧ bellJob.dev.tasks = [] ∧
    (bellJob.dev.job 3).any (fun j => bellJob.dev.bellArmed 3 j && j.phase == .live) = true := by decide +kernel

theorem test_power : holds (.powerSample 4000) (clocked 1800 2000 id) (fun d => d.capLimit == 900 && d.get PWR_STAT_power == 4000) = true ∧
    holds (.thermalTrip 63 920 920) (booting 8 0 id) (fun d => d.trip == some ⟨true, false, false⟩) = true ∧
    holds (.domainTransitionEnd 80) (clocked 800 2000 (fun d => { d with moves := [(80, [(2, none), (0, none)])] }))
      (fun d => d.dom 80 == 2 && d.movesOf 80 == [(0, none)]) = true := by decide +kernel
/-! The PCIe endpoint: function 15, whose window is the first two pages of stack 7, with queue 47 and job 3. -/

def pcie (l : List (Fld × Nat)) (f : Dev → Dev) : State := mapped0 ([(PCIE_WIN_start 15, 160216), (PCIE_WIN_pages 15, 2), (PCIE_QMAP_valid 47, 1), (PCIE_QMAP_func 47, 15),
  (WARD_Q_log2n 47, 4), (WARD_Q_func 47, 15), (WARD_Q_head 47, 9), (PWR_DOM_state 87, 0)] ++ l) (fun d => f (job 3 (fun j => { j with owner := 47 })
  { d with msixMask := [(15 * 64 + 7, true)], msixPba := [(15 * 64 + 7, true), (63, true)] }))
/-- A Broker complex owns the first line of the window. -/
def heldLine (d : Dev) : Dev := { d with coh := { d.coh with dir := [(7 * 2 ^ 30, some ⟨some 3, [], 4⟩)], allocs := 5 } }

theorem witness_PcieAnswers : [pcie [] id, pcie [] heldLine].all (fun s => awake s && s.dev.pcie.up && s.dev.pcie.perst && s.dev.get PCIE_STAT_ready == 1 && s.dev.windowed.isEmpty
      && s.dev.dom (80 + stackOf (7 * 2 ^ 36)) == 0 && !s.dev.dead) = true ∧
    7 < vectorsOf 15 ∧ 63 < vectorsOf 0 ∧ Tab.get (fun _ => false) (pcie [] id).dev.msixPba (15 * 64 + 7) = true ∧
    (pcie [] id).dev.windowAddr 15 0 = some (7 * 2 ^ 36) ∧ (pcie [] id).dev.windowAddr 15 (2 ^ 22) = none ∧
    (pcie [] id).dev.winReady ⟨15, 7 * 2 ^ 36, 4096, none⟩ = true ∧ (pcie [] id).dev.winReady ⟨15, 7 * 2 ^ 36, 1, some ([7], true)⟩ = true ∧
    (pcie [] heldLine).dev.winReady ⟨15, 7 * 2 ^ 36, 1, some ([7], true)⟩ = false ∧
    ((pcie [] id).dev.get (PCIE_QMAP_valid 47), (pcie [] id).dev.get (PCIE_QMAP_func 47), (pcie [] id).dev.get (PCIE_QMAP_valid 46)) = (1, 15, 0) ∧
    2 ^ (pcie [] id).dev.get (WARD_Q_log2n 47) = 16 ∧ (pcie [] id).dev.queuesOf 15 = [47] ∧ (pcie [] id).dev.jobIds = [3] ∧
    ((pcie [] id).dev.job 3).any (fun j => j.owner == 47 && j.phase == .live) = true := by decide +kernel

theorem witness_PerstLowIsALinkDown : [pcie [] id, dev id].all awake = true ∧ (pcie [] id).dev.pcie.up = true ∧ (dev id).dev.pcie.up = false := by decide +kernel

theorem test_pcie : holds (.pcieConfigRequest 15 (.msixMask 7 false)) (pcie [] id) (fun d => d.out == [.msix 15 7]) = true ∧
    holds (.bar2Access 15 1 0 (some ([7, 8], true))) (pcie [] id) (fun d => Memory.readN d.hbm (7 * 2 ^ 36) 4 == 0x080700) = true ∧
    holds (.bar2Access 15 4095 2 none) (pcie [] id) (fun d => d.out == [.completion none false]) = true ∧
    holds (.doorbell 15 47 0 15) (pcie [] id) (fun d => d.get (WARD_Q_tail 47) == 15) = true ∧
    holds (.flr 15) (pcie [] id) (fun d => d.get (WARD_Q_tail 47) == 9 && d.get (PCIE_QMAP_valid 47) == 1) = true := by decide +kernel

/-! Ethernet port 1, with ring 15 of 16 descriptors in stack 7; every hash names ring 15. -/

def ether (posted : Nat) (f : Dev → Dev) : State := dev (fun d => f ([(ETH_CFG_en 1, 1), (ETH_STAT_link 1, 1), (PWR_DOM_state 101, 0), (PWR_DOM_state 87, 0),
    (ETH_RXR_en 1 0, 1), (ETH_RXR_base 1 0, 7 * 2 ^ 36 + 64), (ETH_RXR_log2n 1 0, 4), (ETH_RXR_head 1 0, 15), (ETH_RXR_tail 1 0, 15 + posted),
    (ETH_TXR_en 1 15, 1), (ETH_TXR_base 1 15, 7 * 2 ^ 36 + 64), (ETH_TXR_log2n 1 15, 4), (ETH_TXR_head 1 15, 15), (ETH_TXR_tail 1 15, 0)].foldl (fun d p => d.put p.1 p.2)
  { d with hbm := Memory.writeN (Memory.writeN [] (7 * 2 ^ 36 + 64 + 240) 16 (7 * 2 ^ 36 + 4096 + 60 * 2 ^ 48 + 0x1234 * 2 ^ 96 + 8 * 2 ^ 112)) (7 * 2 ^ 36 + 4096) 16 0x55AA }))
def frameOf (n : Nat) : List Byte := List.replicate 12 0xFF ++ [0x88, 0xB5] ++ List.replicate (n - 14) 7
def ringV (en log2n base : Nat) : BitVec 64 := BitVec.ofNat 64 (base + log2n * 2 ^ 48 + en * 2 ^ 52)
def noEther : State := dev (fun d => (d.put (PWR_DOM_state 101) 0).put (ETH_RXR_en 1 15) 1)

theorem witness_FramesPass : [ether 0 id, ether 1 id, noEther].all live = true ∧ [ether 0 id, ether 1 id].all (fun s => s.dev.ethRuns 1) = true ∧
    frameFits (frameOf 60).length = true ∧ frameFits 9212 = true ∧ frameFits 59 = false ∧ (ether 0 id).dev.ethPosted 1 0 = 0 ∧ (ether 1 id).dev.ethPosted 1 0 ≠ 0 ∧
    parseSegment (stripTag (frameOf 60)).2 = none ∧ (ether 1 id).dev.receiveAddr 1 0 = (7 * 2 ^ 36 + 304, 7 * 2 ^ 36 + 4096, 60) ∧
    (ether 1 id).dev.ethReaches (7 * 2 ^ 36 + 304) 16 = true ∧ (ether 1 id).dev.ethReaches (7 * 2 ^ 36 + 4096) 60 = true ∧
    (ether 1 id).dev.get (ETH_TXR_en 1 15) = 1 ∧ (ether 1 id).dev.get (ETH_TXR_head 1 15) ≠ (ether 1 id).dev.get (ETH_TXR_tail 1 15) ∧
    noEther.dev.get (ETH_TXR_en 1 15) = 0 ∧ noEther.dev.get (ETH_RXR_en 1 15) = 1 ∧ noEther.dev.dom 101 = 0 ∧
    [4, 12].all (fun n => let v := (ringV 1 n (2 ^ 48 - 64)).toNat
      bits v 0 48 % 64 == 0 && bits v 48 4 == n && bits v 52 1 == 1) = true ∧
    bits (0x0000 : BitVec 64).toNat 0 16 < 2 ^ noEther.dev.get (ETH_RXR_log2n 1 15) := by decide +kernel

/-- A frame without a segment goes to ring 0, whatever the free value is. -/
theorem witness_FramesPass_ring (v : Nat) : ((ether 1 id).dev.parseFrame 1 (frameOf 60) v).ring = 0 := by
  have h : parseSegment (stripTag (frameOf 60)).2 = none := by decide +kernel
  simp [Dev.parseFrame, h]

theorem test_frames : holds (.ethFrameTransmit 1 15) (ether 1 id) (fun d => d.get (ETH_TXR_head 1 15) == 0
      && d.out == [.frame 1 ([0xAA, 0x55] ++ List.replicate 10 0 ++ [0x81, 0, 0x12, 0x34] ++ List.replicate 48 0)]) = true ∧
    holds (.ethFrameReceive 1 (frameOf 60) false) (ether 1 id) (fun d => d.get (ETH_STAT_rx_fcs 1) == 1) = true ∧
    holds (.ethRingWrite .naeno 1 true 15 false (ringV 1 12 (2 ^ 48 - 64))) noEther (fun d => d.get (ETH_TXR_base 1 15) == 2 ^ 48 - 64) = true ∧
    toeplitz (beAt (List.replicate 40 0x6D) 0 40) [0x80] = 0x6D6D6D6D := by decide +kernel

/-! The board management interfaces. -/

def board (f : I3c → I3c) (g : Dev → Dev) : State := dev (fun d => g { d with i3c := f d.i3c, alert := 0xFF })

theorem witness_BoardInterfacesAnswer : [board id id, board (fun x => { x with addr := some 0x7F }) id, board (fun x => { x with busy := true }) id,
      board id (fun d => { d with inReset := true })].all (fun s => s.dev.tasks.isEmpty) = true ∧
    (board id id).dev.inReset = false ∧ (board id id).dev.i3c.addr = none ∧ (board (fun x => { x with addr := some 0x7F }) id).dev.i3c.addr = some 0x7F ∧
    (board id id).dev.i3c.busy = false ∧ (board (fun x => { x with busy := true }) id).dev.i3c.busy = true ∧
    (board id (fun d => { d with inReset := true })).dev.inReset = true := by decide +kernel

theorem test_board : holds (.i3cRegisterAccess (some 0x14) [0x0F] 0) (board id id) (fun d => d.alert == 0xF0) = true ∧
    holds (.i3cRegisterAccess (some 0x7F) [0xA5] 0) (board id id) (fun d => d.i3c.mbox == 0xA5 <<< 504) = true ∧
    holds .getpid (board (fun x => { x with addr := some 0x7F }) id) (fun d => d.out == [.i3cData [0x5C, 0xBA, 0x09, 0x60, 0, 0]]) = true ∧
    holds .extest (board id (fun d => { d with inReset := true })) (fun d => d.jtag.select == 1) = true ∧
    holds .extest (board id id) (fun d => d.jtag.ir == 0xFF) = true := by decide +kernel

/-! Whole steps. -/

theorem witness_StepRunsFront : State.reset.pending = [] ∧ (match step ⟨[.idcode], { Dev.reset with inReset := true }⟩ with | .next t => t.pending.isEmpty | _ => false) = true := by decide +kernel

def stepped : State := ⟨[.bar2Access 15 1 0 (some ([7, 8], true))], (pcie [] id).dev⟩

theorem witness_FusesNeverChange : (∃ t, step stepped = .next t) ∧ stepped.dev.tasks = [] ∧ isFuse FUSE_GRADE_rows.key = true := by
  refine ⟨?_, by decide +kernel, by decide +kernel⟩
  have h : (match step stepped with | .next _ => true | _ => false) = true := by decide +kernel
  revert h
  cases step stepped <;> simp

theorem witness_MemoriesStayCanonical : Memory.wf stepped.dev.hbm ∧ Memory.wf stepped.dev.stage ∧ (∀ c, Memory.wf (stepped.dev.core c).mem) ∧ ∃ t, step stepped = .next t := by
  refine ⟨by decide +kernel, by decide +kernel, ?_, witness_FusesNeverChange.1⟩
  intro c
  have h : stepped.dev.cores = [] := by decide +kernel
  simp only [Dev.core, h, Tab.get]
  decide +kernel
/-! WellFormed refuses a command for each check, just outside its range, and takes the same command at the edge. -/

def edge (x : BitVec 8) : CoreId := ⟨x, 95⟩
def packetOf (n : Nat) : Packet := { reportPkt with payload := List.replicate n 0 }
def imageOf (l : LoadSet) (dims variants : Nat) : Image := { bare with sets := [l], buckets := List.replicate dims [], vars := List.replicate variants [] }
def emptySet : LoadSet := { set1 0 with cores := [] }

/-- Each check, as a command that depends on one number, with the largest that fits. -/
theorem test_wellFormed : (
  [(fun n => .alu (edge (BitVec.ofNat 8 n)) 0, 95), (fun n => .alu ⟨95, BitVec.ofNat 8 n⟩ 0, 95), (fun n => .routerSlot (edge (BitVec.ofNat 8 n)) 0 .clean, 95),
   (fun n => .ackTimer (BitVec.ofNat 7 n), 95), (fun n => .checkEngineRequest (BitVec.ofNat 10 n), 575), (fun n => .remapEnd (BitVec.ofNat 8 n), 191),
   (fun n => .bootStepCores 0 [] [(BitVec.ofNat 8 n, 49)], 191), (fun n => .bootStepCores 0 [] [(191, BitVec.ofNat 6 n)], 49),
   (fun n => .bootCores [BitVec.ofNat 10 n] [] none, 575), (fun n => .creditArrival (packetOf n), 2), (fun n => .ringLockLoss 0 true (BitVec.ofNat 5 n) 0, 17),
   (fun n => .bar2Access 0 0 (BitVec.ofNat 13 n) none, 4096), (fun n => .bar2Access 0 0 0 (some (List.replicate n 0, false)), 4096),
   (fun n => .imageLoad 0 (imageOf (set1 0) n 0), 7), (fun n => .imageLoad 0 (imageOf (set1 0) 0 n), 16),
   (fun n => .imageLoad 0 (imageOf { emptySet with cores := [{ load1 with core := edge (BitVec.ofNat 8 n) }] } 0 0), 95),
   (fun n => .imageLoad 0 (imageOf { emptySet with ports := [(BitVec.ofNat 7 n, 0)] } 0 0), 95),
   (fun n => .telemetryCopy (some (edge (BitVec.ofNat 8 n))), 95), (fun n => .inputEntryReady { entry with cores := [edge (BitVec.ofNat 8 n)] }, 95),
   (fun n => .thermalLimitStep (List.replicate n 0) false, 64), (fun n => .voltageUpdate 0 (List.replicate n 0) 0 0, 4), (fun n => .domainTransitionEnd (BitVec.ofNat 7 n), 101)] : List ((Nat → Instr) × Nat)).all (fun e => (e.1 e.2).wellFormed && !((e.1 (e.2 + 1)).wellFormed)) = true ∧
    (Instr.bootRom ⟨none, [(0, [])]⟩).wellFormed = false ∧ (Instr.bootRom ⟨none, [(1, [])]⟩).wellFormed = true ∧
    (Instr.voltageUpdate 0 [0, 0, 0] 0 0).wellFormed = false := by decide +kernel

theorem test_wellFormed_image :
    (Instr.imageLoad 0 (imageOf { emptySet with routes := [⟨edge 96, [], []⟩] } 0 0)).wellFormed = false ∧
    (Instr.imageLoad 0 (imageOf { emptySet with flows := [{ flow1 with port := 96 }] } 0 0)).wellFormed = false := by decide +kernel
end Sys2Proof.Tests
end

/-! SUPPORT. What an access to a register does: the fields of a piece, places of the map, and the frame of a change of registers alone. -/

namespace Sys2Proof.Machine

/-! Bit fields. -/

theorem bits_lt (v lo w : Nat) : bits v lo w < 2 ^ w := Nat.mod_lt _ (Nat.two_pow_pos w)

@[simp] theorem setBits_zero_width (v lo x : Nat) : setBits v lo 0 x = v := by
  apply Nat.eq_of_testBit_eq
  intro i
  rw [setBits_testBit]
  split
  · rfl
  · rw [if_neg (by omega)]

/-- A field in the low `w` bits of a number reads the same in the number cut to them. -/
theorem bits_mod (v a n w : Nat) (h : a + n ≤ w) : bits (v % 2 ^ w) a n = bits v a n := by
  apply Nat.eq_of_testBit_eq
  intro i
  rw [bits_testBit, bits_testBit, Nat.testBit_mod_two_pow]
  by_cases hi : i < n
  · rw [decide_eq_true (show a + i < w by omega), Bool.true_and]
  · simp [hi]

theorem bits_zero (v w : Nat) : bits v 0 w = v % 2 ^ w := by rw [bits, Nat.pow_zero, Nat.div_one]

/-! The fields of a piece (R8, R446). -/

/-- Two fields share no bit. -/
abbrev FieldDesc.Apart (f g : FieldDesc) : Prop := f.lo + f.w ≤ g.lo ∨ g.lo + g.w ≤ f.lo

/-- A field lies in the `n` bytes from byte `o`. -/
abbrev FieldDesc.Inside (f : FieldDesc) (o n : Nat) : Prop := 8 * o ≤ f.lo ∧ f.lo + f.w ≤ 8 * (o + n)

/-- What a field that held `old` holds after `y` is written to it: its access type acts if the requester may write it. -/
def FieldDesc.written (f : FieldDesc) (may : Bool) (old y : Nat) : Nat :=
  if may = false then old
  else match f.acc with
    | .rw => y
    | .w1c => old - (old &&& y)
    | .w1s => old ||| y
    | _ => old

theorem FieldDesc.written_lt (f : FieldDesc) (may : Bool) {old y w : Nat} (ho : old < 2 ^ w) (hy : y < 2 ^ w) :
    f.written may old y < 2 ^ w := by
  unfold FieldDesc.written
  split
  · exact ho
  · split
    · exact hy
    · omega
    · exact Nat.or_lt_two_pow ho hy
    · exact ho

theorem FieldDesc.written_refused (f : FieldDesc) (old y : Nat) : f.written false old y = old := if_pos rfl

theorem FieldDesc.part_inside {f : FieldDesc} {o n : Nat} (h : f.Inside o n) : f.part o n = (f.lo, f.w) := by
  obtain ⟨hlo, hhi⟩ := h
  simp only [FieldDesc.part, Nat.max_eq_left hlo, Nat.min_eq_left hhi, Nat.add_sub_cancel_left]

theorem setBits_bits_self (v lo w : Nat) : setBits v lo w (bits v lo w) = v := by
  apply Nat.eq_of_testBit_eq
  intro i
  rw [setBits_testBit, bits_testBit]
  split
  · rfl
  · split
    · rw [decide_eq_true (show i - lo < w by omega), Bool.true_and, Nat.add_sub_cancel' (by omega)]
    · rfl

/-- A register after each of its fields `f` took `g f old` for what it held in the `n` bytes from byte `o`, one after the other: the common
form of reads that clear and of writes. -/
def mapFields (g : FieldDesc → Nat → Nat) (o n : Nat) (fs : List FieldDesc) (v : Nat) : Nat :=
  fs.foldl (fun v f => setBits v (f.part o n).1 (f.part o n).2 (g f (bits v (f.part o n).1 (f.part o n).2))) v

section
variable (g : FieldDesc → Nat → Nat) (o n lo w : Nat)

/-- No bit outside the piece changes. -/
theorem bits_mapFields_outside (h : lo + w ≤ 8 * o ∨ 8 * (o + n) ≤ lo) (fs : List FieldDesc) (v : Nat) :
    bits (mapFields g o n fs v) lo w = bits v lo w := by
  refine List.foldlRecOn (motive := fun u => bits u lo w = bits v lo w) _ _ rfl (fun u hu f _ => ?_)
  by_cases hz : (f.part o n).2 = 0
  · rw [hz, setBits_zero_width, hu]
  · rw [bits_setBits_apart _ _ _ _ _ _ (by simp only [FieldDesc.part] at hz ⊢; omega), hu]

/-- No bit changes that lies apart from the fields that take another value. -/
theorem bits_mapFields_apart (fs : List FieldDesc) (v : Nat)
    (h : ∀ f ∈ fs, (lo + w ≤ f.lo ∨ f.lo + f.w ≤ lo) ∨ ∀ old, g f old = old) : bits (mapFields g o n fs v) lo w = bits v lo w := by
  refine List.foldlRecOn (motive := fun u => bits u lo w = bits v lo w) _ _ rfl (fun u hu f hf => ?_)
  rcases h f hf with hf | hf
  · by_cases hz : (f.part o n).2 = 0
    · rw [hz, setBits_zero_width, hu]
    · rw [bits_setBits_apart _ _ _ _ _ _ (by simp only [FieldDesc.part] at hz ⊢; omega), hu]
  · rw [hf, setBits_bits_self, hu]

/-- A field inside the piece takes its value: no other field of the register meets it. -/
theorem bits_mapFields {f : FieldDesc} (hin : f.Inside o n) :
    ∀ (fs : List FieldDesc) (v : Nat), fs.Pairwise FieldDesc.Apart → f ∈ fs →
      bits (mapFields g o n fs v) f.lo f.w = g f (bits v f.lo f.w) % 2 ^ f.w
  | e :: fs, v, hp, hf => by
    obtain ⟨he, hp⟩ := List.pairwise_cons.mp hp
    rw [mapFields, List.foldl_cons, ← mapFields]
    rcases List.mem_cons.mp hf with rfl | hf
    · rw [bits_mapFields_apart _ _ _ _ _ fs _ (fun e hm => .inl (he e hm)), FieldDesc.part_inside hin, bits_setBits_same]
    · rw [bits_mapFields hin fs _ hp hf]
      by_cases hz : (e.part o n).2 = 0
      · rw [hz, setBits_zero_width]
      · have := he f hf
        rw [bits_setBits_apart _ _ _ _ _ _ (by simp only [FieldDesc.part] at hz ⊢; omega)]

end

section
variable (fs : List FieldDesc) (may : FieldDesc → Bool) (v o n x : Nat)

theorem writeFields_eq : writeFields fs may v o n x = mapFields
    (fun f old => f.written (may f) old (bits x ((f.part o n).1 - 8 * o) (f.part o n).2)) o n fs v := by
  refine congrArg (fun step => fs.foldl step v) (funext fun u => funext fun f => ?_)
  dsimp only
  unfold FieldDesc.written
  generalize may f = m
  cases m
  case false => exact (setBits_bits_self ..).symm
  case true =>
    cases f.acc
    case rw | w1c | w1s => rfl
    case ro | wo | rc => exact (setBits_bits_self ..).symm

theorem clearFields_eq : clearFields fs v o n = mapFields (fun f old => if f.acc = .rc then 0 else old) o n fs v := by
  refine congrArg (fun step => fs.foldl step v) (funext fun u => funext fun f => ?_)
  by_cases h : f.acc = .rc
  · simp only [h, if_true]
  · simp only [h, if_false, setBits_bits_self]

/-- A write changes no bit outside its piece. -/
theorem bits_writeFields_outside {lo w : Nat} (h : lo + w ≤ 8 * o ∨ 8 * (o + n) ≤ lo) :
    bits (writeFields fs may v o n x) lo w = bits v lo w := by
  rw [writeFields_eq, bits_mapFields_outside _ _ _ _ _ h]

/-- A write changes no bit that lies apart from the fields that the requester may write. -/
theorem bits_writeFields_apart {lo w : Nat} (h : ∀ f ∈ fs, (lo + w ≤ f.lo ∨ f.lo + f.w ≤ lo) ∨ may f = false) :
    bits (writeFields fs may v o n x) lo w = bits v lo w := by
  rw [writeFields_eq]
  exact bits_mapFields_apart _ _ _ _ _ _ _ (fun f hf => (h f hf).imp id (fun hm old => by rw [hm, FieldDesc.written_refused]))

/-- A field inside the piece takes what its access type makes of the value written. -/
theorem bits_writeFields (f : FieldDesc) (hin : f.Inside o n) (hp : fs.Pairwise FieldDesc.Apart) (hf : f ∈ fs) :
    bits (writeFields fs may v o n x) f.lo f.w = f.written (may f) (bits v f.lo f.w) (bits x (f.lo - 8 * o) f.w) := by
  rw [writeFields_eq, bits_mapFields _ _ _ hin _ _ hp hf, FieldDesc.part_inside hin]
  exact Nat.mod_eq_of_lt (f.written_lt _ (bits_lt ..) (bits_lt ..))

/-- A write by a requester that may write no field of the register leaves it as it is. -/
theorem writeFields_refused (h : ∀ f ∈ fs, may f = false) : writeFields fs may v o n x = v := by
  rw [writeFields_eq]
  exact List.foldlRecOn (motive := fun u => u = v) _ _ rfl
    (fun u hu f hf => by dsimp only; rw [h f hf, FieldDesc.written_refused, setBits_bits_self, hu])

/-- A read clears the RC fields of its piece and no other. -/
theorem bits_clearFields (f : FieldDesc) (hin : f.Inside o n) (hp : fs.Pairwise FieldDesc.Apart) (hf : f ∈ fs) :
    bits (clearFields fs v o n) f.lo f.w = if f.acc = .rc then 0 else bits v f.lo f.w := by
  rw [clearFields_eq, bits_mapFields _ _ _ hin _ _ hp hf]
  split
  · exact Nat.zero_mod _
  · exact Nat.mod_eq_of_lt (bits_lt ..)

end

theorem bits_add_high (x y k : Nat) {lo w : Nat} (h : lo + w ≤ k) : bits (x + y * 2 ^ k) lo w = bits x lo w := by
  rw [← bits_mod (x + y * 2 ^ k) lo w k h, Nat.add_mul_mod_self_right, bits_mod x lo w k h]

theorem bits_add_low (y k : Nat) {x w : Nat} (hx : x < 2 ^ k) (hy : y < 2 ^ w) : bits (x + y * 2 ^ k) k w = y := by
  rw [bits, Nat.add_mul_div_right _ _ (Nat.two_pow_pos k), Nat.div_eq_of_lt hx, Nat.zero_add, Nat.mod_eq_of_lt hy]

/-- What a read of a piece has added up after one more field. -/
def addField (v o n u : Nat) (f : FieldDesc) : Nat :=
  if f.acc = .wo then u else u + bits v (f.part o n).1 (f.part o n).2 * 2 ^ ((f.part o n).1 - 8 * o)

/-- Fields above some bits leave them alone. -/
theorem bits_foldl_addField_below (v o n u lo w : Nat) (fs : List FieldDesc) (hin : ∀ f ∈ fs, f.Inside o n)
    (h : ∀ f ∈ fs, lo + w ≤ f.lo - 8 * o) : bits (fs.foldl (addField v o n) u) lo w = bits u lo w := by
  refine List.foldlRecOn (motive := fun x => bits x lo w = bits u lo w) _ _ rfl (fun x hx f hf => ?_)
  unfold addField
  split
  · exact hx
  · rw [FieldDesc.part_inside (hin f hf), bits_add_high _ _ _ (h f hf), hx]

theorem addField_lt {v o n u : Nat} {f : FieldDesc} (hin : f.Inside o n) (hu : u < 2 ^ (f.lo - 8 * o)) :
    addField v o n u f < 2 ^ (f.lo - 8 * o + f.w) := by
  have hw : 2 ^ (f.lo - 8 * o) ≤ 2 ^ (f.lo - 8 * o + f.w) := Nat.pow_le_pow_right (by decide) (Nat.le_add_right ..)
  unfold addField
  split
  · omega
  · rw [FieldDesc.part_inside hin]
    calc u + bits v f.lo f.w * 2 ^ (f.lo - 8 * o) < (bits v f.lo f.w + 1) * 2 ^ (f.lo - 8 * o) := by
          rw [Nat.add_mul, Nat.one_mul, Nat.add_comm]
          exact Nat.add_lt_add_left hu _
      _ ≤ 2 ^ f.w * 2 ^ (f.lo - 8 * o) := Nat.mul_le_mul_right _ (bits_lt ..)
      _ = 2 ^ (f.lo - 8 * o + f.w) := by rw [Nat.pow_add, Nat.mul_comm]

/-- A read of a piece, taken on from `u` below the fields to come, answers each field that can be read in its place. -/
theorem bits_foldl_addField (v o n : Nat) {f : FieldDesc} (hr : f.acc ≠ .wo) : ∀ (fs : List FieldDesc) (u : Nat),
    fs.Pairwise (fun e g => e.lo + e.w ≤ g.lo) → (∀ e ∈ fs, e.Inside o n) → (∀ e ∈ fs, u < 2 ^ (e.lo - 8 * o)) → f ∈ fs →
      bits (fs.foldl (addField v o n) u) (f.lo - 8 * o) f.w = bits v f.lo f.w
  | e :: fs, u, hp, hin, hu, hf => by
    obtain ⟨he, hps⟩ := List.pairwise_cons.mp hp
    obtain ⟨hine, hins⟩ := List.forall_mem_cons.mp hin
    have hue := hu e List.mem_cons_self
    rw [List.foldl_cons]
    rcases List.mem_cons.mp hf with rfl | hf
    · rw [bits_foldl_addField_below _ _ _ _ _ _ fs hins (fun g hg => by have := he g hg; omega), addField, if_neg hr,
        FieldDesc.part_inside hine, bits_add_low _ _ hue (bits_lt ..)]
    · refine bits_foldl_addField v o n hr fs _ hps hins (fun g hg => ?_) hf
      have := he g hg
      exact Nat.lt_of_lt_of_le (addField_lt hine hue) (Nat.pow_le_pow_right (by decide) (by omega))

/-- A read of a piece answers each field that can be read in its place. -/
theorem bits_readFields (fs : List FieldDesc) (v o n : Nat) (f : FieldDesc) (hr : f.acc ≠ .wo)
    (hp : fs.Pairwise (fun e g => e.lo + e.w ≤ g.lo)) (hin : ∀ e ∈ fs, e.Inside o n) (hf : f ∈ fs) :
    bits (readFields fs v o n) (f.lo - 8 * o) f.w = bits v f.lo f.w :=
  bits_foldl_addField v o n hr fs 0 hp hin (fun _ _ => Nat.two_pow_pos _) hf

/-! Places (R443, R449). -/

theorem placeOf_map {a : Nat} (h : 0x10C0000 ≤ a) : placeOf a = .map := by
  unfold placeOf
  rw [if_neg (by omega), if_neg (by omega), if_neg (by omega), if_neg (by omega), if_neg (by omega), if_neg (by omega)]

theorem placeOf_sched {a : Nat} (h1 : 0x1044000 ≤ a) (h2 : a < 0x1048000) : placeOf a = .sched (a - 0x1044000) := by
  unfold placeOf
  rw [if_neg (by omega), if_neg (by omega), if_neg (by omega), if_neg (by omega), if_pos ⟨h1, h2⟩]

/-- The fuses and the factory calibration lie below the other registers (R443). -/
theorem isFuse_above {a : Nat} (h : 0x1020000 ≤ a) : isFuse a = false := by
  unfold isFuse
  rw [decide_eq_false (show ¬a < 0x1020000 by omega), Bool.and_false, Bool.false_and]

/-! A change of registers alone. -/

/-- The device `e` is `d` with other registers. -/
def Dev.SameButRegs (d e : Dev) : Prop := { e with regs := d.regs } = d

namespace Dev.SameButRegs

variable {d e : Dev}

theorem frame (h : d.SameButRegs e) : { e with regs := d.regs } = d := h

theorem refl (d : Dev) : d.SameButRegs d := rfl

theorem setReg (h : d.SameButRegs e) (a v : Nat) : d.SameButRegs (e.setReg a v) := by
  unfold Dev.setReg
  split
  · exact h
  · exact h

theorem put (h : d.SameButRegs e) (f : Fld) (v : Nat) : d.SameButRegs (e.put f v) := h.setReg _ _

theorem tasks (h : d.SameButRegs e) : e.tasks = d.tasks := (congrArg Dev.tasks h.frame :)

theorem fuse (h : d.SameButRegs e) : e.fuse = d.fuse := (congrArg Dev.fuse h.frame :)

theorem out (h : d.SameButRegs e) : e.out = d.out := (congrArg Dev.out h.frame :)

/-- An output beside a change of registers. -/
theorem emit_frame (h : d.SameButRegs e) (x : Out) : { e.emit x with regs := d.regs, out := d.out } = d :=
  (congrArg (fun e : Dev => { e with out := d.out }) h.frame :)

theorem countOpen (h : d.SameButRegs e) : d.SameButRegs e.countOpen := (((((h.put _ _).put _ _).put _ _).put _ _).put _ _).put _ _

/-- A list of changes of registers. -/
theorem foldl {α : Type} (f : Dev → α → Dev) (hf : ∀ {e : Dev} (x : α), d.SameButRegs e → d.SameButRegs (f e x)) (l : List α)
    (h : d.SameButRegs e) : d.SameButRegs (l.foldl f e) := List.foldlRecOn l f h (fun _ he x _ => hf x he)

end Dev.SameButRegs

/-- A register that a write does not name. -/
theorem Dev.reg_put_ne (d : Dev) (f : Fld) (v : Nat) {a : Nat} (h : a ≠ f.key) : (d.put f v).reg a = d.reg a := by
  rw [Dev.put, Dev.reg_setReg, if_neg (fun e => h e.1)]

/-- A field of a register that was stored. -/
theorem Dev.get_setReg (d : Dev) (v : Nat) {a : Nat} {f : Fld} (hk : f.key = a) (h : isFuse a = false) :
    (d.setReg a v).get f = bits v f.lo f.w := by
  rw [Dev.get, Dev.reg_setReg, if_pos ⟨hk, h⟩]

theorem Dev.reg_setReg_ne (d : Dev) (v : Nat) {a b : Nat} (h : b ≠ a) : (d.setReg a v).reg b = d.reg b := by
  rw [Dev.reg_setReg, if_neg (fun e => h e.1)]

/-! Accesses (R309, R351). -/

section
variable (d : Dev) {a n x : Nat}

theorem Dev.access_naeno_write (h : a % n = 0) : d.access .naeno a n (some x) = d.writeReg .naeno a n x := by
  simp only [Dev.access, if_pos h]

theorem Dev.access_pf0_write (hu : d.pcie.up = true) (h : a % n = 0) (hs : d.bar0Serves a = true) :
    d.access .pf0 a n (some x) = d.writeReg .pf0 a n x := by
  simp only [Dev.access, hu, h, hs, Bool.true_eq_false, if_false, ne_eq, not_true, if_true]

theorem Dev.access_hart_write {h : BitVec 6} (hr : d.hartRuns h.toNat = true) (ha : a % n = 0) (hf : hartFaults a true = false) :
    d.access (.hart h) a n (some x) = d.writeReg (.hart h) a n x := by
  simp only [Dev.access, hr, ha, Option.isSome_some, hf, Bool.true_eq_false, Bool.false_eq_true, if_false, ne_eq, not_true, or_self]

/-- A misaligned access of PF0 is an Unsupported Request, which counts (R309). -/
theorem Dev.access_pf0_misaligned (hu : d.pcie.up = true) (h : a % n ≠ 0) (w : Option Nat) :
    d.access .pf0 a n w = (d.bump PCIE_ERR_bad_acc 1).emit (.completion none false) := by
  simp only [Dev.access, hu, Bool.true_eq_false, if_false, if_pos h]

theorem Dev.writeReg_four (who : Requester) : d.writeReg who a 4 x = d.writePiece who a 4 (x % 2 ^ 32) := rfl

theorem Dev.writePiece_map {k : Nat} {r : RegDesc} (who : Requester) (hp : placeOf a = .map)
    (hf : findReg (fuseTable ++ regTable) a = some (k, r)) : d.writePiece who a n x = d.writeMap who k r.fields (a - k) n x := by
  simp only [Dev.writePiece, hp, hf]

end

/-- A command on a device outside reset whose change raises no error and leaves the fuses. -/
theorem onLive_eq {s : State} {f : Dev → Dev} {e : Dev} (hs : Awake s) (he : f s.dev = e) (ht : e.tasks = s.dev.tasks)
    (hf : e.fuse = s.dev.fuse) : s.onLive f = .next ⟨s.pending, e⟩ := by
  subst he
  exact onLive_calm s f hs (ht.trans hs.calm) hf

/-- A command that changes registers alone. -/
theorem onLive_regs {s : State} {f : Dev → Dev} {e : Dev} (hs : Awake s) (he : f s.dev = e) (h : s.dev.SameButRegs e) :
    s.onLive f = .next ⟨s.pending, e⟩ := onLive_eq hs he h.tasks h.fuse

/-- A command that changes registers and answers on the bus. -/
theorem onLive_regs_emit {s : State} {f : Dev → Dev} {e : Dev} {x : Out} (hs : Awake s) (he : f s.dev = e.emit x)
    (h : s.dev.SameButRegs e) : s.onLive f = .next ⟨s.pending, e.emit x⟩ := onLive_eq hs he h.tasks h.fuse

end Sys2Proof.Machine

/-! SUPPORT. The registers of O51: what each access makes of its register. -/

namespace Sys2Proof.Machine

/-! The registers that the statement names, as rows of the map (23_register_map.md): each is what a lookup of its address finds. -/

def clkCoreReg : RegDesc := ⟨0x1030000, [], 8, [⟨0, 12, .rw, 1500, .pf0⟩, ⟨12, 12, .ro, 0, .naeno⟩, ⟨24, 12, .ro, 800, .naeno⟩]⟩

def linkRetryReg : RegDesc :=
  ⟨0x1100048, [(4096, 96)], 4, [⟨0, 16, .rc, 0, .naeno⟩, ⟨16, 8, .rc, 0, .naeno⟩, ⟨24, 2, .ro, 0, .naeno⟩, ⟨26, 2, .ro, 0, .naeno⟩]⟩

def wardQReg : RegDesc :=
  ⟨0x11A1000, [(32, 64)], 32,
    [⟨0, 1, .rw, 0, .queue⟩, ⟨1, 2, .rw, 0, .queue⟩, ⟨3, 2, .rw, 0, .queue⟩, ⟨5, 1, .rw, 0, .queue⟩, ⟨6, 4, .rw, 0, .queue⟩,
     ⟨10, 4, .rw, 0, .queue⟩, ⟨14, 6, .rw, 0, .queue⟩, ⟨20, 8, .rw, 16, .queue⟩, ⟨28, 4, .ro, 0, .queue⟩, ⟨32, 7, .rw, 0, .queue⟩,
     ⟨64, 64, .rw, 0, .queue⟩, ⟨128, 64, .rw, 0, .queue⟩, ⟨192, 16, .rw, 0, .queue⟩, ⟨208, 16, .ro, 0, .queue⟩,
     ⟨224, 16, .ro, 0, .queue⟩, ⟨240, 16, .ro, 0, .queue⟩]⟩

def errAckReg : RegDesc := ⟨0x11E0010, [], 4, [⟨0, 32, .wo, 0, .pf0AndHarts⟩]⟩

def acctHdrReg : RegDesc :=
  ⟨0x600, [], 4, [⟨0, 16, .ro, 0, .naeno⟩, ⟨16, 4, .ro, 0, .naeno⟩, ⟨24, 1, .w1c, 0, .pf0AndHarts⟩, ⟨25, 1, .w1c, 0, .pf0AndHarts⟩,
    ⟨26, 1, .w1c, 0, .pf0AndHarts⟩]⟩

theorem findReg_clkCore : findReg (fuseTable ++ regTable) 0x1030000 = some (0x1030000, clkCoreReg) := by decide +kernel
theorem findReg_errAck : findReg (fuseTable ++ regTable) 0x11E0010 = some (0x11E0010, errAckReg) := by decide +kernel
theorem findReg_acctHdr : findReg winTable 0x600 = some (0x600, acctHdrReg) := by decide +kernel
theorem findReg_linkRetry :
    ∀ p < 96, findReg (fuseTable ++ regTable) (0x1100048 + p * 4096) = some (0x1100048 + p * 4096, linkRetryReg) := by decide +kernel
theorem findReg_wardQ : ∀ q < 64, ∀ o ∈ [0, 24],
    findReg (fuseTable ++ regTable) (0x11A1000 + q * 32 + o) = some (0x11A1000 + q * 32, wardQReg) := by decide +kernel

/-! CLK_CORE (R413, R446). -/

/-- A write to CLK_CORE stores the fields that the requester may write. -/
theorem Dev.writeReg_clkCore (d : Dev) (who : Requester) (x : Nat) :
    d.writeReg who 0x1030000 4 x = d.setReg 0x1030000
      (writeFields clkCoreReg.fields (fun f => mayWrite who f.writers) (d.reg 0x1030000) 0 4 (x % 2 ^ 32)) := by
  have hports : (List.range 96).any (fun p => (LINK_PORT_CFG_valid p).key == 0x1030000 && !(d.portOn p)) = false := by
    rw [List.any_eq_false]
    intro p _
    have : (LINK_PORT_CFG_valid p).key ≠ 0x1030000 := by simp only [LINK_PORT_CFG_valid]; omega
    simp [this]
  rw [Dev.writeReg_four, Dev.writePiece_map _ _ (by decide) findReg_clkCore, Dev.writeMap, if_neg (by decide), if_neg (by decide),
    if_neg (by decide), if_neg (by decide), if_neg (by decide), if_neg (by decide), if_neg (by decide), hports,
    if_neg Bool.false_ne_true]

/-- What CLK_CORE holds after a write of PF0: the target alone is new. -/
theorem bits_clkCore_pf0 (v x : Nat) :
    let w := writeFields clkCoreReg.fields (fun f => mayWrite .pf0 f.writers) v 0 4 (x % 2 ^ 32)
    bits w 0 12 = x % 2 ^ 12 ∧ bits w 12 12 = bits v 12 12 ∧ bits w 24 12 = bits v 24 12 := by
  refine ⟨?_, ?_, ?_⟩
  · rw [bits_writeFields _ _ v 0 4 _ ⟨0, 12, .rw, 1500, .pf0⟩ (by decide) (by decide) (by decide)]
    exact (bits_mod x 0 12 32 (by decide)).trans (bits_zero x 12)
  · exact bits_writeFields_apart _ _ v 0 4 _ (by decide)
  · exact bits_writeFields_apart _ _ v 0 4 _ (by decide)

/-! LINK_RETRY (R8, R305). -/

theorem Dev.access_naeno_read (d : Dev) {a n : Nat} (h : a % n = 0) :
    d.access .naeno a n none = (d.readReg .naeno a n).2.emit (.completion (some (d.readReg .naeno a n).1) false) := by
  simp only [Dev.access, if_pos h]

/-- The computed registers are those of the step gate, the power domains and the clock: every other register reads as stored. -/
theorem Dev.reg_shown (d : Dev) {a : Nat} (hg : a ≠ WARD_STEP_GATE_drained.key) (hd : ∀ n < 102, a ≠ (PWR_DOM_held n).key)
    (hc : a ≠ CLK_STAT_limit.key) : d.shown.reg a = d.reg a := by
  have gate : d.showGate.reg a = d.reg a := by
    have ht : a ≠ WARD_STEP_GATE_turn_wait.key := hg
    have hv : a ≠ WARD_STEP_GATE_variant_wait.key := hg
    unfold Dev.showGate
    split
    · rw [Dev.reg_put_ne _ _ _ hv, Dev.reg_put_ne _ _ _ ht, Dev.reg_put_ne _ _ _ hg]
    · dsimp only
      rw [Dev.reg_put_ne _ _ _ hv, Dev.reg_put_ne _ _ _ ht, Dev.reg_put_ne _ _ _ hg]
  have domains : d.showGate.showDomains.reg a = d.reg a := by
    refine List.foldlRecOn (motive := fun e : Dev => e.reg a = d.reg a) _ _ gate (fun e he n hn => ?_)
    have hh := hd n (List.mem_range.mp hn)
    have hj : a ≠ (PWR_DOM_job n).key := hh
    rw [Dev.reg_put_ne _ _ _ hj, Dev.reg_put_ne _ _ _ hh, he]
  exact (Dev.reg_put_ne _ _ _ hc).trans domains

/-- A read of LINK_RETRY answers its four fields and clears the two counts. -/
theorem Dev.access_linkRetry (d : Dev) {p : Nat} (hp : p < 96) :
    d.access .naeno (0x1100048 + p * 4096) 4 none =
      (((d.setReg (0x1100048 + p * 4096) (clearFields linkRetryReg.fields (d.reg (0x1100048 + p * 4096)) 0 4))).emit
        (.completion (some (readFields linkRetryReg.fields (d.reg (0x1100048 + p * 4096)) 0 4)) false)) := by
  have hread : d.readReg .naeno (0x1100048 + p * 4096) 4 = (readFields linkRetryReg.fields (d.reg (0x1100048 + p * 4096)) 0 4,
      d.setReg (0x1100048 + p * 4096) (clearFields linkRetryReg.fields (d.reg (0x1100048 + p * 4096)) 0 4)) := by
    have hs : d.shown.reg (0x1100048 + p * 4096) = d.reg (0x1100048 + p * 4096) :=
      d.reg_shown (by simp only [WARD_STEP_GATE_drained]; omega) (fun n hn => by simp only [PWR_DOM_held]; omega)
        (by simp only [CLK_STAT_limit]; omega)
    simp only [Dev.readReg, Dev.readPiece, placeOf_map (show 0x10C0000 ≤ 0x1100048 + p * 4096 by omega), findReg_linkRetry p hp, hs,
      Nat.sub_self]
    rfl
  rw [Dev.access_naeno_read d (by omega), hread]

/-- What a read of LINK_RETRY answers: each count in its place. -/
theorem bits_readFields_linkRetry (v : Nat) :
    bits (readFields linkRetryReg.fields v 0 4) 0 16 = bits v 0 16 ∧ bits (readFields linkRetryReg.fields v 0 4) 16 8 = bits v 16 8 :=
  ⟨bits_readFields _ v 0 4 ⟨0, 16, .rc, 0, .naeno⟩ (by decide) (by decide) (by decide) (by decide),
    bits_readFields _ v 0 4 ⟨16, 8, .rc, 0, .naeno⟩ (by decide) (by decide) (by decide) (by decide)⟩

/-- What LINK_RETRY holds after the read: the counts are zero, the spares as before. -/
theorem bits_clearFields_linkRetry (v : Nat) :
    let w := clearFields linkRetryReg.fields v 0 4
    bits w 0 16 = 0 ∧ bits w 16 8 = 0 ∧ bits w 24 2 = bits v 24 2 :=
  ⟨bits_clearFields _ v 0 4 ⟨0, 16, .rc, 0, .naeno⟩ (by decide) (by decide) (by decide),
    bits_clearFields _ v 0 4 ⟨16, 8, .rc, 0, .naeno⟩ (by decide) (by decide) (by decide),
    bits_clearFields _ v 0 4 ⟨24, 2, .ro, 0, .naeno⟩ (by decide) (by decide) (by decide)⟩

/-! The account of a core (R203). -/

/-- A release of the account writes 1 to `valid` of the selected core's header. -/
theorem Dev.access_accountRelease (d : Dev) (hv : d.selValid 0 (d.selection .naeno 0) = true) :
    d.access .naeno (0x1062000 + CORE_ACCT_HDR_valid.key) 4 (some (2 ^ CORE_ACCT_HDR_valid.lo)) =
      d.upd (selCore (d.selection .naeno 0)) (fun k =>
        k.putReg 0x600 (writeFields acctHdrReg.fields (fun f => mayWrite .naeno f.writers) (k.reg 0x600) 0 4 (2 ^ 24))) := by
  have hp : placeOf (0x1062000 + CORE_ACCT_HDR_valid.key) = .core 0x600 := by decide
  rw [Dev.access_naeno_write d (by decide), Dev.writeReg_four, Dev.writePiece, hp]
  simp only [hv, if_true, Dev.writeWindow, findReg_acctHdr]
  rfl

/-- The header of the account after a release: `valid` is cleared, `ovr` stays. -/
theorem bits_acctHdr (v : Nat) :
    let w := writeFields acctHdrReg.fields (fun f => mayWrite .naeno f.writers) v 0 4 (2 ^ 24)
    bits w 24 1 = 0 ∧ bits w 25 1 = bits v 25 1 := by
  refine ⟨?_, ?_⟩
  · rw [bits_writeFields _ _ v 0 4 _ ⟨24, 1, .w1c, 0, .pf0AndHarts⟩ (by decide) (by decide) (by decide)]
    have h := bits_lt v 24 1
    generalize bits v 24 1 = b at *
    obtain rfl | rfl : b = 0 ∨ b = 1 := by omega
    · rfl
    · rfl
  · rw [bits_writeFields _ _ v 0 4 _ ⟨25, 1, .w1c, 0, .pf0AndHarts⟩ (by decide) (by decide) (by decide)]
    have h := bits_lt v 25 1
    generalize bits v 25 1 = b at *
    obtain rfl | rfl : b = 0 ∨ b = 1 := by omega
    · rfl
    · rfl

theorem Core.reg_putReg (k : Core) (a v : Nat) : (k.putReg a v).reg a = v := Tab.get_set_same ..

/-! The schedule window (R449). -/

theorem Dev.access_schedWindow (d : Dev) {o : Nat} (ho : o < 4096) (x : Nat) :
    d.access .naeno (0x1044000 + 4 * o) 4 (some x) = d.writeSched .naeno (4 * o) (x % 2 ^ 32) := by
  rw [Dev.access_naeno_write d (by omega), Dev.writeReg_four, Dev.writePiece, placeOf_sched (by omega) (by omega), Nat.add_sub_cancel_left]

/-! Queues (R325, R326). -/

theorem WARD_Q_key (q : Nat) : (WARD_Q_en q).key = 0x11A1000 + q * 32 := rfl

/-- What a write of a piece makes of WARD_Q_n of a queue whose enable was `en`: the configuration first, then the tail, which is writable
where the queue is a Broker's. -/
def queueConfig (en : Bool) (old o n x : Nat) : Nat :=
  writeFields wardQReg.fields (fun f => f.lo == 0 || (!en && f.lo != 192)) old o n x

def queueValue (en : Bool) (old o n x : Nat) : Nat :=
  writeFields wardQReg.fields (fun f => f.lo == 192 && bits (queueConfig en old o n x) 1 2 == 1) (queueConfig en old o n x) o n x

/-- An aligned access to WARD_Q_n at one of the places that software writes goes to the queue. -/
theorem Dev.writePiece_wardQ (d : Dev) (who : Requester) {q o : Nat} (n x : Nat) (hq : q < 48) (ho : o ∈ [0, 24]) :
    d.writePiece who (0x11A1000 + q * 32 + o) n x = d.queueReg who q wardQReg.fields o n x := by
  rw [Dev.writePiece_map d who (placeOf_map (by omega)) (findReg_wardQ q (by omega) o ho), Dev.writeMap,
    if_neg (by simp only [ERR_ACK_seq]; omega), if_pos (by omega), Nat.add_sub_cancel_left, Nat.add_sub_cancel_left,
    Nat.mul_div_cancel _ (by decide)]

theorem bits_queueValue_apart {old o n x lo w : Nat} (en : Bool) (h : lo + w ≤ 8 * o ∨ 8 * (o + n) ≤ lo) :
    bits (queueValue en old o n x) lo w = bits old lo w := by
  rw [queueValue, bits_writeFields_outside _ _ _ _ _ _ h, queueConfig, bits_writeFields_outside _ _ _ _ _ _ h]

/-- A write of the first 8 bytes of a queue that is not enabled configures it. -/
theorem bits_queueValue_head (old x : Nat) (f : FieldDesc) (hf : f ∈ wardQReg.fields) (hin : f.Inside 0 8) (hacc : f.acc = .rw) :
    bits (queueValue false old 0 8 x) f.lo f.w = bits x f.lo f.w := by
  have hlo : f.lo ≠ 192 := by have := hin.2; omega
  rw [queueValue, bits_writeFields _ _ _ 0 8 _ f hin (by decide) hf, beq_false_of_ne hlo, Bool.false_and, FieldDesc.written_refused,
    queueConfig, bits_writeFields _ _ _ 0 8 _ f hin (by decide) hf, bne_iff_ne.mpr hlo, Bool.not_false, Bool.and_true, Bool.or_true,
    FieldDesc.written, if_neg (by decide), hacc, Nat.mul_zero, Nat.sub_zero]

/-- A write of the tail of a Broker queue changes the tail alone of what a piece of 4 bytes there covers (R325). -/
theorem bits_queueValue_tail (en : Bool) (old x : Nat) (hloc : bits old 1 2 = 1) :
    bits (queueValue en old 24 4 x) 192 16 = bits x 0 16 ∧ bits (queueValue en old 24 4 x) 208 16 = bits old 208 16 := by
  have hcfg : bits (queueConfig en old 24 4 x) 1 2 = 1 := by rw [queueConfig, bits_writeFields_outside _ _ _ _ _ _ (by decide), hloc]
  constructor
  · rw [queueValue, bits_writeFields _ _ _ 24 4 _ ⟨192, 16, .rw, 0, .queue⟩ (by decide) (by decide) (by decide), hcfg]
    rfl
  · rw [queueValue, bits_writeFields _ _ _ 24 4 _ ⟨208, 16, .ro, 0, .queue⟩ (by decide) (by decide) (by decide), queueConfig,
      bits_writeFields _ _ _ 24 4 _ ⟨208, 16, .ro, 0, .queue⟩ (by decide) (by decide) (by decide)]
    cases en <;> rfl

/-- The device after a queue is enabled with the value `v`: the queue's err is 0 and its PCIE_QMAP is filled (R326). -/
def Dev.queueOn (d : Dev) (q v : Nat) : Dev :=
  (((d.setReg (0x11A1000 + q * 32) (setBits v 28 4 0)).put (PCIE_QMAP_valid q) (if bits v 1 2 = 0 then 1 else 0)).put (PCIE_QMAP_func q)
    (bits v 10 4)).put (PCIE_QMAP_vector q) (bits v 14 6)

/-- The device after the enabling of a queue with the value `v` is refused with err `e` (R326). -/
def Dev.queueRefused (d : Dev) (q v e : Nat) : Dev := d.setReg (0x11A1000 + q * 32) (setBits (setBits v 0 1 0) 28 4 e)

/-- PF0 enables a queue that is not enabled: its fields are taken over, or the first of them that is wrong gives err (R326). -/
theorem Dev.queueReg_enable (d : Dev) {q x : Nat} (hq : q < 48) (hen : d.get (WARD_Q_en q) = 0) (hx : bits x 0 1 = 1) :
    d.queueReg .pf0 q wardQReg.fields 0 8 x =
      let v := queueValue false (d.reg (0x11A1000 + q * 32)) 0 8 x
      if queueError false false v ≠ 0 then d.queueRefused q v (queueError false false v) else d.queueOn q v := by
  have h0 : bit (d.reg (0x11A1000 + q * 32)) 0 = false := by
    have hen : bits (d.reg (0x11A1000 + q * 32)) 0 1 = 0 := hen
    rw [bit, hen]
    rfl
  have h1 : bit (queueValue false (d.reg (0x11A1000 + q * 32)) 0 8 x) 0 = true := by
    rw [bit, bits_queueValue_head _ x ⟨0, 1, .rw, 0, .queue⟩ (by decide) (by decide) rfl, hx]
    rfl
  have hn : ¬ (q = 63 ∨ (48 ≤ q ∧ decide (Requester.pf0 = .naeno) = false)) := by omega
  rw [Dev.queueReg, WARD_Q_key, if_neg hn, if_neg (by omega), h0, if_neg (fun e => absurd e.1 Bool.false_ne_true)]
  · exact if_pos ⟨rfl, h1⟩
  · exact nofun

/-- A running hart writes into the tail of a Broker queue what the piece of 4 bytes takes. -/
theorem Dev.queueReg_tail (d : Dev) (h : BitVec 6) {q x : Nat} (hq : q < 48) (hloc : d.get (WARD_Q_loc q) = 1) :
    d.queueReg (.hart h) q wardQReg.fields 24 4 x = d.setReg (0x11A1000 + q * 32)
      (queueValue (bit (d.reg (0x11A1000 + q * 32)) 0) (d.reg (0x11A1000 + q * 32)) 24 4 x) := by
  have hl : bits (d.reg (0x11A1000 + q * 32)) 1 2 = 1 := hloc
  have hb : bit (queueValue (bit (d.reg (0x11A1000 + q * 32)) 0) (d.reg (0x11A1000 + q * 32)) 24 4 x) 0
      = bit (d.reg (0x11A1000 + q * 32)) 0 := by
    rw [bit, bits_queueValue_apart _ (by decide), bit]
  have hn : ¬ (q = 63 ∨ (48 ≤ q ∧ decide (Requester.hart h = .naeno) = false)) := by omega
  rw [Dev.queueReg, WARD_Q_key, if_neg hn, if_neg (by omega), hl, if_neg (by simp)]
  exact if_neg (fun e => Bool.false_ne_true (e.1.symm.trans (hb.symm.trans e.2)))

theorem Dev.SameButRegs.queueOn (d : Dev) (q v : Nat) : d.SameButRegs (d.queueOn q v) :=
  ((((Dev.SameButRegs.refl d).setReg _ _).put _ _).put _ _).put _ _

/-- The queue's own register after it is enabled. -/
theorem Dev.get_queueOn (d : Dev) {q : Nat} (v : Nat) (f : Fld) (hq : q < 48) (hf : f.key = 0x11A1000 + q * 32) :
    (d.queueOn q v).get f = bits (setBits v 28 4 0) f.lo f.w := by
  have hk : f.key ≠ 0x1190100 + q * 4 := by omega
  rw [Dev.queueOn, Dev.get_put_apart _ _ _ _ (.inl hk), Dev.get_put_apart _ _ _ _ (.inl hk), Dev.get_put_apart _ _ _ _ (.inl hk),
    Dev.get_setReg _ _ hf (isFuse_above (by omega))]

/-- PCIE_QMAP of a host queue after it is enabled. -/
theorem Dev.get_queueOn_map (d : Dev) {q v : Nat} (hloc : bits v 1 2 = 0) :
    (d.queueOn q v).get (PCIE_QMAP_valid q) = 1 ∧ (d.queueOn q v).get (PCIE_QMAP_func q) = bits v 10 4
      ∧ (d.queueOn q v).get (PCIE_QMAP_vector q) = bits v 14 6 := by
  have hk : isFuse (0x1190100 + q * 4) = false := isFuse_above (by omega)
  rw [Dev.queueOn, if_pos hloc]
  refine ⟨?_, ?_, ?_⟩
  · rw [Dev.get_put_apart _ _ _ _ (.inr (.inl (by simp [PCIE_QMAP_valid, PCIE_QMAP_vector]))),
      Dev.get_put_apart _ _ _ _ (.inr (.inl (by simp [PCIE_QMAP_valid, PCIE_QMAP_func]))), Dev.get_put_same _ _ _ hk]
    rfl
  · rw [Dev.get_put_apart _ _ _ _ (.inr (.inl (by simp [PCIE_QMAP_func, PCIE_QMAP_vector]))), Dev.get_put_same _ _ _ hk]
    exact Nat.mod_eq_of_lt (bits_lt ..)
  · rw [Dev.get_put_same _ _ _ hk]
    exact Nat.mod_eq_of_lt (bits_lt ..)

/-- The queue's register after it is refused with err `e`. -/
theorem Dev.get_queueRefused (d : Dev) (q v : Nat) {e : Nat} (he : e < 16) :
    (d.queueRefused q v e).get (WARD_Q_en q) = 0 ∧ (d.queueRefused q v e).get (WARD_Q_err q) = e := by
  have hk : isFuse (0x11A1000 + q * 32) = false := isFuse_above (by omega)
  exact ⟨(Dev.get_setReg _ _ (f := WARD_Q_en q) rfl hk).trans ((bits_setBits_apart _ _ _ _ 0 1 (by decide)).trans (bits_setBits_same ..)),
    (Dev.get_setReg _ _ (f := WARD_Q_err q) rfl hk).trans ((bits_setBits_same ..).trans (Nat.mod_eq_of_lt he))⟩

/-- A write of the first 8 bytes of WARD_Q_n is one piece. -/
theorem Dev.writeReg_wardQ (d : Dev) (who : Requester) {q : Nat} (x : Nat) (hq : q < 48) :
    d.writeReg who (0x11A1000 + q * 32) 8 x = d.queueReg who q wardQReg.fields 0 8 (x % 2 ^ 64) := by
  have hrest : restAt (0x11A1000 + q * 32) = 32 := by
    have hf := findReg_wardQ q (by omega) 0 (by decide)
    rw [Nat.add_zero] at hf
    unfold restAt
    rw [placeOf_map (by omega)]
    simp only [hf]
    exact Nat.add_sub_cancel_left ..
  rw [Dev.writeReg, hrest, if_neg (by omega)]
  exact d.writePiece_wardQ who 8 _ hq (o := 0) (by decide)

theorem queueError_host {v : Nat} (hloc : bits v 1 2 = 0) (hc : bits v 64 64 % 64 = 0) (hr : bits v 128 64 % 64 = 0) :
    queueError false false v = if bits v 3 2 = 3 then 1 else if bits v 6 4 < 4 ∨ 12 < bits v 6 4 then 2 else 0 := by
  simp [queueError, hloc, hc, hr]

section
variable (d : Dev) {q x : Nat} (hx : x < 2 ^ 64) (hup : d.pcie.up = true) (hb : d.bar0Serves (0x11A1000 + q * 32) = true) (hq : q < 48)
  (hen : d.get (WARD_Q_en q) = 0) (hv : bits x 0 1 = 1) (hc : d.get (WARD_Q_cbase q) % 64 = 0) (hr : d.get (WARD_Q_rbase q) % 64 = 0)
  (hloc : bits x 1 2 = 0)
include hx hup hb hq hen hv hc hr hloc

/-- PF0's write of the first 8 bytes of a host queue that is not enabled and has aligned rings: class 3 and a bad size are refused (R326). -/
theorem Dev.access_queueEnable :
    d.access .pf0 (0x11A1000 + q * 32) 8 (some x) =
      let w := queueValue false (d.reg (0x11A1000 + q * 32)) 0 8 x
      if bits x 3 2 = 3 then d.queueRefused q w 1
      else if bits x 6 4 < 4 ∨ 12 < bits x 6 4 then d.queueRefused q w 2
      else d.queueOn q w := by
  have head := bits_queueValue_head (d.reg (0x11A1000 + q * 32)) x
  have hvloc := (head ⟨1, 2, .rw, 0, .queue⟩ (by decide) (by decide) rfl).trans hloc
  have beyond : ∀ lo, 64 ≤ lo → bits (queueValue false (d.reg (0x11A1000 + q * 32)) 0 8 x) lo 64 = bits (d.reg (0x11A1000 + q * 32)) lo 64 :=
    fun lo h => bits_queueValue_apart _ (.inr h)
  have hvc := (congrArg (· % 64) (beyond 64 (by decide))).trans hc
  have hvr := (congrArg (· % 64) (beyond 128 (by decide))).trans hr
  rw [d.access_pf0_write hup (by omega) hb, d.writeReg_wardQ .pf0 x hq, Nat.mod_eq_of_lt hx, Dev.queueReg_enable _ hq hen hv]
  dsimp only
  rw [queueError_host hvloc hvc hvr, head ⟨3, 2, .rw, 0, .queue⟩ (by decide) (by decide) rfl,
    head ⟨6, 4, .rw, 0, .queue⟩ (by decide) (by decide) rfl]
  by_cases h3 : bits x 3 2 = 3
  · simp only [h3, if_true, ne_eq, Nat.one_ne_zero, not_false_eq_true]
  · by_cases hs : bits x 6 4 < 4 ∨ 12 < bits x 6 4
    · rw [if_neg h3, if_neg h3, if_pos hs, if_pos hs, if_pos (by decide)]
    · rw [if_neg h3, if_neg h3, if_neg hs, if_neg hs, if_neg (by decide)]

/-- What a host reads in WARD_Q_n and PCIE_QMAP_n after that write. -/
theorem Dev.get_queueEnable :
    let t := d.access .pf0 (0x11A1000 + q * 32) 8 (some x)
    d.SameButRegs t
      ∧ (bits x 3 2 = 3 → t.get (WARD_Q_en q) = 0 ∧ t.get (WARD_Q_err q) = 1)
      ∧ (bits x 3 2 ≠ 3 → bits x 6 4 < 4 ∨ 12 < bits x 6 4 → t.get (WARD_Q_en q) = 0 ∧ t.get (WARD_Q_err q) = 2)
      ∧ (bits x 3 2 ≠ 3 → 4 ≤ bits x 6 4 → bits x 6 4 ≤ 12 → t.get (WARD_Q_en q) = 1 ∧ t.get (WARD_Q_err q) = 0
          ∧ t.get (WARD_Q_log2n q) = bits x 6 4 ∧ t.get (PCIE_QMAP_valid q) = 1 ∧ t.get (PCIE_QMAP_func q) = bits x 10 4
          ∧ t.get (PCIE_QMAP_vector q) = bits x 14 6) := by
  have head := bits_queueValue_head (d.reg (0x11A1000 + q * 32)) x
  dsimp only
  rw [d.access_queueEnable hx hup hb hq hen hv hc hr hloc]
  dsimp only
  by_cases h3 : bits x 3 2 = 3
  · rw [if_pos h3]
    exact ⟨(Dev.SameButRegs.refl d).setReg _ _, fun _ => d.get_queueRefused q _ (by decide), absurd h3, absurd h3⟩
  · by_cases hs : bits x 6 4 < 4 ∨ 12 < bits x 6 4
    · rw [if_neg h3, if_pos hs]
      exact ⟨(Dev.SameButRegs.refl d).setReg _ _, fun h => absurd h h3, fun _ _ => d.get_queueRefused q _ (by decide),
        fun _ h4 h12 => absurd hs (by omega)⟩
    · rw [if_neg h3, if_neg hs]
      refine ⟨.queueOn d q _, fun h => absurd h h3, fun _ h => absurd h hs, fun _ _ _ => ⟨?_, ?_, ?_, ?_⟩⟩
      · rw [d.get_queueOn _ (WARD_Q_en q) hq rfl, bits_setBits_apart _ _ _ _ _ _ (.inl (by simp [WARD_Q_en]))]
        exact (head ⟨0, 1, .rw, 0, .queue⟩ (by decide) (by decide) rfl).trans hv
      · exact (d.get_queueOn _ (WARD_Q_err q) hq rfl).trans (bits_setBits_same ..)
      · rw [d.get_queueOn _ (WARD_Q_log2n q) hq rfl, bits_setBits_apart _ _ _ _ _ _ (.inl (by simp [WARD_Q_log2n]))]
        exact head ⟨6, 4, .rw, 0, .queue⟩ (by decide) (by decide) rfl
      · rw [← head ⟨10, 4, .rw, 0, .queue⟩ (by decide) (by decide) rfl, ← head ⟨14, 6, .rw, 0, .queue⟩ (by decide) (by decide) rfl]
        exact d.get_queueOn_map ((head ⟨1, 2, .rw, 0, .queue⟩ (by decide) (by decide) rfl).trans hloc)

end

/-! Error records (R432, R433). -/

/-- Closes record `n` if its number is at most `v`: the step of which ERR_ACK takes one per record. -/
def Dev.closeRecord (v : Nat) (d : Dev) (n : Nat) : Dev :=
  if bit (d.get (ERR_REC_record n)) 72 && decide (bits (d.get (ERR_REC_record n)) 192 32 ≤ v) then
    d.put (ERR_REC_record n) (setBits (d.get (ERR_REC_record n)) 72 1 0)
  else d

theorem Dev.errAck_eq (d : Dev) (v : Nat) : d.errAck v = ((List.range 256).foldl (Dev.closeRecord v) d).countOpen := rfl

/-- Closing a record leaves the number of every record and the state of every other one. -/
theorem Dev.closeRecord_get (v : Nat) (d : Dev) (n m : Nat) :
    bit ((d.closeRecord v n).get (ERR_REC_record m)) 72 = (bit (d.get (ERR_REC_record m)) 72
      && !(decide (m = n) && decide (bits (d.get (ERR_REC_record m)) 192 32 ≤ v)))
    ∧ bits ((d.closeRecord v n).get (ERR_REC_record m)) 192 32 = bits (d.get (ERR_REC_record m)) 192 32 := by
  unfold Dev.closeRecord
  by_cases hm : m = n
  · subst hm
    split
    · next hc =>
      rw [Dev.get_put_same _ _ _ (isFuse_above (Nat.le_add_right_of_le (by decide))), show (ERR_REC_record m).w = 256 from rfl, bit,
        bits_mod _ 72 1 256 (by decide), bits_mod _ 192 32 256 (by decide), bits_setBits_same, bits_setBits_apart _ _ _ _ _ _ (by decide)]
      obtain ⟨hopen, hseq⟩ := Bool.and_eq_true_iff.mp hc
      rw [hopen, hseq, decide_eq_true rfl]
      exact ⟨rfl, rfl⟩
    · next hc =>
      refine ⟨?_, rfl⟩
      rw [decide_eq_true rfl, Bool.true_and]
      cases hopen : bit (d.get (ERR_REC_record m)) 72
      · rfl
      · rw [hopen, Bool.true_and] at hc
        rw [Bool.eq_false_iff.mpr hc]
        rfl
  · have hk : (ERR_REC_record m).key ≠ (ERR_REC_record n).key := by simp only [ERR_REC_record]; omega
    split
    · rw [Dev.get_put_apart _ _ _ _ (.inl hk)]; simp [hm]
    · simp [hm]

/-- Records closed one after the other: each of the list that is open with a number of at most `v` is closed, no other one. -/
theorem Dev.foldl_closeRecord_get (v m : Nat) : ∀ (l : List Nat) (d : Dev),
    bit ((l.foldl (Dev.closeRecord v) d).get (ERR_REC_record m)) 72 = (bit (d.get (ERR_REC_record m)) 72
      && !(decide (m ∈ l) && decide (bits (d.get (ERR_REC_record m)) 192 32 ≤ v)))
  | [], d => by simp
  | n :: l, d => by
    obtain ⟨hopen, hseq⟩ := d.closeRecord_get v n m
    rw [List.foldl_cons, foldl_closeRecord_get v m l, hopen, hseq,
      show decide (m ∈ n :: l) = (decide (m = n) || decide (m ∈ l)) by simp, Bool.and_or_distrib_right, Bool.not_or,
      Bool.and_assoc]

/-- The counts of open records lie outside the ring of records. -/
theorem Dev.get_countOpen_record (d : Dev) (n : Nat) : d.countOpen.get (ERR_REC_record n) = d.get (ERR_REC_record n) := by
  have hk : ∀ f : Fld, f.key < 0x11E1000 → (ERR_REC_record n).key ≠ f.key := fun f h => by simp only [ERR_REC_record]; omega
  unfold Dev.countOpen
  simp only [Dev.get, Dev.reg_put_ne _ _ _ (hk ERR_OPEN_corrected (by decide)), Dev.reg_put_ne _ _ _ (hk ERR_OPEN_deferred (by decide)),
    Dev.reg_put_ne _ _ _ (hk ERR_OPEN_step_lost (by decide)), Dev.reg_put_ne _ _ _ (hk ERR_OPEN_job_lost (by decide)),
    Dev.reg_put_ne _ _ _ (hk ERR_STAT_device_lost (by decide)), Dev.reg_put_ne _ _ _ (hk ERR_STAT_worst (by decide))]

theorem Dev.SameButRegs.errAck (d : Dev) (v : Nat) : d.SameButRegs (d.errAck v) := by
  rw [Dev.errAck_eq]
  refine (Dev.SameButRegs.foldl _ (fun n he => ?_) _ (.refl d)).countOpen
  unfold Dev.closeRecord
  split
  · exact he.put _ _
  · exact he

/-! The clauses of R8, R203, R309, R325, R326, R433, R446 and R449 on a device outside reset. -/

section
variable {s : State} (hs : Awake s)
include hs

/-- PF0 changes the target of CLK_CORE alone. -/
theorem clkCore_pf0 (v : BitVec 64) (hup : s.dev.pcie.up = true) (hb : s.dev.bar0Serves 0x1030000 = true) :
    ∃ t, exec (.registerWrite .pf0 0x1030000 false v) s = .next t ∧ t.pending = s.pending
      ∧ t.dev.get CLK_CORE_target = v.toNat % 2 ^ 12 ∧ t.dev.get CLK_CORE_current = s.dev.get CLK_CORE_current
      ∧ t.dev.get CLK_CORE_floor = s.dev.get CLK_CORE_floor ∧ (∀ a, a ≠ 0x1030000 → t.dev.reg a = s.dev.reg a)
      ∧ { t.dev with regs := s.dev.regs } = s.dev := by
  have hd := (s.dev.access_pf0_write hup (by decide) hb).trans (s.dev.writeReg_clkCore .pf0 v.toNat)
  have hsame := (Dev.SameButRegs.refl s.dev).setReg 0x1030000
    (writeFields clkCoreReg.fields (fun f => mayWrite .pf0 f.writers) (s.dev.reg 0x1030000) 0 4 (v.toNat % 2 ^ 32))
  obtain ⟨ht, hc, hf⟩ := bits_clkCore_pf0 (s.dev.reg 0x1030000) v.toNat
  have hk : isFuse 0x1030000 = false := by decide
  exact ⟨_, onLive_regs hs hd hsame, rfl, (Dev.get_setReg _ _ (f := CLK_CORE_target) rfl hk).trans ht,
    (Dev.get_setReg _ _ (f := CLK_CORE_current) rfl hk).trans hc, (Dev.get_setReg _ _ (f := CLK_CORE_floor) rfl hk).trans hf,
    fun a hne => Dev.reg_setReg_ne _ _ hne, hsame⟩

/-- A hart may write no field of CLK_CORE. -/
theorem clkCore_hart (h : BitVec 6) (v : BitVec 64) (hr : s.dev.hartRuns h.toNat = true) :
    ∃ t, exec (.registerWrite (.hart h) 0x1030000 false v) s = .next t ∧ t.pending = s.pending ∧ (∀ a, t.dev.reg a = s.dev.reg a)
      ∧ { t.dev with regs := s.dev.regs } = s.dev := by
  have hd := (s.dev.access_hart_write hr (a := 0x1030000) (n := 4) (x := v.toNat) (by decide) (by decide)).trans
    (s.dev.writeReg_clkCore (.hart h) v.toNat)
  rw [writeFields_refused _ _ _ _ _ _ (by simp [clkCoreReg, mayWrite])] at hd
  have hsame := (Dev.SameButRegs.refl s.dev).setReg 0x1030000 (s.dev.reg 0x1030000)
  refine ⟨_, onLive_regs hs hd hsame, rfl, fun a => ?_, hsame⟩
  exact (Dev.reg_setReg ..).trans (ite_eq_right_iff.mpr (fun e => by rw [e.1]))

/-- A read of LINK_RETRY answers the counts and clears them. -/
theorem linkRetry_read (a : BitVec 26) (p : Nat) (hp : p < 96) (ha : a.toNat = 0x1100048 + p * 4096) :
    ∃ t v, exec (.rcRead .naeno a false) s = .next t ∧ t.pending = s.pending ∧ t.dev.out = .completion (some v) false :: s.dev.out
      ∧ bits v 0 16 = s.dev.get (LINK_RETRY_replays p) ∧ bits v 16 8 = s.dev.get (LINK_RETRY_realigns p)
      ∧ t.dev.get (LINK_RETRY_replays p) = 0 ∧ t.dev.get (LINK_RETRY_realigns p) = 0
      ∧ t.dev.get (LINK_RETRY_tx_spares p) = s.dev.get (LINK_RETRY_tx_spares p)
      ∧ { t.dev with regs := s.dev.regs, out := s.dev.out } = s.dev := by
  have hk : isFuse (0x1100048 + p * 4096) = false := isFuse_above (by omega)
  have hsame := (Dev.SameButRegs.refl s.dev).setReg (0x1100048 + p * 4096)
    (clearFields linkRetryReg.fields (s.dev.reg (0x1100048 + p * 4096)) 0 4)
  obtain ⟨hr, hl⟩ := bits_readFields_linkRetry (s.dev.reg (0x1100048 + p * 4096))
  obtain ⟨h1, h2, h3⟩ := bits_clearFields_linkRetry (s.dev.reg (0x1100048 + p * 4096))
  have hd := (congrArg (s.dev.access .naeno · 4 none) ha).trans (s.dev.access_linkRetry hp)
  exact ⟨_, _, onLive_regs_emit hs hd hsame, rfl, congrArg _ hsame.out, hr, hl,
    (Dev.get_setReg _ _ (f := LINK_RETRY_replays p) rfl hk).trans h1, (Dev.get_setReg _ _ (f := LINK_RETRY_realigns p) rfl hk).trans h2,
    (Dev.get_setReg _ _ (f := LINK_RETRY_tx_spares p) rfl hk).trans h3, hsame.emit_frame _⟩

/-- A misaligned access of PF0 is an Unsupported Request, which counts. -/
theorem misaligned_pf0 (a : BitVec 26) (wide : Bool) (v : BitVec 64) (hup : s.dev.pcie.up = true)
    (ha : a.toNat % accessBytes wide ≠ 0) : ∀ i ∈ [Instr.registerWrite .pf0 a wide v, .rcRead .pf0 a wide],
      ∃ t, exec i s = .next t ∧ t.pending = s.pending ∧ t.dev.get PCIE_ERR_bad_acc = min (s.dev.get PCIE_ERR_bad_acc + 1) 255
        ∧ t.dev.out = .completion none false :: s.dev.out ∧ { t.dev with regs := s.dev.regs, out := s.dev.out } = s.dev := by
  have hd := s.dev.access_pf0_misaligned hup ha
  have hsame : s.dev.SameButRegs (s.dev.bump PCIE_ERR_bad_acc 1) := (Dev.SameButRegs.refl s.dev).put _ _
  have hcount : (s.dev.bump PCIE_ERR_bad_acc 1).get PCIE_ERR_bad_acc = min (s.dev.get PCIE_ERR_bad_acc + 1) 255 :=
    (Dev.get_put_same _ _ _ (by decide)).trans (Nat.mod_eq_of_lt (Nat.lt_of_le_of_lt (Nat.min_le_right _ _) (by decide)))
  have hnext : ∀ w, s.onLive (fun d => d.access .pf0 a.toNat (accessBytes wide) w) = _ := fun w => onLive_regs_emit hs (hd w) hsame
  simp only [List.forall_mem_cons, List.not_mem_nil, false_implies, implies_true, and_true]
  exact ⟨⟨_, hnext _, rfl, hcount, congrArg _ hsame.out, hsame.emit_frame _⟩,
    ⟨_, hnext _, rfl, hcount, congrArg _ hsame.out, hsame.emit_frame _⟩⟩

/-- Releasing the account of the selected core clears `valid` of its header. -/
theorem account_release (hv : s.dev.selValid 0 (s.dev.selection .naeno 0) = true) :
    let c := selCore (s.dev.selection .naeno 0)
    ∃ t, exec (.accountRelease .naeno) s = .next t ∧ t.pending = s.pending ∧ (t.dev.core c).get CORE_ACCT_HDR_valid = 0
      ∧ (t.dev.core c).get CORE_ACCT_HDR_ovr = (s.dev.core c).get CORE_ACCT_HDR_ovr
      ∧ (∀ x, x ≠ c → t.dev.core x = s.dev.core x) ∧ { t.dev with cores := s.dev.cores } = s.dev := by
  obtain ⟨hvalid, hovr⟩ := bits_acctHdr ((s.dev.core (selCore (s.dev.selection .naeno 0))).reg 0x600)
  refine ⟨_, onLive_eq hs (s.dev.access_accountRelease hv) rfl rfl, rfl, ?_, ?_, fun x hx => Dev.core_setCore_ne _ _ hx, rfl⟩
  · rw [Dev.upd, Dev.core_setCore_same, Core.get]
    exact (congrArg (bits · 24 1) (Core.reg_putReg ..)).trans hvalid
  · rw [Dev.upd, Dev.core_setCore_same, Core.get]
    exact (congrArg (bits · 25 1) (Core.reg_putReg ..)).trans hovr

/-- PF0 enables a queue, or its err tells the first field that is wrong. -/
theorem queue_enable (q : BitVec 6) (v : BitVec 64) (hup : s.dev.pcie.up = true) (hb : s.dev.bar0Serves (WARD_Q_en q.toNat).key = true)
    (hq : q.toNat < 48) (hen : s.dev.get (WARD_Q_en q.toNat) = 0) (hv : bits v.toNat 0 1 = 1)
    (hc : s.dev.get (WARD_Q_cbase q.toNat) % 64 = 0) (hr : s.dev.get (WARD_Q_rbase q.toNat) % 64 = 0) (hloc : bits v.toNat 1 2 = 0) :
    ∃ t, exec (.queueEnable .pf0 q v) s = .next t ∧ t.pending = s.pending ∧ { t.dev with regs := s.dev.regs } = s.dev
      ∧ (bits v.toNat 3 2 = 3 → t.dev.get (WARD_Q_en q.toNat) = 0 ∧ t.dev.get (WARD_Q_err q.toNat) = 1)
      ∧ (bits v.toNat 3 2 ≠ 3 → bits v.toNat 6 4 < 4 ∨ 12 < bits v.toNat 6 4 →
          t.dev.get (WARD_Q_en q.toNat) = 0 ∧ t.dev.get (WARD_Q_err q.toNat) = 2)
      ∧ (bits v.toNat 3 2 ≠ 3 → 4 ≤ bits v.toNat 6 4 → bits v.toNat 6 4 ≤ 12 → t.dev.get (WARD_Q_en q.toNat) = 1
          ∧ t.dev.get (WARD_Q_err q.toNat) = 0 ∧ t.dev.get (WARD_Q_log2n q.toNat) = bits v.toNat 6 4
          ∧ t.dev.get (PCIE_QMAP_valid q.toNat) = 1 ∧ t.dev.get (PCIE_QMAP_func q.toNat) = bits v.toNat 10 4
          ∧ t.dev.get (PCIE_QMAP_vector q.toNat) = bits v.toNat 14 6) := by
  obtain ⟨hsame, hout⟩ := s.dev.get_queueEnable v.isLt hup hb hq hen hv hc hr hloc
  exact ⟨_, onLive_regs hs rfl hsame, rfl, hsame, hout⟩

/-- A running hart writes the tail of a Broker queue. -/
theorem queue_tail (h q : BitVec 6) (tail : BitVec 16) (hr : s.dev.hartRuns h.toNat = true) (hq : q.toNat < 48)
    (hloc : s.dev.get (WARD_Q_loc q.toNat) = 1) :
    ∃ t, exec (.queueTailWrite h q tail) s = .next t ∧ t.pending = s.pending ∧ t.dev.get (WARD_Q_tail q.toNat) = tail.toNat
      ∧ t.dev.get (WARD_Q_head q.toNat) = s.dev.get (WARD_Q_head q.toNat)
      ∧ (∀ a, a ≠ (WARD_Q_en q.toNat).key → t.dev.reg a = s.dev.reg a) ∧ { t.dev with regs := s.dev.regs } = s.dev := by
  have hf : hartFaults (0x11A1000 + q.toNat * 32 + 24) true = false := by
    unfold hartFaults
    rw [decide_eq_false (show ¬0x11C0000 ≤ 0x11A1000 + q.toNat * 32 + 24 by omega),
      decide_eq_false (show ¬0x11A1000 + q.toNat * 32 + 24 < 0x1020000 by omega)]
    rfl
  have ht : tail.toNat < 2 ^ 16 := tail.isLt
  have hd := (s.dev.access_hart_write (n := 4) (x := tail.toNat) hr (by omega) hf).trans ((s.dev.writeReg_four _).trans
    ((s.dev.writePiece_wardQ _ 4 _ hq (by decide)).trans (s.dev.queueReg_tail h hq hloc)))
  have hsame := (Dev.SameButRegs.refl s.dev).setReg (0x11A1000 + q.toNat * 32)
    (queueValue (bit (s.dev.reg (0x11A1000 + q.toNat * 32)) 0) (s.dev.reg (0x11A1000 + q.toNat * 32)) 24 4 (tail.toNat % 2 ^ 32))
  obtain ⟨htail, hhead⟩ := bits_queueValue_tail (bit (s.dev.reg (0x11A1000 + q.toNat * 32)) 0) _ (tail.toNat % 2 ^ 32) hloc
  have hk : isFuse (0x11A1000 + q.toNat * 32) = false := isFuse_above (by omega)
  refine ⟨_, onLive_regs hs hd hsame, rfl, (Dev.get_setReg _ _ (f := WARD_Q_tail q.toNat) rfl hk).trans (htail.trans ?_),
    (Dev.get_setReg _ _ (f := WARD_Q_head q.toNat) rfl hk).trans hhead, fun a hne => Dev.reg_setReg_ne _ _ hne, hsame⟩
  rw [bits_zero]
  omega

/-- An acknowledgement closes every record up to its number (R433). -/
theorem err_ack (v : BitVec 32) : ∃ t, exec (.errAck .naeno v) s = .next t ∧ t.pending = s.pending ∧ { t.dev with regs := s.dev.regs } = s.dev
    ∧ ∀ n, n < 256 → bit (t.dev.get (ERR_REC_record n)) 72
        = (bit (s.dev.get (ERR_REC_record n)) 72 && !(decide (bits (s.dev.get (ERR_REC_record n)) 192 32 ≤ v.toNat))) := by
  have hp : placeOf ERR_ACK_seq.key = .map := by decide
  have hd : s.dev.access .naeno ERR_ACK_seq.key 4 (some v.toNat) = s.dev.errAck v.toNat := by
    rw [Dev.access_naeno_write _ (by decide), Dev.writeReg_four, Dev.writePiece_map _ _ hp findReg_errAck, Dev.writeMap,
      if_pos (by rfl), if_pos (by decide), Nat.mod_mod, Nat.mod_eq_of_lt v.isLt]
  have hsame := Dev.SameButRegs.errAck s.dev v.toNat
  refine ⟨_, onLive_regs hs hd hsame, rfl, hsame, fun n hn => ?_⟩
  rw [Dev.errAck_eq, Dev.get_countOpen_record, Dev.foldl_closeRecord_get, decide_eq_true (List.mem_range.mpr hn), Bool.true_and]

/-- A write through the schedule window changes one slot word of a bank that does not run (R449). -/
theorem schedule_write (a : BitVec 26) (o : Nat) (v : BitVec 64) (ho : o < 4096) (ha : a.toNat = 0x1044000 + 4 * o)
    (hv : s.dev.selValid 1 (s.dev.selection .naeno 1) = true) :
    let r := selCore (s.dev.selection .naeno 1)
    let bank := bits (s.dev.selection .naeno 1) 16 1
    ((s.dev.router r).on = true ∧ (s.dev.router r).bank = bank → exec (.scheduleWindowWrite a false v) s = .next s)
    ∧ (¬ ((s.dev.router r).on = true ∧ (s.dev.router r).bank = bank) →
      ∃ t, exec (.scheduleWindowWrite a false v) s = .next t ∧ t.pending = s.pending ∧ { t.dev with sched := s.dev.sched } = s.dev
        ∧ ∀ x, Tab.get (fun _ => idleWord) t.dev.sched x = if x = schedKey r bank o then v.toNat % 2 ^ 32
            else Tab.get (fun _ => idleWord) s.dev.sched x) := by
  intro r bank
  have hx : exec (.scheduleWindowWrite a false v) s = s.onLive (fun d => d.access .naeno a.toNat 4 (some v.toNat)) := by
    show s.onLive _ = _
    rw [placeOf_sched (by omega) (by omega)]
    rfl
  have hd := s.dev.access_schedWindow ho v.toNat
  rw [← ha] at hd
  rw [hx]
  refine ⟨fun hrun => ?_, fun hrun => ?_⟩
  · refine onLive_eq hs (hd.trans ?_) rfl rfl
    exact if_pos (.inr (.inr hrun))
  · refine ⟨_, onLive_eq hs (hd.trans (if_neg ?_)) rfl rfl, rfl, rfl, fun x => ?_⟩
    · rintro (h | h | h)
      · exact h rfl
      · rw [hv] at h; exact absurd h (by decide)
      · exact hrun h
    · rw [Tab.get_set, Nat.mul_div_cancel_left _ (by decide), Nat.mod_mod]

end

end Sys2Proof.Machine

/-! SUPPORT. A state for O60 whose table of cores is not canonical. -/

namespace Sys2Proof.Machine

/-- TEL_ERRORS of queue 0, which Naeno has started as command 0. -/
def telErrorsStarted : Cmd := ⟨0, 0, 0x0502, .started, none, 0⟩

/-- A table of cores that lists key 0 twice, so that it is not canonical: `Dev.core` answers the first entry, whose memory is empty and which
has counted a stale discard; the second one, which no read sees, lists a zero byte. -/
def shadowedCores : Tab Core := [(0, Core.reset.put CORE_CHAN_STAT_stale 1), (0, { Core.reset with mem := [(0, 0)] })]

/-- A device after reset with these cores, about to run TEL_ERRORS. -/
def shadowed : State := ⟨[.telErrors 0], { Dev.reset with cores := shadowedCores, cmds := [telErrorsStarted] }⟩

/-- Every core that can be read has an empty memory. -/
theorem shadowed_mem (c : CoreId) : (shadowed.dev.core c).mem = [] := by
  simp only [Dev.core, shadowed, shadowedCores, Tab.get]
  split <;> rfl

/-- Whether a step goes on to a state in which the memory of core (0, 0) lists exactly the bytes given. -/
def stepsToMem (s : State) (m : Memory) : Bool :=
  match step s with
  | .next t => (t.dev.core ⟨0, 0⟩).mem == m
  | _ => false

/-- TEL_ERRORS clears the stale counts (`Dev.clearStale`) by writing the entries back in order, so that the last one of a key stays. -/
theorem shadowed_steps : stepsToMem shadowed [(0, 0)] = true := by decide +kernel

/-- A memory that lists a zero byte is not canonical. -/
theorem not_wf_zero_byte : ¬Memory.wf [(0, 0)] := fun h => h.2 (0, 0) List.mem_cons_self rfl

end Sys2Proof.Machine

section
open Sys2Proof Sys2Proof.Machine

/-- Settles O1: both cases are those of `step`. -/
theorem stepRunsFront : Obligations.StepRunsFront := by
  unfold Obligations.StepRunsFront
  refine ⟨fun _ _ _ => rfl, fun s h => ?_⟩
  unfold step
  rw [h]

/-- Settles O51, clause by clause. -/
theorem registersAnswerAndTake : Obligations.RegistersAnswerAndTake := by
  unfold Obligations.RegistersAnswerAndTake
  intro s hs
  exact ⟨fun v h => clkCore_pf0 hs v h.1 h.2,
    clkCore_hart hs,
    linkRetry_read hs,
    fun a wide v hup ha => misaligned_pf0 hs a wide v hup ha,
    account_release hs,
    fun q v h => queue_enable hs q v h.1 h.2,
    queue_tail hs,
    err_ack hs,
    schedule_write hs⟩

/-- Refutes O60: the statement asks that the memory of every core that `Dev.core` answers is canonical, and not that the table of cores lists a
key once.  In `shadowed` the entry that `Dev.core` answers for core (0, 0) has an empty memory and a shadowed second entry lists a zero byte;
TEL_ERRORS writes every entry of the table back, and the second one becomes the core.  The state is not one that a run from reset was shown to
reach: the statement lacks the hypothesis that the table of cores is canonical. -/
theorem not_memoriesStayCanonical : ¬Obligations.MemoriesStayCanonical := by
  unfold Obligations.MemoriesStayCanonical
  intro h
  have hstep := shadowed_steps
  unfold stepsToMem at hstep
  split at hstep
  · next t ht =>
    obtain ⟨_, _, hcores⟩ := h shadowed t Memory.wf_nil Memory.wf_nil (fun c => shadowed_mem c ▸ Memory.wf_nil) ht
    exact not_wf_zero_byte (eq_of_beq hstep ▸ hcores ⟨0, 0⟩)
  · exact Bool.false_ne_true hstep

end

/-! SUPPORT. A state for O49: a step start at which two late members of the data group become ABSENT (R271, R272). -/

namespace Sys2Proof.Machine

/-- A load set whose one core is (0, 0), for variant 0 and plan 0. -/
def lateSet : LoadSet := ⟨0, 0, [⟨⟨0, 0⟩, [], [], [], [], [], 0, 0⟩], [], [], [], [], [], 0, []⟩

/-- An image of that set alone, whose orchestrator is on complex 0. -/
def lateImage : Image := ⟨[], [], [], 0, [lateSet], [], [], [], 0, [], none, 2, none, some 0⟩

/-- The launch of step 9 by command 7. -/
def lateLaunch : Launch := ⟨7, false, 9, [], 0⟩

/-- STEP_LAUNCH of job 3 in host queue 5, whose launch is pending. -/
def lateCmd : Cmd := ⟨7, 5, BitVec.ofNat 512 (0x0302 + 3 * 2 ^ 48), .launched, none, 0⟩

/-- Job 3, whose step 8 has run and whose step 9 is launched. -/
def lateJob : Job :=
  { Job.create 0 5 false 64 0 0x400000 100 with
    ctx := some 0, image := some lateImage, step := 8, running := true, starts := 8, launch := some lateLaunch }

/-- A member, at position 0, of a data group of three, with receipts off.  Its core (0, 0) has retired HALT.  Positions 1 and 2 were late in the
step that ends and in the two before it, and no position is ABSENT yet. -/
def lateDev : Dev :=
  { ((Dev.reset.put WARD_ROSTER_n 3).put (PWR_DOM_state 80) 0).put (PWR_DOM_state 96) 0 with
    cores := [(0, { Core.reset with run := .halted, job := 3, image := ⟨true, 0, [], [], []⟩ })]
    jobs := [(3, some lateJob)]
    cmds := [lateCmd]
    pcie := { Dev.reset.pcie with up := true }
    slots := [(0, { Slot.reset with use := some (.orchestrator 3 0) })]
    roster := [(1, 1), (2, 1)]
    lateNow := [1, 2]
    lateRun := [(1, 2), (2, 2)] }

def lateState : State := ⟨[], lateDev⟩

theorem lateCmd_opcode : lateCmd.opcode ≠ 0x0601 := by decide +kernel

theorem lateState_live : Live lateState := ⟨by decide +kernel, rfl⟩

theorem lateDev_gateOpen : lateDev.gateOpen 3 lateJob lateLaunch = true := by decide +kernel

theorem lateDev_hostRing : HostRing lateDev lateCmd.queue.toNat := ⟨by decide +kernel, by decide +kernel, rfl⟩

theorem lateDev_jobCores : lateDev.jobCores 3 = [⟨0, 0⟩] := by decide +kernel

theorem lateDev_noAssayHeld : ∀ p, p < 96 → lateDev.get (LINK_ASSAY_ST_held p) = 0 := by decide +kernel

/-- Whether STEP_START of job 3 leaves core (0, 0) in RESET and the job in the drain of a kill. -/
def startKills (s : State) : Bool :=
  match exec (.stepStart 3 0) s with
  | .next t => (t.dev.core ⟨0, 0⟩).run == .reset && (t.dev.job 3).any (fun j => j.phase == .drain)
  | _ => false

/-- The gate sees no absence.  The end of step 8 then takes the late members into the roster (`Dev.endStep`, `Dev.rosterStep`): position 1 becomes
ABSENT, and position 2, while it stands, ends the job (`Dev.adoptAbsent`), so that the kill at the command's end stops the core that has just
started. -/
theorem lateState_startKills : startKills lateState = true := by decide +kernel

/-- What `startKills` says of the next state. -/
theorem run_of_startKills {s t : State} (h : startKills s = true) (ht : exec (.stepStart 3 0) s = .next t) :
    (t.dev.core ⟨0, 0⟩).run = .reset := by
  rw [startKills, ht, Bool.and_eq_true] at h
  exact eq_of_beq h.1

end Sys2Proof.Machine

section
open Sys2Proof Sys2Proof.Machine

/-- Refutes O49: with an open gate STEP_START does not leave every core of the job running.  The start ends the step before it, and with receipts
off that moves the roster on (R271; log 62); in `lateState` two members reach late_limit in that step, so that the second absence kills the job
(R273) and STEP_START leaves its core in RESET.  The statement lacks the hypothesis that the end of the step makes no member ABSENT. -/
theorem not_stepsStartAndResolve : ¬Obligations.StepsStartAndResolve := by
  unfold Obligations.StepsStartAndResolve
  intro h
  obtain ⟨hstart, -⟩ := h lateState 3 lateJob lateState_live rfl
  obtain ⟨-, hopen, -⟩ := hstart lateLaunch lateSet 0 rfl rfl
  have hengines : ∀ x ∈ lateDev.jobCores 3, (lateDev.core x).meFaulty = false := by
    rw [lateDev_jobCores]
    decide
  obtain ⟨t, _, ht, -, -, -, -, -, -, -, -, -, -, -, -, -, hcores, -⟩ :=
    hopen lateCmd lateDev_gateOpen rfl lateCmd_opcode lateDev_hostRing hengines lateDev_noAssayHeld
  obtain ⟨hrun, -⟩ := hcores ⟨0, 0⟩ (lateDev_jobCores ▸ List.mem_singleton_self _)
  rw [run_of_startKills lateState_startKills ht] at hrun
  cases hrun

end

/-! SUPPORT. The scatter path (R101, R102): what the service of a bank, the start of a row add, a push and the take-up of a TSCAT leave alone. -/

namespace Sys2Proof.Machine

/-! What every part of a ck keeps. -/

/-- Of the core only the scatter path, the memory with its poison and the account have changed, and the path counts the same ck and runs as before. -/
structure Core.ScatKept (k k' : Core) : Prop where
  frame : { k' with scat := k.scat, mem := k.mem, poison := k.poison, acct := k.acct } = k
  ck : k'.scat.ck = k.scat.ck
  active : k'.scat.active = k.scat.active

namespace Core.ScatKept

variable {k k' k'' : Core}

theorem refl (k : Core) : k.ScatKept k := ⟨rfl, rfl, rfl⟩

theorem trans (h : k.ScatKept k') (h' : k'.ScatKept k'') : k.ScatKept k'' where
  frame := (congrArg (fun x : Core => { x with scat := k.scat, mem := k.mem, poison := k.poison, acct := k.acct }) h'.frame).trans h.frame
  ck := h'.ck.trans h.ck
  active := h'.active.trans h.active

theorem unitStill_eq (h : k.ScatKept k') : unitStill k' = unitStill k := (congrArg unitStill h.frame :)

theorem c_eq (h : k.ScatKept k') : k'.c = k.c := (congrArg Core.c h.frame :)

theorem tmm_eq (h : k.ScatKept k') : k'.tmm = k.tmm := (congrArg Core.tmm h.frame :)

theorem mov_eq (h : k.ScatKept k') : k'.mov = k.mov := (congrArg Core.mov h.frame :)

theorem get_eq (h : k.ScatKept k') (f : Fld) : k'.get f = k.get f := (congrArg (fun x : Core => x.get f) h.frame :)

end Core.ScatKept

/-! A write of a row. -/

theorem Core.store_scatKept (k : Core) (a n v : Nat) (p : Bool) : k.ScatKept (k.store a n v p) := by
  unfold Core.store
  split
  · exact .refl k
  · dsimp only
    split
    · exact ⟨rfl, rfl, rfl⟩
    · split <;> exact ⟨rfl, rfl, rfl⟩

@[simp] theorem Core.store_scat (k : Core) (a n v : Nat) (p : Bool) : (k.store a n v p).scat = k.scat := by
  unfold Core.store
  split
  · rfl
  · dsimp only
    split
    · rfl
    · split <;> rfl

/-- No byte outside the span of a write changes. -/
theorem Core.store_read_out (k : Core) {a n b : Nat} (v : Nat) (p : Bool) (h : b < a ∨ a + n ≤ b) :
    (k.store a n v p).mem.read b = k.mem.read b := by
  have hw : (Memory.writeN k.mem a n v).read b = k.mem.read b := Memory.read_writeN_out n k.mem a v b h
  unfold Core.store
  split
  · rfl
  · dsimp only
    split
    · exact hw
    · split <;> exact hw

/-! The service of the banks. -/

/-- The service of one bank in one ck: the body of `Core.scatService`. -/
def Core.serveBank (k : Core) (b : Nat) : Core :=
  match k.scat.bank b with
  | none => k
  | some x =>
    if 1 < x.left then
      { k with scat := { k.scat with busy := Tab.set (fun _ => none) k.scat.busy b (some { x with left := x.left - 1 }) } }
    else
      let k' := match x.add.target with
        | some r => k.store (0x80000 + r * 64) 64 (addRow x.old x.add.addend).toNat
            (x.add.poison || k.rowPoisoned (0x80000 + r * 64))
        | none => k
      { k' with scat := { k'.scat with busy := Tab.set (fun _ => none) k'.scat.busy b none, lastEnd := k.scat.ck } }

theorem Core.scatService_eq (k : Core) : k.scatService = (List.range 16).foldl Core.serveBank k := rfl

/-- The row of PM that a row add ending in bank `b` in this ck writes, if there is one, does not hold byte `a`. -/
def Scatter.Spares (s : Scatter) (a b : Nat) : Prop :=
  ∀ x, s.bank b = some x → x.left ≤ 1 → ∀ r, x.add.target = some r → a < 0x80000 + r * 64 ∨ 0x80000 + r * 64 + 64 ≤ a

theorem Core.serveBank_idle {k : Core} {b : Nat} (h : k.scat.bank b = none) : k.serveBank b = k := by
  unfold Core.serveBank; rw [h]

theorem Core.serveBank_scatKept (k : Core) (b : Nat) : k.ScatKept (k.serveBank b) := by
  unfold Core.serveBank
  split
  · exact .refl k
  · split
    · exact ⟨rfl, rfl, rfl⟩
    · dsimp only
      split
      · exact (k.store_scatKept ..).trans ⟨rfl, rfl, rfl⟩
      · exact ⟨rfl, rfl, rfl⟩

theorem Core.serveBank_read (k : Core) {a b : Nat} (h : k.scat.Spares a b) : (k.serveBank b).mem.read a = k.mem.read a := by
  unfold Core.serveBank
  split
  · rfl
  · next x hx =>
    split
    · rfl
    · next hleft =>
      dsimp only
      split
      · next r hr => exact k.store_read_out _ _ (h x hx (Nat.le_of_not_lt hleft) r hr)
      · rfl

/-- The service of a bank leaves the other banks. -/
theorem Core.serveBank_bank_ne (k : Core) {b j : Nat} (h : j ≠ b) : (k.serveBank b).scat.bank j = k.scat.bank j := by
  unfold Core.serveBank
  split
  · rfl
  · split
    · simp only [Scatter.bank, Tab.get_set_ne _ _ _ h]
    · dsimp only
      split <;> simp only [Scatter.bank, Core.store_scat, Tab.get_set_ne _ _ _ h]

/-- Banks served one after the other, each once, write only the rows of the adds that end in them. -/
theorem Core.foldl_serveBank_read {a : Nat} : ∀ (l : List Nat) (k : Core), l.Nodup → (∀ b ∈ l, k.scat.Spares a b) →
    (l.foldl Core.serveBank k).mem.read a = k.mem.read a
  | [], _, _, _ => rfl
  | b :: l, k, hl, h => by
    obtain ⟨hb, hl⟩ := List.nodup_cons.mp hl
    obtain ⟨hhead, htail⟩ := List.forall_mem_cons.mp h
    have hrest : ∀ j ∈ l, (k.serveBank b).scat.Spares a j := by
      intro j hj
      have hne : j ≠ b := fun e => hb (e ▸ hj)
      unfold Scatter.Spares
      rw [k.serveBank_bank_ne hne]
      exact htail j hj
    rw [List.foldl_cons, Core.foldl_serveBank_read l _ hl hrest, k.serveBank_read hhead]

theorem Core.scatService_read (k : Core) {a : Nat} (h : ∀ b < 16, k.scat.Spares a b) : k.scatService.mem.read a = k.mem.read a := by
  rw [Core.scatService_eq]
  exact Core.foldl_serveBank_read _ k List.nodup_range (fun b hb => h b (List.mem_range.mp hb))

theorem Core.scatService_scatKept (k : Core) : k.ScatKept k.scatService := by
  rw [Core.scatService_eq]
  exact List.foldlRecOn _ _ (.refl k) (fun k' h b _ => h.trans (k'.serveBank_scatKept b))

/-- With no row add in service nothing ends. -/
theorem Core.scatService_idle {k : Core} (h : k.scat.busy = []) : k.scatService = k := by
  have hbank : ∀ b, k.scat.bank b = none := fun b => by rw [Scatter.bank, h]; rfl
  rw [Core.scatService_eq]
  exact List.foldlRecOn (motive := fun k' => k' = k) _ _ rfl (fun k' h b _ => by rw [h, Core.serveBank_idle (hbank b)])

/-! The start of a row add and the mover's push: no byte of memory changes. -/

theorem Core.scatStart_scatKept (k : Core) (portFree : Bool) : k.ScatKept (k.scatStart portFree) := by
  unfold Core.scatStart
  dsimp only
  split
  · exact .refl k
  · split
    · split
      · exact .refl k
      · exact ⟨rfl, rfl, rfl⟩
    · exact .refl k

@[simp] theorem Core.scatStart_mem (k : Core) (portFree : Bool) : (k.scatStart portFree).mem = k.mem := by
  unfold Core.scatStart
  dsimp only
  split
  · rfl
  · split
    · split <;> rfl
    · rfl

theorem Core.scatPush_scatKept (k : Core) : k.ScatKept k.scatPush := by
  unfold Core.scatPush
  dsimp only
  split
  · exact .refl k
  · split
    · exact ⟨rfl, rfl, rfl⟩
    · split <;> exact ⟨rfl, rfl, rfl⟩

@[simp] theorem Core.scatPush_mem (k : Core) : k.scatPush.mem = k.mem := by
  unfold Core.scatPush
  dsimp only
  split
  · rfl
  · split
    · rfl
    · split <;> rfl

/-! One ck. -/

/-- The acts of one ck of a running path, before its ck is counted (R102). -/
def Core.scatActs (k : Core) (portFree : Bool) : Core := ((k.scatService).scatStart portFree).scatPush

theorem Core.scatActs_scatKept (k : Core) (portFree : Bool) : k.ScatKept (k.scatActs portFree) :=
  (k.scatService_scatKept.trans (Core.scatStart_scatKept _ portFree)).trans (Core.scatPush_scatKept _)

theorem Core.scatActs_mem (k : Core) (portFree : Bool) : (k.scatActs portFree).mem = k.scatService.mem := by
  rw [Core.scatActs, Core.scatPush_mem, Core.scatStart_mem]

/-- The path's count of ck goes on. -/
def Core.countScatCk (k : Core) : Core := { k with scat := { k.scat with ck := k.scat.ck + 1 } }

section
variable (k : Core)

@[simp] theorem Core.countScatCk_ck : k.countScatCk.scat.ck = k.scat.ck + 1 := rfl
@[simp] theorem Core.countScatCk_active : k.countScatCk.scat.active = k.scat.active := rfl
@[simp] theorem Core.countScatCk_mem : k.countScatCk.mem = k.mem := rfl
@[simp] theorem Core.countScatCk_c : k.countScatCk.c = k.c := rfl
@[simp] theorem Core.countScatCk_tmm : k.countScatCk.tmm = k.tmm := rfl
@[simp] theorem Core.countScatCk_mov : k.countScatCk.mov = k.mov := rfl
@[simp] theorem Core.countScatCk_get (f : Fld) : k.countScatCk.get f = k.get f := rfl
@[simp] theorem unitStill_countScatCk : unitStill k.countScatCk = unitStill k := rfl

end

theorem Core.scatCk_runs {k : Core} (portFree : Bool) (h : k.scatBegin.scat.active = true) :
    k.scatCk portFree = (k.scatBegin.scatActs portFree).countScatCk := by
  unfold Core.scatCk Core.countScatCk Core.scatActs
  exact if_pos h

theorem Core.scatCk_rests {k : Core} (portFree : Bool) (h : k.scatBegin.scat.active = false) : k.scatCk portFree = k.scatBegin := by
  unfold Core.scatCk
  exact if_neg (by rw [h]; exact Bool.false_ne_true)

theorem Core.scatBegin_active {k : Core} (h : k.scat.active = true) : k.scatBegin = k := by
  unfold Core.scatBegin
  exact if_pos h

/-- A saturated count fits its field. -/
theorem sat_mod (w v : Nat) : sat w v % 2 ^ w = sat w v := by
  have := Nat.two_pow_pos w
  exact Nat.mod_eq_of_lt (by unfold sat; omega)

theorem Core.get_bump_same (k : Core) (f : Fld) (n : Nat) : (k.bump f n).get f = sat f.w (k.get f + n) := by
  rw [Core.bump, Core.get_put_same, sat_mod]

/-- A core whose path has taken up a TSCAT: the rows skipped for their index are counted, and every row add is to be pushed (R100 to R102). -/
def Core.tookUp (k : Core) (o : TensorOp) : Core :=
  { (k.bump CORE_SCAT_STAT_oob (k.scatSkipped o)) with scat := { Scatter.idle with active := true, todo := k.scatAll o } }

section
variable (k : Core) (o : TensorOp)

@[simp] theorem Core.tookUp_active : (k.tookUp o).scat.active = true := rfl
@[simp] theorem Core.tookUp_ck : (k.tookUp o).scat.ck = 0 := rfl
@[simp] theorem Core.tookUp_busy : (k.tookUp o).scat.busy = [] := rfl
@[simp] theorem Core.tookUp_mem : (k.tookUp o).mem = k.mem := rfl
@[simp] theorem Core.tookUp_mov : (k.tookUp o).mov = k.mov := rfl

theorem Core.tookUp_oob : (k.tookUp o).get CORE_SCAT_STAT_oob = sat CORE_SCAT_STAT_oob.w (k.get CORE_SCAT_STAT_oob + k.scatSkipped o) :=
  k.get_bump_same _ _

end

theorem Core.scatBegin_tscat {k : Core} {o : TensorOp} {rest : List TensorOp} (h : k.scat.active = false) (hm : k.mov = o :: rest)
    (ho : o.kind = .tscat) : k.scatBegin = k.tookUp o := by
  simp only [Core.scatBegin, h, hm, ho, Bool.false_eq_true, if_false, if_true, Core.tookUp]

theorem Core.scatBegin_other {k : Core} (h : k.scat.active = false) (hm : ∀ o rest, k.mov = o :: rest → o.kind ≠ .tscat) :
    k.scatBegin = k := by
  unfold Core.scatBegin
  rw [h, if_neg Bool.false_ne_true]
  split
  · next o rest ho => exact if_neg (hm o rest ho)
  · rfl

/-- SCATTER_ROW_ADD on a live device changes its core alone, by one ck of the path. -/
theorem exec_scatterRowAdd {s : State} {c : CoreId} (portFree : Bool) (hl : Live s) (hc : s.dev.logical c = true) :
    ∃ t, exec (.scatterRowAdd c portFree) s = .next t ∧ OnlyCore s t c ∧ t.dev.core c = (s.dev.core c).scatCk portFree :=
  ⟨_, onCore_setCore s c (fun d => d.upd c (fun k => k.scatCk portFree)) _ hl hc rfl⟩

end Sys2Proof.Machine

section
open Sys2Proof Sys2Proof.Machine

/-- Settles O19: a running path, a TSCAT taken up, and a path with nothing to do. -/
theorem scatterAddsRows : Obligations.ScatterAddsRows := by
  unfold Obligations.ScatterAddsRows
  intro s c portFree hl hc
  obtain ⟨t, ht, honly, hcore⟩ := exec_scatterRowAdd portFree hl hc
  dsimp only
  generalize s.dev.core c = k at hcore ⊢
  refine ⟨fun hact => ⟨t, ht, honly, ?_⟩, fun hidle o rest hmov hkind => ⟨t, ht, honly, ?_⟩, fun hidle hmov => ⟨t, ht, honly, ?_⟩⟩
  · have hbegin : k.scatBegin = k := Core.scatBegin_active hact
    have hkept : k.ScatKept (k.scatActs portFree) := k.scatActs_scatKept portFree
    rw [hcore, Core.scatCk_runs portFree (hbegin.symm ▸ hact), hbegin]
    simp only [Core.countScatCk_ck, Core.countScatCk_active, Core.countScatCk_mem, unitStill_countScatCk, Core.countScatCk_c,
      Core.countScatCk_tmm, Core.countScatCk_mov, Core.scatActs_mem]
    exact ⟨congrArg (· + 1) hkept.ck, hkept.active.trans hact, fun a ha => k.scatService_read ha, hkept.unitStill_eq, hkept.c_eq,
      hkept.tmm_eq, hkept.mov_eq⟩
  · have hbegin : k.scatBegin = k.tookUp o := Core.scatBegin_tscat hidle hmov hkind
    have hkept : (k.tookUp o).ScatKept ((k.tookUp o).scatActs portFree) := Core.scatActs_scatKept _ portFree
    rw [hcore, Core.scatCk_runs portFree (hbegin.symm ▸ k.tookUp_active o), hbegin]
    simp only [Core.countScatCk_ck, Core.countScatCk_active, Core.countScatCk_mem, Core.countScatCk_mov, Core.countScatCk_get,
      Core.scatActs_mem, Core.scatService_idle (k.tookUp_busy o)]
    exact ⟨k.tookUp_mem o, hkept.active, congrArg (· + 1) hkept.ck, hkept.mov_eq, (hkept.get_eq _).trans (k.tookUp_oob o)⟩
  · have hbegin : k.scatBegin = k := Core.scatBegin_other hidle hmov
    rw [hcore, Core.scatCk_rests portFree (hbegin.symm ▸ hidle), hbegin]

end

/-! SUPPORT. The check engines (R104, R106, R107): the arcades of a device, what a finished tensor operation does to its core, and the three
commands of a spot check. -/

namespace Sys2Proof.Machine

/-! Arcades. -/

section
variable (d : Dev) (n : Nat) (a : Arcade)

@[simp] theorem Dev.arcade_setArcade_same : (d.setArcade n a).arcade n = a := Tab.get_set_same ..
theorem Dev.arcade_setArcade_ne {x : Nat} (h : x ≠ n) : (d.setArcade n a).arcade x = d.arcade x := Tab.get_set_ne _ _ _ h
@[simp] theorem Dev.core_setArcade (c : CoreId) : (d.setArcade n a).core c = d.core c := rfl
@[simp] theorem Dev.reg_setArcade (x : Nat) : (d.setArcade n a).reg x = d.reg x := rfl
@[simp] theorem Dev.arcade_setCore (c : CoreId) (k : Core) : (d.setCore c k).arcade n = d.arcade n := rfl
@[simp] theorem Dev.arcade_put (f : Fld) (v : Nat) : (d.put f v).arcade n = d.arcade n := by
  unfold Dev.arcade Dev.put; rw [Dev.setReg_arcades]

end

/-! A finished tensor operation. -/

/-- Of the core only the account has changed. -/
def Core.SameButAcct (k k' : Core) : Prop := { k' with acct := k.acct } = k

theorem Core.SameButAcct.slots {k k' : Core} (h : k.SameButAcct k') (port n : Nat) : k.SameButAcct (k'.slots port n) := h

theorem Core.opSlots_sameButAcct (k : Core) (o : TensorOp) : k.SameButAcct (k.opSlots o) := by
  have hk : k.SameButAcct k := rfl
  unfold Core.opSlots
  split
  · exact ((hk.slots ..).slots ..).slots ..
  · exact (hk.slots ..).slots ..
  · exact (hk.slots ..).slots ..

theorem Core.finishOp_frame (k : Core) (o : TensorOp) (cause : Nat) :
    { k.finishOp o cause with acct := k.acct, c := k.c, cSrc := k.cSrc, lastUnit := k.lastUnit } = k :=
  (congrArg (fun x : Core => { x with c := k.c, cSrc := k.cSrc, lastUnit := k.lastUnit }) (k.opSlots_sameButAcct o) :)

section
variable (k : Core) (o : TensorOp) (cause : Nat)

@[simp] theorem Core.finishOp_tmm : (k.finishOp o cause).tmm = k.tmm := (congrArg Core.tmm (k.finishOp_frame o cause) :)
@[simp] theorem Core.finishOp_mem : (k.finishOp o cause).mem = k.mem := (congrArg Core.mem (k.finishOp_frame o cause) :)
@[simp] theorem unitStill_finishOp : unitStill (k.finishOp o cause) = unitStill k := (congrArg unitStill (k.finishOp_frame o cause) :)

/-- The operation's counter gains 1 (R42). -/
theorem Core.finishOp_cr (i : Nat) : (k.finishOp o cause).cr i = if i = o.ctr.toNat then k.cr i + 1 else k.cr i := by
  have hc : (k.opSlots o).cr = k.cr := (congrArg Core.cr (k.opSlots_sameButAcct o) :)
  have hcr : (k.finishOp o cause).cr i = ((k.opSlots o).setCr o.ctr.toNat ((k.opSlots o).cr o.ctr.toNat + 1)).cr i := rfl
  rw [hcr, Core.cr_setCr, hc]
  split
  · next h => rw [h]
  · rfl

end

/-! The selection (R106). -/

/-- A segment starts at a multiple of 16 columns. -/
theorem TensorOp.segment_col (o : TensorOp) (v : Nat) : (o.segment v).col % 16 = 0 := Nat.mul_mod_left ..

/-- A segment lies in a row that the TMM has. -/
theorem TensorOp.segment_row (o : TensorOp) (v : Nat) (h : 0 < o.rowsD) : (o.segment v).row < o.rowsD := by
  have hlt : (o.segment v).row < max 1 o.rowsD := Nat.mod_lt _ (by omega)
  omega

/-- A TMM that can still be selected: not checked, not written, not on the check engine. -/
def TensorOp.Selectable (o : TensorOp) : Prop := o.spot = none ∧ o.done = false ∧ o.onCheck = false

/-- The last TMM is marked, and no other. -/
theorem markLast_eq (v : Nat) {o : TensorOp} (ho : o.Selectable) : ∀ {l : List TensorOp}, l.getLast? = some o →
    markLast v l = l.dropLast ++ [{ o with spot := some (o.segment v) }]
  | [p], h => by
    obtain ⟨hspot, hdone, hcheck⟩ := ho
    obtain rfl : p = o := Option.some.inj h
    simp [markLast, hspot, hdone, hcheck]
  | p :: q :: l, h => by
    have hlast : (q :: l).getLast? = some o := by rwa [List.getLast?_cons_cons] at h
    calc markLast v (p :: q :: l) = p :: markLast v (q :: l) := rfl
      _ = p :: ((q :: l).dropLast ++ [{ o with spot := some (o.segment v) }]) := by rw [markLast_eq v ho hlast]

/-- The arcade after a selection that drew `v` for the next count. -/
def Arcade.selected (a : Arcade) (c : CoreId) (v : Nat) : Arcade := { a with countdown := v, queue := a.queue ++ [⟨c.key, true⟩] }

/-- The device after a selection with the free values `v1` for the segment and `v2` for the next count. -/
def Dev.selected (d : Dev) (c : CoreId) (v1 v2 : Nat) : Dev :=
  (({ d with freeCtr := d.freeCtr + 2 }).setCore c { d.core c with tmm := markLast v1 (d.core c).tmm }).setArcade (arcadeNo c)
    ((d.arcade (arcadeNo c)).selected c (v2 % 2 ^ (d.get WARD_SPOT_CFG_period + 1) + 1))

theorem Dev.spotSelect_selected {d : Dev} {c : CoreId} {o : TensorOp} (hen : d.get WARD_SPOT_CFG_en = 1)
    (hworking : (d.arcade (arcadeNo c)).working = true) (hcount : (d.arcade (arcadeNo c)).countdown = 0)
    (hrec : d.arcadeRecovers (arcadeNo c) = false) (hlast : (d.core c).tmm.getLast? = some o) (ho : o.Selectable) :
    ∃ v1 v2, d.spotSelect c = d.selected c v1 v2 := by
  obtain ⟨hspot, hdone, hcheck⟩ := ho
  refine ⟨Config.freeValue d.freeCtr, Config.freeValue (d.freeCtr + 1), ?_⟩
  have hfree : (o.spot.isNone && !o.done && !o.onCheck) = true := by rw [hspot, hdone, hcheck]; rfl
  unfold Dev.spotSelect
  simp only [hlast]
  rw [if_pos ⟨hen, hworking, hcount, hrec, hfree⟩]
  rfl

section
variable (d : Dev) (c : CoreId) (v1 v2 : Nat)

/-- A selection changes one core and one arcade, and draws free values. -/
theorem Dev.selected_frame : { d.selected c v1 v2 with cores := d.cores, arcades := d.arcades, freeCtr := d.freeCtr } = d := rfl

theorem Dev.selected_tasks : (d.selected c v1 v2).tasks = d.tasks := rfl

theorem Dev.selected_fuse : (d.selected c v1 v2).fuse = d.fuse := rfl

theorem Dev.selected_core : (d.selected c v1 v2).core c = { d.core c with tmm := markLast v1 (d.core c).tmm } := by
  rw [Dev.selected, Dev.core_setArcade, Dev.core_setCore_same]

theorem Dev.selected_core_ne {x : CoreId} (h : x ≠ c) : (d.selected c v1 v2).core x = d.core x := by
  rw [Dev.selected, Dev.core_setArcade, Dev.core_setCore_ne _ _ h]
  rfl

theorem Dev.selected_arcade : (d.selected c v1 v2).arcade (arcadeNo c) =
    (d.arcade (arcadeNo c)).selected c (v2 % 2 ^ (d.get WARD_SPOT_CFG_period + 1) + 1) := Dev.arcade_setArcade_same ..

theorem Dev.selected_arcade_ne {x : Nat} (h : x ≠ arcadeNo c) : (d.selected c v1 v2).arcade x = d.arcade x := by
  rw [Dev.selected, Dev.arcade_setArcade_ne _ _ _ h, Dev.arcade_setCore]
  rfl

end

/-- SPOT_CHECK_SELECT on a live device. -/
theorem exec_spotCheckSelect {s : State} {c : CoreId} {v1 v2 : Nat} (hl : Live s) (hc : s.dev.logical c = true)
    (h : s.dev.spotSelect c = s.dev.selected c v1 v2) : exec (.spotCheckSelect c) s = .next ⟨s.pending, s.dev.selected c v1 v2⟩ := by
  rw [← h]
  exact onCore_calm s c (fun d => d.spotSelect c) hl hc (by rw [h, Dev.selected_tasks]; exact hl.calm) (by rw [h, Dev.selected_fuse])

/-! The recomputation (R104, R106). -/

/-- A spot check at the head of a working arcade's queue is recomputed. -/
theorem Dev.checkRequest_spot {d : Dev} {n : Nat} {r : CheckReq} {rest : List CheckReq} (hq : (d.arcade n).queue = r :: rest)
    (hr : r.spot = true) (hworking : (d.arcade n).working = true) (hwaits : (d.arcade n).recomputed = false) :
    d.checkRequest n = d.setArcade n { d.arcade n with recomputed := true } := by
  have hserves : ¬((d.arcade n).working = false ∨ (d.arcade n).recomputed = true) := by rw [hworking, hwaits]; decide
  unfold Dev.checkRequest
  simp only [hq]
  rw [if_neg hserves, if_pos hr]

/-! The comparison (R106, R107). -/

/-- A core after the TMM `o` of a spot check has left its unit. -/
def Core.releases (k : Core) (o : TensorOp) : Core := ({ k with tmm := k.tmm.erase o }).finishOp o 0xB

section
variable (k : Core) (o : TensorOp)

theorem Core.releases_tmm : (k.releases o).tmm = k.tmm.erase o := by rw [Core.releases, Core.finishOp_tmm]
theorem Core.releases_mem : (k.releases o).mem = k.mem := by rw [Core.releases, Core.finishOp_mem]
theorem Core.releases_unitStill : unitStill (k.releases o) = unitStill k := by rw [Core.releases, unitStill_finishOp]; rfl
theorem Core.releases_cr (i : Nat) : (k.releases o).cr i = if i = o.ctr.toNat then k.cr i + 1 else k.cr i := by
  rw [Core.releases, Core.finishOp_cr]
  rfl

end

/-- An arcade after the comparison of the request at its queue's head. -/
def Arcade.served (a : Arcade) (rest : List CheckReq) : Arcade := { a with queue := rest, recomputed := false }

/-- The device after a comparison that matches: the request is gone, the TMM `o` has left its unit, and the check is counted. -/
def Dev.compared (d : Dev) (c : CoreId) (o : TensorOp) (rest : List CheckReq) : Dev :=
  ((d.setArcade (arcadeNo c) ((d.arcade (arcadeNo c)).served rest)).setCore c ((d.core c).releases o)).put WARD_SPOT_CHECKS_count
    ((d.get WARD_SPOT_CHECKS_count + 1) % 2 ^ 32)

theorem Dev.spotCompare_match {d : Dev} {c : CoreId} {o : TensorOp} {r : CheckReq} {rest : List CheckReq}
    (hq : (d.arcade (arcadeNo c)).queue = r :: rest) (hcore : r.core = c.key) (hspot : r.spot = true)
    (hready : (d.arcade (arcadeNo c)).recomputed = true) (ho : (d.core c).tmm.find? (fun o => o.spot.isSome && o.done) = some o) :
    d.spotCompare c true = d.compared c o rest := by
  simp only [Dev.spotCompare, hq, ho, hcore, hspot, hready, and_self, if_true, Dev.compared, Arcade.served, Core.releases]

section
variable (d : Dev) (c : CoreId) (o : TensorOp) (rest : List CheckReq)

/-- A comparison that matches changes one core, one arcade and the registers. -/
theorem Dev.compared_frame : { d.compared c o rest with cores := d.cores, arcades := d.arcades, regs := d.regs } = d := by
  have hregs : Dev.SameButRegs _ (d.compared c o rest) := (Dev.SameButRegs.refl _).put _ _
  exact (congrArg (fun e : Dev => { e with cores := d.cores, arcades := d.arcades, regs := d.regs }) hregs.frame :)

theorem Dev.compared_tasks : (d.compared c o rest).tasks = d.tasks := (congrArg Dev.tasks (d.compared_frame c o rest) :)

theorem Dev.compared_fuse : (d.compared c o rest).fuse = d.fuse := (congrArg Dev.fuse (d.compared_frame c o rest) :)

theorem Dev.compared_core : (d.compared c o rest).core c = (d.core c).releases o := by
  rw [Dev.compared, Dev.core_put, Dev.core_setCore_same]

theorem Dev.compared_core_ne {x : CoreId} (h : x ≠ c) : (d.compared c o rest).core x = d.core x := by
  rw [Dev.compared, Dev.core_put, Dev.core_setCore_ne _ _ h, Dev.core_setArcade]

theorem Dev.compared_arcade : (d.compared c o rest).arcade (arcadeNo c) = (d.arcade (arcadeNo c)).served rest := by
  rw [Dev.compared, Dev.arcade_put, Dev.arcade_setCore, Dev.arcade_setArcade_same]

theorem Dev.compared_count :
    (d.compared c o rest).get WARD_SPOT_CHECKS_count = (d.get WARD_SPOT_CHECKS_count + 1) % 2 ^ 32 := by
  rw [Dev.compared, Dev.get_put_same _ _ _ (isFuse_above (by decide))]
  exact Nat.mod_mod ..

theorem Dev.compared_reg {x : Nat} (h : x ≠ WARD_SPOT_CHECKS_count.key) : (d.compared c o rest).reg x = d.reg x := by
  rw [Dev.compared, Dev.reg_put_ne _ _ _ h, Dev.reg_setCore, Dev.reg_setArcade]

end

/-- SPOT_CHECK_COMPARE with a match on a live device. -/
theorem exec_spotCheckCompare_match {s : State} {c : CoreId} {o : TensorOp} {rest : List CheckReq} (hl : Live s)
    (hc : s.dev.logical c = true) (h : s.dev.spotCompare c true = s.dev.compared c o rest) :
    exec (.spotCheckCompare c true) s = .next ⟨s.pending, s.dev.compared c o rest⟩ := by
  rw [← h]
  exact onCore_calm s c (fun d => d.spotCompare c true) hl hc (by rw [h, Dev.compared_tasks]; exact hl.calm)
    (by rw [h, Dev.compared_fuse])

end Sys2Proof.Machine

section
open Sys2Proof Sys2Proof.Machine

/-- Settles O29: the selection, the recomputation, and the comparison that matches. -/
theorem spotChecksRun : Obligations.SpotChecksRun := by
  unfold Obligations.SpotChecksRun
  intro s c hl hc
  refine ⟨fun o hen hworking hcount hrec hlast hspot hdone hcheck => ?_, fun m r rest hq hr hworking hwaits => ?_,
    fun r rest o hq hcore hr hready ho => ?_⟩
  · have hsel : o.Selectable := ⟨hspot, hdone, hcheck⟩
    obtain ⟨v1, v2, hrun⟩ := Dev.spotSelect_selected hen hworking hcount hrec hlast hsel
    have hcore := s.dev.selected_core c v1 v2
    rw [markLast_eq v1 hsel hlast] at hcore
    exact ⟨_, o.segment v1, _, exec_spotCheckSelect hl hc hrun, rfl, Dev.selected_frame .., fun x hx => Dev.selected_core_ne _ _ _ _ hx,
      hcore, o.segment_col v1, o.segment_row v1, Dev.selected_arcade .., Nat.le_add_left .., Nat.mod_lt _ (Nat.two_pow_pos _),
      fun x hx => Dev.selected_arcade_ne _ _ _ _ hx⟩
  · have hrun := Dev.checkRequest_spot hq hr hworking hwaits
    rw [← hrun]
    exact onDev_calm s (fun d => d.checkRequest m.toNat) hl (by rw [hrun]; exact hl.calm) (by rw [hrun]; rfl)
  · have hrun := Dev.spotCompare_match hq hcore hr hready ho
    refine ⟨_, exec_spotCheckCompare_match hl hc hrun, rfl, Dev.compared_frame .., fun x hx => Dev.compared_core_ne _ _ _ _ hx, ?_⟩
    dsimp only
    rw [Dev.compared_core]
    exact ⟨Core.releases_tmm .., Core.releases_cr _ _, Core.releases_unitStill .., Core.releases_mem .., Dev.compared_arcade ..,
      Dev.compared_count .., fun x hx => Dev.compared_reg _ _ _ _ hx⟩

end

/-! SUPPORT. Remote queues (R115, R380): what the head of a queue that is a read hands to its stream on a core in RESET, and a state for O21. -/

namespace Sys2Proof.Machine

/-! The injection buffer: the end of a group and the passing of an entry leave it alone. -/

@[simp] theorem Core.endGroup_inj (k : Core) (tag : BitVec 8) (g : Group) : (k.endGroup tag g).inj = k.inj := by
  unfold Core.endGroup
  split
  · rfl
  · dsimp only
    split
    · split
      · rfl
      · split <;> rfl
    · split
      · split <;> rfl
      · rfl
    · rfl
    · rfl

@[simp] theorem Core.passAhead_inj (k : Core) (m : Nat) : (k.passAhead m).inj = k.inj := by
  unfold Core.passAhead
  refine List.foldlRecOn (motive := fun k' : Core => k'.inj = k.inj) _ _ rfl (fun k' h p _ => ?_)
  split
  · split
    · rw [Core.endGroup_inj, h]
    · exact h
  · exact h

/-- A core in RESET gives a zero row that carries poison, whatever its memory holds (R380). -/
theorem Core.readRow_reset {k : Core} (h : k.run = .reset) (addr stream : Nat) (last : Bool) (dtag : BitVec 8)
    (ctr : Option (BitVec 6 × BitVec 8)) (bad : Bool) :
    k.readRow addr stream last dtag ctr bad = { k with inj := k.inj ++ [⟨stream, ⟨0, false, last, true, dtag⟩⟩] } := if_pos h

/-- A read at the head of a queue with room in the injection buffer leaves it. -/
theorem Dev.queueRetire_read {d : Dev} {c : CoreId} {m addr stream : Nat} {last : Bool} {dtag : BitVec 8}
    {ctr : Option (BitVec 6 × BitVec 8)} {rest : List RemoteOp} (hq : (d.core c).queue m = .read addr stream last dtag ctr :: rest)
    (hroom : (d.core c).inj.length < 64) :
    d.queueRetire c m = d.setCore c ((((d.core c).setQueue m rest).readRow addr stream last dtag ctr false).passAhead m) := by
  simp only [Dev.queueRetire, hq]
  exact if_neg (Nat.not_le.mpr hroom)

/-- REMOTE_QUEUE_RETIRE with a read at the head, on a live device whose core is in RESET: its stream gets a zero row that carries poison (R380). -/
theorem exec_remoteQueueRetire_reset {s : State} {c : CoreId} {m : BitVec 2} {addr stream : Nat} {last : Bool} {dtag : BitVec 8}
    {ctr : Option (BitVec 6 × BitVec 8)} {rest : List RemoteOp} (hl : Live s) (hc : s.dev.logical c = true)
    (hrun : (s.dev.core c).run = .reset) (hq : (s.dev.core c).queue m.toNat = .read addr stream last dtag ctr :: rest)
    (hroom : (s.dev.core c).inj.length < 64) :
    ∃ t, exec (.remoteQueueRetire c m) s = .next t
      ∧ (t.dev.core c).inj = (s.dev.core c).inj ++ [⟨stream, ⟨0, false, last, true, dtag⟩⟩] := by
  have hreset : ((s.dev.core c).setQueue m.toNat rest).run = .reset := hrun
  obtain ⟨hexec, -, hcore⟩ := onCore_setCore s c (fun d => d.queueRetire c m.toNat) _ hl hc (Dev.queueRetire_read hq hroom)
  refine ⟨_, hexec, ?_⟩
  rw [hcore, Core.passAhead_inj, Core.readRow_reset hreset]
  rfl

/-- A device after reset, so that core (0, 0) is in RESET, whose remote queue of PM holds a Porter read of a row that carries no poison. -/
def readAtReset : State :=
  ⟨[], Dev.reset.setCore ⟨0, 0⟩ { Core.reset with remote := [(2, [.read 0x80000 3 true 4 none])] }⟩

theorem readAtReset_live : Live readAtReset := ⟨by decide +kernel, rfl⟩

theorem readAtReset_rowPoisoned : (readAtReset.dev.core ⟨0, 0⟩).rowPoisoned 0x80000 = false := by decide +kernel

end Sys2Proof.Machine

section
open Sys2Proof Sys2Proof.Machine

/-- Refutes O21: the clause of REMOTE_QUEUE_RETIRE with a read at the head claims that the stream gets the row with the mark it has in memory.
A core in RESET gives a zero row that carries poison instead (R380); in `readAtReset` the row read carries none.  The statement lacks the
hypothesis that the core is not in RESET. -/
theorem not_rowsReachMemory : ¬Obligations.RowsReachMemory := by
  unfold Obligations.RowsReachMemory
  intro h
  obtain ⟨-, -, hread⟩ := h readAtReset ⟨0, 0⟩ readAtReset_live rfl
  obtain ⟨t, ht, -, -, hmark, -⟩ := hread 2 0x80000 3 true 4 none [] rfl (by decide)
  obtain ⟨u, hu, hpoison⟩ := exec_remoteQueueRetire_reset (c := ⟨0, 0⟩) (m := 2) readAtReset_live rfl rfl rfl (by decide)
  obtain rfl : t = u := by rw [ht] at hu; injection hu
  rw [hmark, readAtReset_rowPoisoned] at hpoison
  simp at hpoison

end

/-! SUPPORT. A state for O46: IMAGE_LOAD from a queue that the image itself binds to an optical port (R302, R325). -/

namespace Sys2Proof.Machine

/-- An image that loads no core and binds peer queue 48 to optical port 0: en = 1 and loc = 2. -/
def bindingImage : Image := ⟨[], [], [], 0, [], [], [], [], 0, [(48, 5)], none, 0, none, none⟩

/-- A manifest whose one entry gives device 0 the digest of that image's empty load set (R338). -/
def bindingManifest : List Byte :=
  [0x45, 0x46, 0x5A, 0x4D, 0x41, 0x4E, 0x49, 0x46] ++ toBytes 8 1 ++ toBytes 4 0 ++ sha256 bindingImage.bytes

/-- IMAGE_LOAD of job 3 from queue 48, started by Naeno, with the 52 bytes of the manifest at virtual 0. -/
def bindingCmd : Cmd := ⟨7, 48, BitVec.ofNat 512 (0x0202 + 3 * 2 ^ 48 + 52 * 2 ^ 320), .started, none, 0⟩

/-- Job 3 of queue 48, which holds context 0 from an image that bound no peer queue. -/
def bindingJob : Job :=
  { Job.create 0 48 false 64 0 0x400000 100 with ctx := some 0, image := some { bindingImage with peers := [] } }

/-- A device after reset with the PCIe link up and queue 48 as reset leaves it, so that its location reads as host memory.  Virtual page 0 of job 3
is mapped to page 5 of stack 0, which holds the manifest. -/
def bindingDev : Dev :=
  { Dev.reset with
    hbm := Memory.writeBytes (Memory.writeN [] 0x400000 8 (pteWord 3 true true false 0 5)) (5 * 2 ^ 21) bindingManifest
    jobs := [(3, some bindingJob)]
    cmds := [bindingCmd]
    pcie := { Dev.reset.pcie with up := true } }

def bindingState : State := ⟨[], bindingDev⟩

theorem bindingState_live : Live bindingState := ⟨by decide +kernel, rfl⟩

theorem bindingDev_hostRing : HostRing bindingDev bindingCmd.queue.toNat := ⟨by decide +kernel, by decide +kernel, rfl⟩

theorem bindingDev_job : bindingDev.job bindingCmd.job = some bindingJob := by decide +kernel

theorem bindingState_working : Working bindingState bindingCmd 0x0202 :=
  ⟨bindingState_live, rfl, by decide +kernel, rfl, fun _ => by decide +kernel, bindingDev_hostRing⟩

/-- The image passes the checks of R338: the digest in the manifest is that of its load set. -/
theorem bindingDev_imageError :
    bindingDev.imageError bindingCmd.job bindingJob bindingImage
      (bindingDev.virtBytes bindingJob.table (bindingCmd.par 16 8) (bindingCmd.par 24 4)).1 = none := by decide +kernel

theorem bindingDev_lacks : bindingDev.lacks { bindingCmd with img := some bindingImage } = none := by decide +kernel

/-- Whether IMAGE_LOAD of the image answers the command and yet nothing has left the device for host memory. -/
def repliesElsewhere (s : State) : Bool :=
  match exec (.imageLoad 7 bindingImage) s with
  | .next t => t.dev.out.isEmpty && t.dev.cmds.isEmpty
  | _ => false

/-- The load writes WARD_Q_48 (`Dev.takeImage`) before the reply, which then leaves as a service message on port 0. -/
theorem bindingState_repliesElsewhere : repliesElsewhere bindingState = true := by decide +kernel

/-- What `repliesElsewhere` says of what has left the device. -/
theorem out_of_repliesElsewhere {s t : State} (h : repliesElsewhere s = true) (ht : exec (.imageLoad 7 bindingImage) s = .next t) :
    t.dev.out = [] := by
  rw [repliesElsewhere, ht, Bool.and_eq_true] at h
  exact List.isEmpty_iff.mp h.1

end Sys2Proof.Machine

section
open Sys2Proof Sys2Proof.Machine

/-- Refutes O46: an IMAGE_LOAD that passes its checks does not always put its reply into the reply ring that its queue had.  What an image loads
includes the configuration of the peer queues 48 to 62 (R302, R325), and the reply goes where the queue of the command lies after that; in
`bindingState` the command came from queue 48, whose location read as host memory, and the image binds queue 48 to an optical port, so that no
write to host memory leaves.  The state is not one that a run from reset was shown to reach: the statement lacks the hypothesis that the command's
queue is a host queue (0 to 47), or is none that the image configures. -/
theorem not_jobCommands : ¬Obligations.JobCommands := by
  unfold Obligations.JobCommands
  intro h
  obtain ⟨-, hjobs, -⟩ := h bindingState bindingCmd
  obtain ⟨himage, -⟩ := hjobs bindingJob bindingDev_job
  obtain ⟨-, hload⟩ := himage bindingImage bindingState_working rfl
  obtain ⟨t, e, -, ht, hreplied, -⟩ := hload bindingDev_imageError bindingDev_lacks rfl rfl
  have hentry := hreplied.entry
  rw [out_of_repliesElsewhere bindingState_repliesElsewhere ht] at hentry
  exact List.not_mem_nil hentry

end
